-- ==== Sys2Proof/Word.lean ====
section
/-!
DEFINITION. The word types of the model.
-/
namespace Sys2Proof

/-- A byte of a packet, an image, a buffer or memory. -/
abbrev Byte := BitVec 8

/-- A 32-bit register of BAR0. -/
abbrev Word := BitVec 32

/-- A Scehus scalar, one Ingot operand, a 64-bit time. -/
abbrev DWord := BitVec 64

/-- A statistics counter (R427). -/
abbrev Count48 := BitVec 48

end Sys2Proof
end

