-- ==== Sys2Proof/Syntax.lean ====
section
/-!
DEFINITION. The commands the block takes: one constructor per row of spec/opcode_table.json, each with the operands its
rule reads.  A command is an operation from outside (a register write, a packet, a frame, a pin) or an event of one of the
device's own engines, indivisible as spec/95_what_each_step_holds.md lists it.
-/
namespace Sys2Proof

/-- Quadrant QD0 to QD3 (R21). -/
abbrev Quad := Fin 4
/-- Fabric fiber F000 to F127 (R22). -/
abbrev FiberIx := Fin 128
/-- Logical link LK0000 to LK1023 (R52). -/
abbrev LinkIx := Fin 1024
/-- Wavelength slot W0 to W8 (R44). -/
abbrev Slot := Fin 9
/-- Photonic engine PE00 to PE15 (R21). -/
abbrev PeIx := Fin 16
/-- Ingot stack IG00 to IG11 (R21). -/
abbrev StackIx := Fin 12
/-- Lantern engine LE00 to LE63 of a quadrant (R21). -/
abbrev EngineIx := Fin 64
/-- Route entry of the two sets of 512 (R92). -/
abbrev RouteIx := Fin 1024
/-- Slot record of a quadrant: 1,024 SRAM slots and the spill slots, as CE_SLOT counts them (R256). -/
abbrev SlotIx := Fin 4096
/-- Job ID (R27 of the header layout, R280). -/
abbrev JobIx := Fin 4096
/-- Communicator table entry (R249). -/
abbrev CommIx := Fin 4096
/-- Region table entry (R306). -/
abbrev RegionIx := Fin 256
/-- Result slot (R437). -/
abbrev RsIx := Fin 4096
/-- BAR0 byte offset (R419). -/
abbrev BarAddr := BitVec 26
/-- Index of a temperature sensor of R489: KIND 6 numbering of R476 within a quadrant, or the service die. -/
abbrev SensorIx := Fin 160

/-- A rail of the power sequencer (R446): the 6 V bus, the service die, or the rail of unit u of R462. -/
inductive Rail where
  | bus | serviceDie | unit (u : Fin 164)
  deriving DecidableEq, Repr

/-- The two 52 V feeds (R496). -/
inductive Feed where
  | a | b
  deriving DecidableEq, Repr

/-- A fiber receptacle with its sense contact (R504): one per photonic engine, and S0. -/
inductive Receptacle where
  | pe (p : PeIx) | s0
  deriving DecidableEq, Repr

/-- What a received alignment block carries (R50). -/
structure AlignBlock where
  slotByte : Byte
  lane : BitVec 3
  width : BitVec 2
  cal : Bool
  dup : Bool
  fiber : BitVec 7
  role : BitVec 2
  version : BitVec 4
  period : BitVec 32
  epid : BitVec 24
  deriving DecidableEq, Repr

/-- The five reasons for declaring a lane lost (R68), in its order. -/
inductive LossCause where
  | light | wrongSlot | uncorrectable | codewordLock | skew
  deriving DecidableEq, Repr

/-- A ring of the device (R81): the modulator or drop ring of a photonic engine's fiber and slot, or the n-th matrix ring
of a route entry. -/
inductive RingRef where
  | pe (p : PeIx) (fiber : Fin 8) (slot : Slot) (drop : Bool)
  | matrix (q : Quad) (entry : RouteIx) (n : Fin 8)
  /-- A ring of the service fiber S0 (R412). -/
  | s0 (slot : Slot) (drop : Bool)
  deriving DecidableEq, Repr

/-- Where a parity check failed (R132). -/
inductive ParityLoc where
  | ingress (k : LinkIx)
  | buffer (id : Nat)
  | replay (k : LinkIx)
  /-- A packet, by the number it was received under, that waits for the copier. -/
  | copier (rx : Nat)
  /-- A packet on the bridge toward another quadrant. -/
  | bridge (dst : Quad) (id : Nat)
  /-- The n-th packet in the input queue of a unit: collective engine, memory service, Lantern cluster, service link, PEER_WR
  queue, PEER_ACK input. -/
  | unit (unit : Fin 6) (n : Nat)
  | slot (slot : SlotIx)
  /-- LS or register-file bytes of a long operation, by its number. -/
  | operation (id : Nat)
  deriving DecidableEq, Repr

/-- An arbiter of R208. -/
inductive ArbRef where
  | xb (q : Quad) (p : Fin 3)
  | ig (q : Quad) (s : Fin 3)
  | ap (q : Quad)
  | dma
  deriving DecidableEq, Repr

/-- A register that sets the spill slots (R256). -/
inductive SpillReg where
  | cfg | baseLo | baseHi
  deriving DecidableEq, Repr

/-- A wick: quadrant, engine, wick (R291). -/
structure WickId where
  q : Quad
  e : EngineIx
  w : Fin 32
  deriving DecidableEq, Repr

/-- The fields of a Scehus instruction other than CLASS and OP (R309). -/
structure Fields where
  pneg : Bool := false
  pred : BitVec 3 := 0
  d : BitVec 5 := 0
  a : BitVec 5 := 0
  b : BitVec 5 := 0
  c : BitVec 5 := 0
  mod : BitVec 12 := 0
  imm16 : BitVec 16 := 0
  imm64 : BitVec 64 := 0
  deriving DecidableEq, Repr

/-- One symbol error of an Ingot line as the base die finds it: the line within its 4 KiB page, the die it lies on, and
which of the die's five symbols (R366). -/
structure SymErr where
  line : Fin 64
  die : Fin 16
  sym : Fin 5
  deriving DecidableEq, Repr

/-- The fields of a received time record (R399); a record has those its code gives it. -/
structure TimeMsg where
  seqid : BitVec 16
  period : BitVec 32
  /-- T1 or T4: 16 fraction bits and 64 integer bits. -/
  stamp : BitVec 80
  corr : BitVec 24
  flags : Byte
  steps : Byte
  mpd : Word
  deriving DecidableEq, Repr

/-- A PCIe memory write to BAR0 (R421): its bytes and its byte enables are those of one access. -/
structure BarAccess where
  size : Nat
  allBytes : Bool
  value : BitVec 64
  deriving DecidableEq, Repr

/-- The PCIe AtomicOps (R431). -/
inductive BusAtomic where
  | fetchAdd | swap | cas
  deriving DecidableEq, Repr

/-- A monitor configuration register (R478). -/
inductive MonReg where
  | cfg | base | width
  deriving DecidableEq, Repr

/-- A device table with a master and four quadrant copies (R487). -/
inductive DevTable where
  | comm | epoch | region | role
  deriving DecidableEq, Repr

/-- Which copy of a device table fails its parity (R487). -/
inductive TableCopy where
  | master | quadrant (q : Quad)
  deriving DecidableEq, Repr


/-- The commands of the device: one constructor per row of the spec's table of operations and events. -/
inductive Instr where
  /-- INPUT_VALID (R445). The 52 V input is declared valid, and the sequencer runs the power-up rail sequence through to the boot ROM start. -/
  | inputValid
  /-- INPUT_LOST (R444). The input is out of range for 50 µs; lasers go off within 5 µs and the rails are lowered in reverse order. -/
  | inputLost
  /-- RAIL_FAULT (R446). A rail fails to regulate within 5 ms or leaves regulation; the unit it feeds goes FAILED with cause RAIL, or the device stays unpowered. -/
  | railFault (rail : Rail)
  /-- RAIL_RETRY (R446). One second after a bus or service die rail fault, the sequencer tries the power-up once more. -/
  | railRetry
  /-- FEED_CHANGE (R496). Feed A or feed B enters or leaves its valid range; FEED_x_OK changes and source 258 is raised, with no change of device state. -/
  | feedChange (feed : Feed) (ok : Bool)
  /-- ROOT_UNLOCK (R41). ROOT_LOCK falls after boot; every quadrant die, photonic engine and stack is held in reset with lasers off, and the event is logged. -/
  | rootUnlock
  /-- ROOT_LOCK_RETURN (R41). ROOT_LOCK returns after an unlock, and the reset controller starts a warm reset. -/
  | rootLockReturn
  /-- MESO_GUARD_SET (R42). The pointer separation of a crossing leaves 2 to 6 entries; a unit-class fault is reported for the quadrant, and its traffic continues. -/
  | mesoGuardSet (q : Quad)
  /-- WARM_RESET (R448). The reset controller records the cause, holds the dies in reset, copies NEXT into ACTIVE, re-gates rails, sends the sync pulse and starts the boot ROM. -/
  | warmReset (cause : BitVec 4)
  /-- RESET_SEQ_ARM (R449). A write of 0x0000_4E57 to SD_RESET starts a new warm reset sequence and cancels any pending sequence. -/
  | resetSeqArm (byFw : Bool)
  /-- RESET_SEQ_CONFIRM (R449). A write of 0x0000_B1C3 within 1 ms of the arm write starts a warm reset; otherwise it is counted in RST_BAD_SEQ. -/
  | resetSeqConfirm (byFw : Bool)
  /-- STAGING_WRITE (R451). A host write to the BAR4 staging window stores image bytes, or is ignored and counted in STAGE_WR_REJ from GO_HOST to the end of VERIFY. -/
  | stagingWrite (off : Nat) (bytes : List (Option Byte))
  /-- GO_HOST (R451). GO_HOST in WAIT_IMAGE makes the ROM copy the staged image into the image store and start checking it. -/
  | goHost
  /-- GO_PEER (R456). GO_PEER in WAIT_IMAGE with PEER_EN set starts a peer fetch on BOOT_FIBER, or sets PEER_CAL when the calibration set is bad. -/
  | goPeer
  /-- HOST_WAIT_EXPIRY (R456). HOST_PRESENT has read 0 for HOST_WAIT × 100 ms in WAIT_IMAGE, and the ROM starts a peer fetch. -/
  | hostWaitExpiry
  /-- IMAGE_CHECK_DONE (R453). The image checks complete; the ROM jumps to ENTRY with the result slots emptied, or reports the first failing code and returns to WAIT_IMAGE. -/
  | imageCheckDone
  /-- BOOT_REQ_RX (R457). A serving spine receives BOOT_REQ on a boot link and answers from its image store with BOOT_DATA or BOOT_NAK. -/
  | bootReqRx (k : LinkIx) (off : BitVec 32)
  /-- BOOT_DATA_RX (R458). The booting device receives image bytes for an offset and, once it holds the whole image, starts the checks of R453. -/
  | bootDataRx (off : BitVec 32) (total : BitVec 32) (svn : BitVec 8) (bytes : List Byte)
  /-- BOOT_NAK_RX (R458). A BOOT_NAK ends the peer fetch with PEER_NAK. -/
  | bootNakRx (off : BitVec 32)
  /-- BOOT_REQ_TIMEOUT (R458). A boot request has not been answered within 100 µs, and the booting device asks for that offset again. -/
  | bootReqTimeout (off : BitVec 32)
  /-- BOOT_CFG_WRITE (R456). A write to BOOT_CFG starts storing the value in the NOR boot sector with BUSY set; writes while BUSY is 1 are ignored. -/
  | bootCfgWrite (v : Word)
  /-- BOOT_CFG_STORED (R467). The NOR boot sector write completes, and BOOT_CFG.BUSY clears. -/
  | bootCfgStored
  /-- ATTEST (R460). SEC_CMD ATTEST snapshots the device state and starts building the signed report in ATT_BUF. -/
  | attest
  /-- ATTEST_DONE (R461). The attestation report and its signature are complete, and BUSY clears. -/
  | attestDone
  /-- SVN_ADVANCE (R454). The ROLLBACK fuse count is raised to the SVN of the running image. -/
  | svnAdvance
  /-- OWNER_ENROLL (R455). SEC_ARG is burnt into OWNER_KEY_HASH while that hash is all zero; the command is refused otherwise. -/
  | ownerEnroll
  /-- OWNER_REQUIRE (R455). OWNER_REQ is burnt while an owner key is enrolled; the command is refused otherwise. -/
  | ownerRequire
  /-- UNIT_RESET (R464). UR_CMD OP RESET takes the named lane, tile, engine, cluster, stack or quadrant down through RESET and INIT once its preconditions pass. -/
  | unitReset (kind : BitVec 4) (index : BitVec 16) (force : Bool)
  /-- UNIT_HOLD (R463). UR_CMD OP HOLD resets the named unit as RESET does, but the unit always ends in HELD; LANE returns BAD_CMD. -/
  | unitHold (kind : BitVec 4) (index : BitVec 16) (force : Bool)
  /-- UNIT_RELEASE (R463). UR_CMD OP RELEASE takes a HELD unit to SERVICE; a stack enters ONLINE, or OFFLINE if OFFLINE is set. -/
  | unitRelease (kind : BitVec 4) (index : BitVec 16)
  /-- UNIT_RESET_DONE (R464). A unit reset reaches its end state, SERVICE or HELD, and UR_STATUS.BUSY clears. -/
  | unitResetDone (ok : Bool)
  /-- QUAD_HOLD_DEFERRED (R492). A QUAD HOLD deferred by a QUAD_STATE_ERR starts once UR_STATUS.BUSY clears. -/
  | quadHoldDeferred
  /-- MATE_CLOSE_DEBOUNCED (R504). A receptacle sense contact has held closed for 100 ms, and MATED or S0_MATED sets, freeing the lasers of that array. -/
  | mateCloseDebounced (r : Receptacle)
  /-- MATE_OPEN (R504). A receptacle sense contact opens; MATED clears within 1 µs and the array's lasers and modulators go dark. -/
  | mateOpen (r : Receptacle)
  /-- FIBER_ENABLE (R57). Setting EN in FT_CFG takes the fiber's links from DISABLED to LIGHT, and training starts. -/
  | fiberEnable (f : FiberIx)
  /-- FIBER_DISABLE (R75). Clearing EN takes every link of the fiber to DISABLED at the next row boundary, and its flits in flight are dropped. -/
  | fiberDisable (f : FiberIx)
  /-- FIBER_MODE_WRITE (R36). A write to MODE or WIDTH of FT_CFG is applied while EN is 0 and the PEER and width rules hold, and is ignored otherwise. -/
  | fiberModeWrite (f : FiberIx) (v : Word)
  /-- LINK_LIGHT_DETECTED (R57). Light is detected on at least one slot of a link in LIGHT, and the link enters LOCK. -/
  | linkLightDetected (k : LinkIx)
  /-- LINK_TRAIN_DONE (R57). Codeword lock and the error ratio over 4,096 codewords are met on MIN_LANES lanes, and the link enters ALIGN. -/
  | linkTrainDone (k : LinkIx)
  /-- TRAIN_STATE_TIMEOUT (R57). The limit of a training state runs out; the link returns to LIGHT, TRAIN_FAIL is counted, and a 1 ms back-off starts. -/
  | trainStateTimeout (k : LinkIx)
  /-- TRAIN_BACKOFF_EXPIRY (R57). The 1 ms back-off after a failed or refused training ends, and the link trains again. -/
  | trainBackoffExpiry (k : LinkIx)
  /-- ALIGN_PERIOD_TX (R49). An alignment period boundary is reached; alignment blocks are sent on every lane, and the pending swap, SYNC and stamp actions are taken. -/
  | alignPeriodTx (f : FiberIx)
  /-- ALIGN_BLOCK_RX (R51). A lane's alignment block is received; it is time-stamped, and its SLOT field is checked against the tuned slot and pilot. -/
  | alignBlockRx (f : FiberIx) (slot : Slot) (blk : AlignBlock) (pilotOk : Bool) (late : Bool) (frac : BitVec 16)
  /-- DARK_PERIOD_EXPIRY (R76). A DARK_PERIOD ends; the swap starts if calibration is complete, and otherwise waits and CAL_LATE is counted. -/
  | darkPeriodExpiry (f : FiberIx)
  /-- DARK_CAL_DONE (R102). The calibration of a dark or lost slot completes or fails, and the next swap, lane return or retry follows. -/
  | darkCalDone (f : FiberIx) (slot : Slot) (ok : Bool)
  /-- SWAP_VERIFY_TIMEOUT (R64). The duplicate has not verified or deskewed by the end of step 3, and the spine abandons the swap. -/
  | swapVerifyTimeout (f : FiberIx)
  /-- LC_MASK_RX (R519). LC_MASK shows a slot the partner no longer receives, and the spine handles the link by R69 for its transmit direction. -/
  | lcMaskRx (k : LinkIx) (mask : BitVec 9)
  /-- LC_DUP_RX (R63). The follower duplicates the named lane position onto the named slot from the named period, or moves it at once for switch without duplication. -/
  | lcDupRx (k : LinkIx) (pos : BitVec 3) (slot : Slot) (period : BitVec 32)
  /-- LC_READY_RX (R63). The receiver reports the duplicate verified, and the transmitter sends the switch row with the new map. -/
  | lcReadyRx (k : LinkIx) (pos : BitVec 3) (slot : Slot)
  /-- LC_SWITCH_RX (R122). The follower sends the switch row carrying the given SWITCH_ID and map. -/
  | lcSwitchRx (k : LinkIx) (id : BitVec 8) (map : BitVec 32)
  /-- LC_LEND_RX (R56). A leaf-side receiver of LC_LEND starts or stops transmitting on W8 for its link. -/
  | lcLendRx (k : LinkIx) (lend : Bool)
  /-- LC_CAL_RX (R61). The follower starts or stops sending the calibration pattern on the named slot. -/
  | lcCalRx (k : LinkIx) (slot : Slot) (on : Bool)
  /-- SWITCH_FLIT_RX (R115). A switch flit that passes both complement checks with a new SWITCH_ID makes the receiver apply the new lane map from the next row. -/
  | switchFlitRx (k : LinkIx) (flit : List Byte)
  /-- LANE_LOSS (R68). A receiver detects loss of light, pilot, codeword lock or skew on a lane, stops its flits and sends LC_MASK without it. -/
  | laneLoss (f : FiberIx) (slot : Slot) (cause : LossCause)
  /-- LINK_WAIT_EXPIRY (R163). A packet waiting for its link to return reaches LINK_WAIT and is dropped as DOWN_DROP. -/
  | linkWaitExpiry (q : Quad) (k : LinkIx)
  /-- RING_PREBIAS_SETTLED (R81). A ring's pre-biased heater settles, and the ring enters SEARCH. -/
  | ringPrebiasSettled (r : RingRef)
  /-- RING_SEARCH_PEAK (R81). The search finds the peak of drop power, and the ring enters TRACK. -/
  | ringSearchPeak (r : RingRef)
  /-- RING_SEARCH_TIMEOUT (R81). The search reaches 1 ms without a peak, and the acquisition attempt fails. -/
  | ringSearchTimeout (r : RingRef)
  /-- RING_TRACK_SETTLED (R81). 20 µs after TRACK, the ring enters VERIFY. -/
  | ringTrackSettled (r : RingRef)
  /-- PILOT_WINDOW (R80). A 160 µs pilot window ends; its MATCH, ALIAS, WRONG or NONE outcome drives VERIFY and checks LOCKED rings. -/
  | pilotWindow (r : RingRef) (amps : List Nat)
  /-- ALIAS_HEATER_STEP_DONE (R87). The one-slot heater step of an alias ring completes, and its trim sweep starts. -/
  | aliasHeaterStepDone (r : RingRef)
  /-- ALIAS_SWEEP_DONE (R86). The alias trim sweep ends; the ring re-enters TRACK at the peak, or the attempt fails if there is no peak. -/
  | aliasSweepDone (r : RingRef) (peak : Bool)
  /-- RING_LOCK_LOSS (R84). A LOCKED ring's dither error exceeds 40 GHz, or its drop power falls below half for 100 ns; the ring re-acquires from PREBIAS. -/
  | ringLockLoss (r : RingRef) (err : BitVec 16) (dropHalf : Bool)
  /-- THERMAL_SAMPLE (R88). Every 10 µs the sensors are sampled, the feedforward is applied to every ring, and the step and slew are checked against their limits. -/
  | thermalSample (q : Quad) (readings : List (BitVec 12))
  /-- THERMAL_SLEW_CLEAR (R91). The slew and step have been below two thirds of their limits for 500 µs; THERMAL_SLEW clears and HOLD rings re-acquire. -/
  | thermalSlewClear (p : PeIx)
  /-- THERMAL_TRIP (R489). A die sensor reads above shutdown for three consecutive samples; a DEVICE fault follows and the non-service rails are lowered. -/
  | thermalTrip (sensor : SensorIx) (reading : BitVec 16)
  /-- ROUTE_WRITE (R97). A write to a route entry of the shadow set is applied, or is ignored and counted in WRITE_REJ for the active set or while a commit is pending. -/
  | routeWrite (q : Quad) (entry : RouteIx) (word : Fin 8) (v : Word)
  /-- LP_COMMIT (R96). COMMIT validates the shadow set within 1 µs and schedules a commit at the first commit instant at least 3 µs later. -/
  | lpCommit (q : Quad)
  /-- LP_COMMIT_AT (R96). COMMIT_AT requests a commit at the first eligible commit instant not earlier than LP_AT. -/
  | lpCommitAt (q : Quad)
  /-- LP_CANCEL (R97). CANCEL withdraws a pending commit up to 1 µs before its instant and has no effect later. -/
  | lpCancel (q : Quad)
  /-- LP_GAP_NOTICE (R98). At least 2 µs before a commit instant, the spine sends LP_GAP on every TERM link whose outgoing light changes. -/
  | lpGapNotice (q : Quad)
  /-- COMMIT_PRECHECK (R99). At C − 0.5 µs the set is checked again; on failure the commit fails with no ring moving, and otherwise affected links idle. -/
  | commitPrecheck (q : Quad)
  /-- COMMIT_INSTANT (R96). At the commit instant the shadow and active sets swap, and ring reconfiguration starts. -/
  | commitInstant (q : Quad)
  /-- COMMIT_LIGHT_ON (R99). At C + 6 µs the new routes carry light and ACTIVE_SET flips. -/
  | commitLightOn (q : Quad)
  /-- LP_GAP_RX (R98). A partner receiving LP_GAP suspends loss-of-light declarations from the commit instant until the named boundary. -/
  | lpGapRx (k : LinkIx) (instant : DWord) (period : BitVec 32)
  /-- CAL_EXPORT (R105). EXPORT copies the stored calibration set into the export window, with BUSY set. -/
  | calExport
  /-- CAL_EXPORT_DONE (R105). The export completes, and EXPORT_DONE sets. -/
  | calExportDone
  /-- CAL_UNLOCK_FIRST (R105). CAL_UNLOCK is written with 0x0000_CA1B, the first word of the unlock. -/
  | calUnlockFirst
  /-- CAL_UNLOCK_SECOND (R105). 0x0000_35E4 within 1 ms, after an export, puts the unlock in force. -/
  | calUnlockSecond
  /-- CAL_UNLOCK_LAPSE (R105). One second after the unlock, the unlock lapses. -/
  | calUnlockLapse
  /-- CAL_PROGRAM (R106). PROGRAM checks the staged image and then erases and rewrites the stored set, or sets PROG_ERR. -/
  | calProgram
  /-- CAL_PROGRAM_DONE (R106). Programming of the NOR completes, PROG_DONE sets, and the entry is logged. -/
  | calProgramDone (norFault : Bool)
  /-- GROUP_RX (R112). A group trailer arrives; LCRC and GSEQ are checked, verified flits are released or a NAK is scheduled, and the trailer's acknowledgement is processed. -/
  | groupRx (k : LinkIx) (flits : List Byte) (trailer : List Byte)
  /-- REPLAY_TIMEOUT (R120). REPLAY_TIMEOUT elapses with unacknowledged groups and no progress, and the link is lost. -/
  | replayTimeout (k : LinkIx)
  /-- PACKET_HEAD_RX (R131). A HEAD flit is released at the ingress tile; the header is checked and looked up, and the packet is metered, marked and sent to its destination. -/
  | packetHeadRx (k : LinkIx) (head : List Byte)
  /-- PACKET_TAIL_RX (R134). A packet's final flit passes or fails its CRC and stomp checks; a bad packet is discarded or its outgoing tail is stomped. -/
  | packetTailRx (k : LinkIx) (payload : List Byte) (stomped : Bool)
  /-- PARITY_ERROR (R132). A byte fails its parity check; the packet is dropped or its copies are stomped, and the error is logged. -/
  | parityError (q : Quad) (loc : ParityLoc)
  /-- CRD_RX (R135). A CRD record returns credits per VC, capped at the advertised value, or is discarded before CRD_INIT. -/
  | crdRx (k : LinkIx) (credits : List (BitVec 16))
  /-- CRD_INIT_RX (R135). CRD_INIT sets the transmitter's initial credits, and it may send packets from then on. -/
  | crdInitRx (k : LinkIx) (credits : List (BitVec 16))
  /-- CTRL_UNKNOWN_RX (R123). A CTRL record with an unlisted code is ignored and counted in HDR_ERR. -/
  | ctrlUnknownRx (k : LinkIx) (code : Byte)
  /-- SCHED_MATCH (R151). Each cycle, the central scheduler runs three iterations of request, grant and accept over eligible VOQ heads and debits the credits. -/
  | schedMatch (q : Quad)
  /-- XBAR_TRANSFER_DONE (R152). The last cell of a matched packet has crossed, and the input and port rejoin matching. -/
  | xbarTransferDone (q : Quad) (id : Nat)
  /-- BRIDGE_PACKET_RX (R154). A packet arriving on a bridge is written into the local buffer and queued, or passes through the transit FIFO. -/
  | bridgePacketRx (src : Quad) (dst : Quad)
  /-- BACKLOG_BROADCAST (R149). Every 16 cycles a quadrant broadcasts its per-link backlog vector to the other three. -/
  | backlogBroadcast (q : Quad)
  /-- MC_COPY (R157). The multicast copier makes a copy for a target once MC_POOL has room. -/
  | mcCopy (q : Quad)
  /-- ORIGIN_ALLOC (R515). A waiting originating unit takes cells from ORIGIN_POOL or a reserve once either frees room. -/
  | originAlloc (q : Quad)
  /-- SC_POOL_APPLY (R171). A new SC_POOL value is applied at the first cycle in which the pool is empty, and COMMITTED is adjusted. -/
  | scPoolApply (q : Quad)
  /-- FWD_INSERT (R185). INSERT places a new entry in its bucket or overflow store, or returns EXISTS or FULL. -/
  | fwdInsert (q : Quad)
  /-- FWD_UPDATE (R185). UPDATE rewrites PIN, MC and TARGET of an existing entry and refreshes TS. -/
  | fwdUpdate (q : Quad)
  /-- FWD_DELETE (R185). DELETE frees the entry of a key. -/
  | fwdDelete (q : Quad)
  /-- FWD_LOOKUP (R185). LOOKUP returns the entry and location of a key. -/
  | fwdLookup (q : Quad)
  /-- FWD_READ_LOC (R185). READ_LOC returns the key and data at a location. -/
  | fwdReadLoc (q : Quad)
  /-- FWD_BAD_OP (R185). A reserved OP completes with BAD_OP and changes nothing. -/
  | fwdBadOp (q : Quad) (op : BitVec 4)
  /-- AGE_SWEEP_VISIT (R191). The aging sweep visits an entry and reports it AGED or removes it once its age reaches AGE_LIMIT. -/
  | ageSweepVisit (q : Quad) (loc : BitVec 20)
  /-- FWD_NR_CI_WRITE (R188). A write to the notice ring CI frees slots, or is ignored and counted in CI_ERR. -/
  | fwdNrCiWrite (q : Quad) (v : Word)
  /-- SHAPER_WRITE (R200). A write to word 0, 1 or 2 of a shaper resets its credit to BURST or zero and clears the class deficit. -/
  | shaperWrite (q : Quad) (k : Fin 256) (c : Fin 8) (word : Fin 4) (v : Word)
  /-- METER_WRITE (R204). A write to a meter's words 0 to 4 fills both buckets. -/
  | meterWrite (q : Quad) (m : Fin 1024) (word : Fin 5) (v : Word)
  /-- ARB_DECISION (R209). An arbiter advances its calendar and grants the slot owner or a lottery winner, or counts an idle slot or a lost grant. -/
  | arbDecision (a : ArbRef) (sampled : BitVec 32)
  /-- ARB_SEED_WRITE (R210). A write to ARB_SEED loads the LFSR, with zero taken as 1. -/
  | arbSeedWrite (a : ArbRef) (v : Word)
  /-- ARB_FREEZE (R214). Setting FREEZE stops new grants while granted uses complete. -/
  | arbFreeze (a : ArbRef)
  /-- ARB_UNFREEZE (R214). Clearing FREEZE resumes grants for the waiting requests. -/
  | arbUnfreeze (a : ArbRef)
  /-- STARVE_DETECT (R215). A requester's starvation counter passes STARVE_LIMIT; its STARVE bit sets, and the event is counted, logged and interrupted. -/
  | starveDetect (a : ArbRef)
  /-- CMAP_SAMPLE (R216). At a map boundary the congestion map is sampled, published to the host and sent as three MGT packets, or the send is skipped. -/
  | cmapSample (q : Quad)
  /-- CONTRIBUTION_RX (R264). A contribution or partial reaches the engine, is matched or births a chunk, is checked and reduced, and may complete the chunk. -/
  | contributionRx (q : Quad)
  /-- EXPONENT_RX (R267). A SCOUT exponent packet raises the exponent count and block maxima, and at EXPECT the anchors are sent and the chunk enters FILL. -/
  | exponentRx (q : Quad)
  /-- BCS_ACK_RX (R283). A broadcast acknowledgement raises a CBCS chunk's count, which releases the chunk at full count. -/
  | bcsAckRx (q : Quad)
  /-- POST_RX (R332). A post arrives at its reducing quadrant; it is epoch-checked and births or posts its chunk, or is queued for a slot. -/
  | postRx (q : Quad)
  /-- POST_RETRY (R257). A queued post retries its birth when a slot record becomes FREE. -/
  | postRetry (q : Quad)
  /-- DELIVERY_DONE (R263). Every packet and write of a chunk's delivery is done, and the slot is released, goes to ACKWAIT or is HELD. -/
  | deliveryDone (q : Quad) (slot : SlotIx)
  /-- BCS_TIMEOUT (R285). BCS_TIMEOUT passes with the count short; the chunk enters BCS_HOLD, a BCS_INCOMPLETE record is written and JOB_HOLD is set. -/
  | bcsTimeout (q : Quad) (slot : SlotIx)
  /-- JOB_HOLD_CLEAR (R286). JOB_HOLD clears by write or when the last BCS_HOLD chunk leaves, and held barriers send their releases. -/
  | jobHoldClear (j : JobIx)
  /-- EPOCH_WRITE (R281). A change of JOB_EPOCH takes effect on all quadrants, and fencing of the job's chunks of other epochs starts. -/
  | epochWrite (j : JobIx) (v : Word)
  /-- FENCE_DONE (R281). A fenced chunk's issued Ingot accesses have ended; EPOCH_FENCED is sent, the record written and the slot released. -/
  | fenceDone (q : Quad) (slot : SlotIx)
  /-- COMM_WRITE (R254). A write to COMM word 0 applies, is rejected by the reservation check, or fences the chunks of the old key. -/
  | commWrite (c : CommIx) (v : Word)
  /-- DESC_APPLY (R252). A write to DSEQ applies its staged descriptor words and makes the descriptor valid. -/
  | descApply (c : CommIx) (d : Bool) (v : Word)
  /-- SPILL_CFG_WRITE (R261). A write to SPILL_SLOTS or CE_SPILL_BASE is ignored if it breaks the reservation sum, and is otherwise applied once no spill slot is in use. -/
  | spillCfgWrite (q : Quad) (reg : SpillReg) (v : Word)
  /-- CE_CR_CI_WRITE (R278). A write to the completion ring CI frees records, or is ignored under R188. -/
  | ceCrCiWrite (q : Quad) (v : Word)
  /-- TASK_DISPATCH (R349). A CRSU task is given to an IDLE task wick of an eligible engine, and its parameter and state loads are issued. -/
  | taskDispatch (q : Quad)
  /-- TASK_LOAD_DONE (R350). A task's loads complete; its registers are filled and the wick starts at SUB_ENTRY. -/
  | taskLoadDone (w : WickId)
  /-- CBAR_RELEASE_TIME (R343). Device time reaches T, and a CBAR or CA2A instruction completes. -/
  | cbarReleaseTime (q : Quad) (rec : Fin 256)
  /-- WICK_START (R293). START from IDLE or FAULT sets PC to ENTRY, loads s0 from WK_ARG and puts the wick in RUN. -/
  | wickStart (w : WickId) (v : Word)
  /-- WICK_KILL (R324). KILL puts the wick in KILLING, and its outstanding operations complete without writing results. -/
  | wickKill (w : WickId)
  /-- ENGINE_RUN_SET (R326). Setting RUN empties the instruction buffer and starts issue, or is ignored if the code range is not VALID or is MEASURING. -/
  | engineRunSet (q : Quad) (e : EngineIx)
  /-- ENGINE_RUN_CLEAR (R324). Clearing RUN stops issue, while waiting wicks keep waiting and their operations complete. -/
  | engineRunClear (q : Quad) (e : EngineIx)
  /-- CODE_RANGE_VALIDATE (R325). Setting VALID of CS_RANGE starts the SHA3-256 measurement with MEASURING set, and locks the range. -/
  | codeRangeValidate (q : Quad) (m : Fin 16) (v : Word)
  /-- CODE_MEASURE_DONE (R325). The measurement ends; DIGEST is written, MEASURING clears and the entry is logged. -/
  | codeMeasureDone (q : Quad) (m : Fin 16)
  /-- CODE_RANGE_INVALIDATE (R325). Clearing VALID frees the range, or is ignored while an engine names it. -/
  | codeRangeInvalidate (q : Quad) (m : Fin 16) (v : Word)
  /-- LONG_OP_COMPLETE (R298). A long operation completes; it writes its destinations, clears pending bits, decrements OCc, frees its entry and tag, and wakes waiting wicks. -/
  | longOpComplete (q : Quad) (op : Nat)
  /-- YIELD_QUANTUM_EXPIRY (R295). A wick has issued YIELD_QUANTUM instructions without yielding, and is forced to yield. -/
  | yieldQuantumExpiry (w : WickId)
  /-- WAITT_EXPIRY (R319). Device time reaches the wick's WAITT target, and the wick resumes. -/
  | waittExpiry (w : WickId)
  /-- LANTERN_MSG_RX (R318). A BULK message for the cluster is queued for its engine and wick, or is dropped and counted in LX_MSG_DROP. -/
  | lanternMsgRx (q : Quad)
  /-- RESERVED_INSTRUCTION (R310). An instruction with a reserved CLASS or OP, or with bad fields, faults with ILLEGAL. -/
  | reservedInstruction (w : WickId) (bits : BitVec 128)
  /-- NOP (R312). ALU NOP does nothing. -/
  | nop (w : WickId) (f : Fields)
  /-- ADD (R312). s[D] := a + b. -/
  | add (w : WickId) (f : Fields)
  /-- SUB (R312). s[D] := a − b. -/
  | sub (w : WickId) (f : Fields)
  /-- MUL (R312). s[D] := the low 64 bits of a × b. -/
  | mul (w : WickId) (f : Fields)
  /-- MULHU (R312). s[D] := the unsigned high 64 bits of a × b. -/
  | mulhu (w : WickId) (f : Fields)
  /-- MULHS (R312). s[D] := the signed high 64 bits of a × b. -/
  | mulhs (w : WickId) (f : Fields)
  /-- AND (R312). Bitwise AND of a and b into s[D]. -/
  | and (w : WickId) (f : Fields)
  /-- OR (R312). Bitwise OR of a and b into s[D]. -/
  | or (w : WickId) (f : Fields)
  /-- XOR (R312). Bitwise XOR of a and b into s[D]. -/
  | xor (w : WickId) (f : Fields)
  /-- SHL (R312). Shift left by b mod 64. -/
  | shl (w : WickId) (f : Fields)
  /-- SHR (R312). Logical shift right by b mod 64. -/
  | shr (w : WickId) (f : Fields)
  /-- SAR (R312). Arithmetic shift right by b mod 64. -/
  | sar (w : WickId) (f : Fields)
  /-- MINS (R312). Signed minimum of a and b. -/
  | mins (w : WickId) (f : Fields)
  /-- MAXS (R312). Signed maximum of a and b. -/
  | maxs (w : WickId) (f : Fields)
  /-- MINU (R312). Unsigned minimum of a and b. -/
  | minu (w : WickId) (f : Fields)
  /-- MAXU (R312). Unsigned maximum of a and b. -/
  | maxu (w : WickId) (f : Fields)
  /-- MOVI (R312). s[D] := IMM64. -/
  | movi (w : WickId) (f : Fields)
  /-- CLZ (R312). s[D] := the leading zeros of a. -/
  | clz (w : WickId) (f : Fields)
  /-- POPC (R312). s[D] := the number of ones in a. -/
  | popc (w : WickId) (f : Fields)
  /-- CMP (R312). Sets a predicate to 0xFFFF or 0 by the compare condition of a and b. -/
  | cmp (w : WickId) (f : Fields)
  /-- PAND (R312). Predicate AND. -/
  | pand (w : WickId) (f : Fields)
  /-- POR (R312). Predicate OR. -/
  | por (w : WickId) (f : Fields)
  /-- PXOR (R312). Predicate XOR. -/
  | pxor (w : WickId) (f : Fields)
  /-- PMOV (R312). A predicate := a[15:0]. -/
  | pmov (w : WickId) (f : Fields)
  /-- SMOVP (R312). s[D] := a predicate, zero-extended. -/
  | smovp (w : WickId) (f : Fields)
  /-- BR (R312). PC := PC + IMM64. -/
  | br (w : WickId) (f : Fields)
  /-- JMP (R312). PC := (a + IMM64)[17:0]. -/
  | jmp (w : WickId) (f : Fields)
  /-- CALL (R312). s[D] := PC + 1 and PC := PC + IMM64. -/
  | call (w : WickId) (f : Fields)
  /-- VMOV (R313). Copies v[A] to v[D] in the enabled lanes. -/
  | vmov (w : WickId) (f : Fields)
  /-- VADD (R313). Lane-wise addition. -/
  | vadd (w : WickId) (f : Fields)
  /-- VSUB (R313). Lane-wise subtraction. -/
  | vsub (w : WickId) (f : Fields)
  /-- VMUL (R313). Lane-wise multiplication. -/
  | vmul (w : WickId) (f : Fields)
  /-- VFMA (R313). Lane-wise fused multiply-add with one rounding. -/
  | vfma (w : WickId) (f : Fields)
  /-- VFNMA (R313). Lane-wise negated fused multiply-add. -/
  | vfnma (w : WickId) (f : Fields)
  /-- VMIN (R313). Lane-wise minimum with −0 below +0. -/
  | vmin (w : WickId) (f : Fields)
  /-- VMAX (R313). Lane-wise maximum. -/
  | vmax (w : WickId) (f : Fields)
  /-- VDIV (R313). Lane-wise correctly rounded division. -/
  | vdiv (w : WickId) (f : Fields)
  /-- VSQRT (R313). Lane-wise correctly rounded square root. -/
  | vsqrt (w : WickId) (f : Fields)
  /-- VABS (R313). Clears the sign of each lane. -/
  | vabs (w : WickId) (f : Fields)
  /-- VNEG (R313). Inverts the sign of each lane. -/
  | vneg (w : WickId) (f : Fields)
  /-- VAND (R313). Lane-wise bitwise AND. -/
  | vand (w : WickId) (f : Fields)
  /-- VOR (R313). Lane-wise bitwise OR. -/
  | vor (w : WickId) (f : Fields)
  /-- VXOR (R313). Lane-wise bitwise XOR. -/
  | vxor (w : WickId) (f : Fields)
  /-- VBCAST (R313). Broadcasts s[A] to every enabled lane. -/
  | vbcast (w : WickId) (f : Fields)
  /-- VEXT (R313). Extracts one lane of v[A] into s[D]. -/
  | vext (w : WickId) (f : Fields)
  /-- VINS (R313). Inserts s[A] into one lane of v[D]. -/
  | vins (w : WickId) (f : Fields)
  /-- VIDX (R313). Lane i := s[A] + i. -/
  | vidx (w : WickId) (f : Fields)
  /-- VSUM (R313). Sums the enabled lanes in ascending order into s[D]. -/
  | vsum (w : WickId) (f : Fields)
  /-- VCMP (R313). Lane-wise compare into predicate bits. -/
  | vcmp (w : WickId) (f : Fields)
  /-- VSEL (R313). Selects v[A] or v[B] per lane by a predicate. -/
  | vsel (w : WickId) (f : Fields)
  /-- VCVT (R314). Converts between a wide lane type and any format, with RNE, RTZ or SR rounding and optional saturation. -/
  | vcvt (w : WickId) (f : Fields)
  /-- LDL (R315). Loads from LS. -/
  | ldl (w : WickId) (f : Fields)
  /-- STL (R315). Stores to LS. -/
  | stl (w : WickId) (f : Fields)
  /-- LDI (R315). Issues a long load from Ingot after the region checks. -/
  | ldi (w : WickId) (f : Fields)
  /-- STI (R315). Issues a long store to Ingot after the region checks. -/
  | sti (w : WickId) (f : Fields)
  /-- IGLD (R315). Issues a transfer from Ingot into LS. -/
  | igld (w : WickId) (f : Fields)
  /-- IGST (R315). Issues a transfer from LS to Ingot. -/
  | igst (w : WickId) (f : Fields)
  /-- ATOM (R316). Issues an Ingot atomic, with the operand pre-rounded for FADD_ALLOY. -/
  | atom (w : WickId) (f : Fields)
  /-- PWR (R316). Issues a mirror write as PEER_WR on the region's MIRROR_FIBER. -/
  | pwr (w : WickId) (f : Fields)
  /-- SEND (R317). Sends a BULK or MGT packet image from LS through the quadrant's table. -/
  | send (w : WickId) (f : Fields)
  /-- RECV (R318). Takes the oldest queued message into LS, or waits for one. -/
  | recv (w : WickId) (f : Fields)
  /-- CARB (R338). Posts the chunks of a reduce-and-broadcast after the issue checks of R330. -/
  | carb (w : WickId) (f : Fields)
  /-- CRED (R339). Posts the chunks of a reduce whose result is written to Ingot. -/
  | cred (w : WickId) (f : Fields)
  /-- CRSU (R348). Posts the chunks of a reduce-and-optimizer-step. -/
  | crsu (w : WickId) (f : Fields)
  /-- CBCS (R342). Posts the chunks of an acknowledged broadcast from Ingot, as REPAIR posts when MOD REPAIR is set. -/
  | cbcs (w : WickId) (f : Fields)
  /-- CGAT (R340). Posts the chunks of a gather into member windows. -/
  | cgat (w : WickId) (f : Fields)
  /-- CA2A (R344). Starts a timed series of route-set commits and a closing barrier. -/
  | ca2a (w : WickId) (f : Fields)
  /-- CBAR (R343). Posts one Beacon barrier chunk. -/
  | cbar (w : WickId) (f : Fields)
  /-- WAITCNT (R319). Waits until the selected counters are at most the limit. -/
  | waitcnt (w : WickId) (f : Fields)
  /-- WAITT (R319). Waits until device time reaches s[A]. -/
  | waitt (w : WickId) (f : Fields)
  /-- EVSIG (R319). Sets the event flag of the named wick, or is lost and counted. -/
  | evsig (w : WickId) (f : Fields)
  /-- EVWAIT (R319). Waits for EVFLAG and clears it. -/
  | evwait (w : WickId) (f : Fields)
  /-- YIELD (R319). Yields to the next ready wick. -/
  | yield (w : WickId) (f : Fields)
  /-- HALT (R319). Stops issue; the wick goes IDLE once its counters reach zero, optionally raising the Lantern interrupt. -/
  | halt (w : WickId) (f : Fields)
  /-- LPW (R320). Writes a route entry from LS, returning accepted or ignored. -/
  | lpw (w : WickId) (f : Fields)
  /-- LPC (R320). Requests a lightpath commit, optionally not earlier than s[A], and completes with its result code. -/
  | lpc (w : WickId) (f : Fields)
  /-- LPCAN (R320). Cancels a pending commit. -/
  | lpcan (w : WickId) (f : Fields)
  /-- LPST (R320). Returns LP_STATUS in s[D]. -/
  | lpst (w : WickId) (f : Fields)
  /-- HASH (R321). Absorbs LS bytes into the wick's SHA-3 state, optionally starting or finalising it. -/
  | hash (w : WickId) (f : Fields)
  /-- RAND (R321). Fills v[D] with four Philox4x32-10 blocks for the given key and counter. -/
  | rand (w : WickId) (f : Fields)
  /-- TIME (R321). Returns device time in ticks. -/
  | time (w : WickId) (f : Fields)
  /-- PERF (R473). Returns a cluster performance counter, or faults PRIV. -/
  | perf (w : WickId) (f : Fields)
  /-- TRAP (R321). Faults the wick with TRAP, recording s[A] and IMM16. -/
  | trap (w : WickId) (f : Fields)
  /-- RDWS (R321). Returns WSTAT. -/
  | rdws (w : WickId) (f : Fields)
  /-- CLRWS (R321). Clears the FP sticky flags. -/
  | clrws (w : WickId) (f : Fields)
  /-- MEM_REQ_SERVICE (R371). The request at the head of the memory service queue is checked, then answered with an error, combined, or issued to its stack with a tag. -/
  | memReqService (q : Quad)
  /-- COMBINE_WINDOW_EXPIRY (R380). COMBINE_WINDOW cycles pass for an atomic entry, or it reaches 64 members, and its single fetch-add is issued. -/
  | combineWindowExpiry (q : Quad) (id : Nat)
  /-- PEER_WR_RX (R386). A PEER_WR is checked against the home quadrant, the region, the role and MIRROR_FIBER, then applied or refused with PEER_ACK. -/
  | peerWrRx (q : Quad)
  /-- PEER_ACK_RX (R355). A PEER_ACK returns to the unit that sent the PEER_WR, completing the PWR or mirror write, or giving MIRROR_FAIL. -/
  | peerAckRx (q : Quad)
  /-- STACK_ACCESS_DONE (R373). A stack access completes; data is corrected or reported uncorrectable, and the response, window completion or write-back follows. -/
  | stackAccessDone (n : StackIx) (acc : Nat) (errs : List SymErr)
  /-- RETIRE_COPY_DONE (R368). A page copy completes; the page address is redirected to the spare and the held accesses are released. -/
  | retireCopyDone (n : StackIx) (page : BitVec 25)
  /-- SCRUB_READ (R370). The scrubber reads a line in a free bank cycle and writes back a corrected line, or logs an uncorrectable one. -/
  | scrubRead (n : StackIx) (line : Nat) (errs : List SymErr)
  /-- IG_RETIRE_WRITE (R369). A page written to IG_RETIRE is retired at once while a spare is left, or refused. -/
  | igRetireWrite (n : StackIx) (v : Word)
  /-- STACK_DIE_MARK_WRITE (R369). Firmware writes DIE_MARKED and MARK_DIE to restore a die mark. -/
  | stackDieMarkWrite (n : StackIx) (v : Word)
  /-- STACK_OFFLINE_SET (R390). Setting OFFLINE ends every incomplete access with STACK_OFFLINE and takes the stack to DRAINING, or holds the bit in TRAINING. -/
  | stackOfflineSet (n : StackIx)
  /-- STACK_OFFLINE_CLEAR (R390). Clearing OFFLINE returns the stack to ONLINE, at once in OFFLINE or after the drain in DRAINING. -/
  | stackOfflineClear (n : StackIx)
  /-- STACK_DRAINED (R389). No access remains in progress on a DRAINING stack, and it enters OFFLINE. -/
  | stackDrained (n : StackIx)
  /-- STACK_TRAINING_DONE (R389). A stack finishes training after a warm or unit reset and waits, HELD, for release. -/
  | stackTrainingDone (n : StackIx)
  /-- REGION_WRITE (R307). A write to RGN word 0 applies the staged words, or is rejected with REJ_CAUSE and logged. -/
  | regionWrite (r : RegionIx) (v : Word)
  /-- ROLE_WRITE (R388). A write to RGN_MEM takes effect on all quadrants in one cycle, changing ROLE or EFENCE, and is logged. -/
  | roleWrite (r : RegionIx) (v : Word)
  /-- TAG_POOL_APPLY (R377). A new MS_TAGS or LX_TAGS value is applied once no tag of that pool is in use. -/
  | tagPoolApply (q : Quad) (lantern : Bool)
  /-- TIME_SET (R405). A write to SET_HI sets absolute device time at the next apply tick, and puts a running servo in ACQUIRE. -/
  | timeSet (v : Word)
  /-- TIME_STEP (R405). A write to the high word of TIME_STEP steps OFFSET at the next apply tick. -/
  | timeStep (v : Word)
  /-- TIME_RSET (R405). A write of the rate is applied at the next apply tick unless the servo runs. -/
  | timeRset (v : Word)
  /-- TIME_APPLY (R395). At apply tick La every die folds the elapsed rate into OFFSET and takes the new rate, step or set. -/
  | timeApply
  /-- SYNC_RX (R400). A slave receives SYNC and sends DELAY_REQ naming its next transmit period. -/
  | syncRx (k : LinkIx) (m : TimeMsg)
  /-- FOLLOW_UP_RX (R401). The slave records t1 and the master's CORR for the exchange. -/
  | followUpRx (k : LinkIx) (m : TimeMsg)
  /-- DELAY_REQ_RX (R400). The master answers with DELAY_RESP carrying t4 within 2 µs of the named period. -/
  | delayReqRx (k : LinkIx) (m : TimeMsg)
  /-- DELAY_RESP_RX (R401). The slave forms the exchange; a valid one sets RTT_EST, feeds the servo and sends PATH. -/
  | delayRespRx (k : LinkIx) (m : TimeMsg)
  /-- PATH_RX (R402). The master sets RTT_EST to 2 × MPD. -/
  | pathRx (k : LinkIx) (m : TimeMsg)
  /-- HOLDOVER_TIMEOUT (R406). LAST_VALID_AGE exceeds the holdover limit, and the servo enters HOLDOVER. -/
  | holdoverTimeout
  /-- SERVO_SRC_WRITE (R406). A write to SERVO_SRC discards the exchange in progress and puts the servo in HOLDOVER. -/
  | servoSrcWrite (v : Word)
  /-- SERVO_EN_WRITE (R403). Setting SERVO_EN loads integ with the current RATE. -/
  | servoEnWrite (v : Word)
  /-- TIME_READ_LATCH (R393). A read of TIME_READ_FRAC latches D, L, OFFSET and RATE on one tick. -/
  | timeReadLatch
  /-- AGE_READ_LATCH (R406). A read of the low word of LAST_VALID_AGE latches its value. -/
  | ageReadLatch
  /-- TQ_TX_SEND (R407). A write to TQ_TX_CTL sends the staged time record, optionally stamped, or is ignored while TX_BUSY. -/
  | tqTxSend (q : Quad) (v : Word)
  /-- TQ_TX_SENT (R408). The record has left in a CTRL flit, and TX_BUSY clears. -/
  | tqTxSent (q : Quad)
  /-- TIME_QUEUE_CI_WRITE (R408). A write to TSQ_CI or TRX_CI frees entries, under the rules of R188. -/
  | timeQueueCiWrite (q : Quad) (trx : Bool) (v : Word)
  /-- SIDEBAND_FRAME_RX (R414). A sideband frame with a good CRC is taken, and flags that have held for 8 frames take effect. -/
  | sidebandFrameRx (frame : List Byte)
  /-- SIDEBAND_FRAME_MISSED (R414). A frame is missing or fails its CRC; after 8 in a row, SB_LOST is set and PERST_N is taken as 0. -/
  | sidebandFrameMissed
  /-- SIDEBAND_FRAME_TX (R413). Every 1 µs the device sends a sideband frame with WAKE, DEV_READY, PWR_OK, FAULT and BOOT_STAGE. -/
  | sidebandFrameTx
  /-- FUNCTION_LEVEL_RESET (R415). A Function Level Reset resets the host interface unit as PERST_N does. -/
  | functionLevelReset
  /-- ENDPOINT_CONFIG_READY (R415). After PERST_N returns to 1, the endpoint answers configuration requests and sets DEV_READY. -/
  | endpointConfigReady
  /-- PCIE_LINK_UP (R443). The PCIe link reaches L0, and the event is logged. -/
  | pcieLinkUp
  /-- PCIE_LINK_DOWN (R514). The PCIe link goes down; unfinished reads get no completion, and the event is logged. -/
  | pcieLinkDown
  /-- S0_RECOVERY_TIMEOUT (R412). A lost S0 lane is not verified within 2 ms of Recovery, and the link goes down and retrains. -/
  | s0RecoveryTimeout
  /-- REG_WRITE (R18). A write to a register with no row of its own updates its RW fields, or is ignored at an undefined offset or bad access. -/
  | regWrite (addr : BarAddr) (acc : BarAccess)
  /-- ALIAS_SET_WRITE (R422). A write to the SET alias ORs the value into the register's RW fields. -/
  | aliasSetWrite (addr : BarAddr) (v : Word)
  /-- ALIAS_CLR_WRITE (R422). A write to the CLR alias clears the written bits of the RW fields. -/
  | aliasClrWrite (addr : BarAddr) (v : Word)
  /-- ALIAS_TGL_WRITE (R422). A write to the TGL alias inverts the written bits of the RW fields. -/
  | aliasTglWrite (addr : BarAddr) (v : Word)
  /-- SQ_CLEAR_WRITE (R426). A write to a register with an SQ flag clears the flag only if the written flag is 1 and the sequence matches. -/
  | sqClearWrite (addr : BarAddr) (v : Word)
  /-- SNAP_WRITE (R427). A write of 1 to a block's SNAP copies every statistics counter of the block into its holding registers on one edge. -/
  | snapWrite (addr : BarAddr) (v : Word)
  /-- STAGED_WORD_WRITE (R511). A write to a staged word changes only its staged value. -/
  | stagedWordWrite (addr : BarAddr) (v : Word)
  /-- WIN_APPLY (R428). A write to WIN word 0 applies the staged base and sets EN for later BAR2 accesses. -/
  | winApply (n : Fin 16) (v : Word)
  /-- WINDOW_READ (R428). A BAR2 read is steered to Ingot through its aperture as requester 4, or returns all ones by R429. -/
  | windowRead (x : Nat) (len : Nat)
  /-- WINDOW_WRITE (R428). A BAR2 write is steered to Ingot through its aperture, or is discarded by R429. -/
  | windowWrite (x : Nat) (bytes : List (Option Byte))
  /-- WINDOW_ATOMIC (R431). A BAR2 AtomicOp is performed as an uncombined FADD, SWAP or CAS. -/
  | windowAtomic (x : Nat) (op : BusAtomic) (a : DWord) (b : DWord) (wide : Bool)
  /-- DMA_ENABLE (R432). Setting EN starts the engine processing descriptors while HEAD differs from TAIL, and clears ERR_HALT. -/
  | dmaEnable (q : Quad) (e : Fin 8)
  /-- DMA_DISABLE (R435). Clearing EN stops the engine after the descriptor in progress. -/
  | dmaDisable (q : Quad) (e : Fin 8)
  /-- DMA_TAIL_WRITE (R432). The host advances TAIL, and writes placing it too far ahead are ignored. -/
  | dmaTailWrite (q : Quad) (e : Fin 8) (v : Word)
  /-- DMA_DESC_FETCH (R432). The engine reads the next descriptor from the host ring, checks it and starts moving its data. -/
  | dmaDescFetch (q : Quad) (e : Fin 8) (desc : List Byte)
  /-- DMA_DESC_COMPLETE (R433). A descriptor's data has arrived; its status and DONE are written, HEAD advances, and the interrupt is raised or the engine halts on error. -/
  | dmaDescComplete (q : Quad) (e : Fin 8) (hostData : List Byte) (hostErr : Bool)
  /-- RS_KEY_WRITE (R438). The host writes the key of an EMPTY result slot. -/
  | rsKeyWrite (n : RsIx) (word : Fin 4) (v : Word)
  /-- RS_ARM (R439). An ARM write with the matching GEN takes an EMPTY slot to PENDING, and is counted in RS_ARM_ERR otherwise. -/
  | rsArm (n : RsIx) (v : Word)
  /-- RS_RELEASE (R441). RELEASE with the current GEN returns the slot to EMPTY and increments GEN, and is counted in RS_REL_ERR otherwise. -/
  | rsRelease (n : RsIx) (v : Word)
  /-- MSIX_VECTOR_UNMASK (R436). Unmasking a vector with its PBA bit set sends one pending MSI-X message. -/
  | msixVectorUnmask (n : Fin 2048)
  /-- PMC_RUN_WRITE (R472). Writing RUN starts or stops all eight counters of a unit on one edge. -/
  | pmcRunWrite (q : Quad) (u : Fin 48) (run : Bool)
  /-- PMC_GRUN_WRITE (R472). Writing GRUN starts or stops every counter of the device on one CLK_CORE edge. -/
  | pmcGrunWrite (run : Bool)
  /-- MON_SNAP (R478). MON_SNAP copies the monitor's values into its holding registers, restarting it with CLR_ON_SNAP. -/
  | monSnap (q : Quad) (m : Fin 16)
  /-- MON_RECONFIG (R478). A write to MON_CFG, MON_BASE or MON_WIDTH restarts the monitor. -/
  | monReconfig (q : Quad) (m : Fin 16) (reg : MonReg) (v : Word)
  /-- MON_SAMPLE (R476). Every PERIOD µs a level monitor samples its source and updates its statistics. -/
  | monSample (q : Quad) (m : Fin 16) (value : Nat)
  /-- LOG_ENTRY_WRITE (R481). The service die claims, writes and publishes one Ember entry from its own events or the rotating quadrant queues. -/
  | logEntryWrite
  /-- LOG_LOST_ENTRY (R481). Once space or queue room returns, one LOG_LOST entry gives the number of events lost. -/
  | logLostEntry (origin : Fin 5)
  /-- LOG_CI_WRITE (R482). A write to LOG_CI frees entries, or is ignored if out of range. -/
  | logCiWrite (v : Word)
  /-- TABLE_PARITY_ERR (R487). A parity error in a quadrant copy of a device table starts its repair from the master; one in the master is a DEVICE fault. -/
  | tableParityErr (tbl : DevTable) (entry : Nat) (loc : TableCopy)
  /-- TABLE_REPAIR_DONE (R487). The quadrant copy is repaired, TABLE_REPAIR is logged, and the waiting accesses proceed. -/
  | tableRepairDone
  /-- QUAD_STATE_ERR (R488). A parity error in core allocation state stops the quadrant's ingress, and the service die performs a QUAD HOLD. -/
  | quadStateErr (q : Quad) (code : Byte)
  /-- RING_HOLD (R90). While THERMAL_SLEW is set, a ring whose dither error rises above 20 GHz enters HOLD, its light is muted, and its lane is lost. -/
  | ringHold (r : RingRef) (err : BitVec 16)
  /-- LANE_TRAIN_DONE (R59). A lane of a link that is already UP completes equaliser adaptation and codeword lock, and is brought into the map by a switch row. -/
  | laneTrainDone (f : FiberIx) (slot : Slot)
  /-- PC_RANGE (R303). A wick's next fetch lies at or beyond the LIMIT of its code range, and the wick faults with PC_RANGE. -/
  | pcRange (w : WickId)
  /-- WAIT_IMAGE (R451). The boot ROM leaves S0_TRAIN, opens the BAR4 staging window and starts the HOST_WAIT count. -/
  | waitImage
  /-- POWER_MANAGEMENT_STATE (R417). A host configuration write moves the function between D0 and D3hot; in D3hot BAR accesses complete as Unsupported Request and the DMA engines stop after their current descriptor. -/
  | powerManagementState (d3hot : Bool)
  deriving DecidableEq, Repr

end Sys2Proof
end

