-- ==== Sys2Proof/Decode.lean ====
section
/-!
DEFINITION. The command that a word spells by the opcode table's bits.  The table of this device gives no row any bits (its
commands are register writes, packets, frames and events, which reach the block as commands), so no word spells a command.
-/
namespace Sys2Proof

/-- The command spelt by a word: none, since no row of the table gives bits. -/
def decodeTableWord (_nbits _w : Nat) : Option Instr := none

end Sys2Proof
end

