-- ==== Sys2Proof/Machine/Bits.lean ====
section
/-!
DEFINITION. Bit fields, byte order and sign helpers: fields are numbered with bit 0 the least significant (R20); the
multi-byte fields of packets, records and images are little-endian as their formats state.
-/
namespace Sys2Proof

/-- The field `[hi:lo]` of a register (R20). -/
def fld (w : Word) (hi lo : Nat) : Nat := (w.toNat >>> lo) % 2 ^ (hi + 1 - lo)

/-- One bit of a register as a truth value. -/
def flag (w : Word) (b : Nat) : Bool := fld w b b == 1

/-- `w` with the field `[hi:lo]` replaced by `v` (taken modulo the field's width). -/
def setFld (w : Word) (hi lo v : Nat) : Word :=
  BitVec.ofNat 32 (w.toNat % 2 ^ lo + (v % 2 ^ (hi + 1 - lo)) * 2 ^ lo + (w.toNat >>> (hi + 1)) * 2 ^ (hi + 1))

/-- The mask of the field `[hi:lo]`. -/
def fldMask (hi lo : Nat) : Word := setFld 0 hi lo (2 ^ (hi + 1 - lo) - 1)

/-- The low `n` bits of a number. -/
def lowBits (x n : Nat) : Nat := x % 2 ^ n

/-- Bits `[hi:lo]` of a number. -/
def bitsOf (x hi lo : Nat) : Nat := (x >>> lo) % 2 ^ (hi + 1 - lo)

/-- Truth value as a bit. -/
def b2n (b : Bool) : Nat := if b then 1 else 0

/-- `n` bytes of `x`, least significant first. -/
def leBytes : Nat → Nat → List Byte
  | 0, _ => []
  | n + 1, x => BitVec.ofNat 8 x :: leBytes n (x / 256)

/-- The number a byte list holds, least significant byte first. -/
def leNat : List Byte → Nat
  | [] => 0
  | b :: bs => b.toNat + 256 * leNat bs

/-- Byte `i` of a byte list, zero past its end. -/
def byteAt (bs : List Byte) (i : Nat) : Nat := (bs.getD i 0).toNat

/-- The little-endian field of `n` bytes at offset `i`. -/
def leAt (bs : List Byte) (i n : Nat) : Nat := leNat ((bs.drop i).take n)

/-- A byte list with `new` written over the bytes from offset `i` on (within its length). -/
def putBytes (bs : List Byte) (i : Nat) (new : List Byte) : List Byte :=
  (bs.take i ++ new ++ bs.drop (i + new.length)).take bs.length

/-- `n` zero bytes. -/
def zeroBytes (n : Nat) : List Byte := List.replicate n 0

/-- A byte list cut or zero-filled to length `n`. -/
def padTo (n : Nat) (bs : List Byte) : List Byte := bs.take n ++ zeroBytes (n - bs.length)

/-- The signed value of the low `n` bits of `x`. -/
def toSigned (n x : Nat) : Int :=
  let y := x % 2 ^ n
  if 2 * y < 2 ^ n then (y : Int) else (y : Int) - 2 ^ n

/-- The `n`-bit two's complement pattern of an integer. -/
def ofSigned (n : Nat) (i : Int) : Nat := (i % (2 ^ n : Int)).toNat

/-- An integer held within `[lo, hi]`. -/
def clampInt (lo hi i : Int) : Int := if i < lo then lo else if hi < i then hi else i

/-- Number of bits needed to write `x`: 0 for 0. -/
def bitLength (x : Nat) : Nat := if x = 0 then 0 else Nat.log2 x + 1

/-- Bytes cut into groups of `n`; the number of groups is bounded by `fuel`. -/
def chunksOf (n : Nat) : Nat → List Byte → List (List Byte)
  | 0, _ => []
  | _ + 1, [] => []
  | fuel + 1, bs => bs.take n :: chunksOf n fuel (bs.drop n)

/-- Replaces element `i` of a list, where it has one. -/
def listSet {α : Type} : List α → Nat → α → List α
  | [], _, _ => []
  | _ :: xs, 0, y => y :: xs
  | x :: xs, i + 1, y => x :: listSet xs i y

/-- A register file of `n` registers with register `i` replaced; registers a list lacks read `d`. -/
def listPut {α : Type} (n : Nat) (d : α) (xs : List α) (i : Nat) (y : α) : List α :=
  (List.range n).map (fun j => if j = i then y else xs.getD j d)

/-- Removes the first element that satisfies `p`. -/
def eraseFirst {α : Type} (p : α → Bool) : List α → List α
  | [] => []
  | x :: xs => if p x then xs else x :: eraseFirst p xs

/-- Applies `f` to the first element that satisfies `p`. -/
def modifyFirst {α : Type} (p : α → Bool) (f : α → α) : List α → List α
  | [] => []
  | x :: xs => if p x then f x :: xs else x :: modifyFirst p f xs

end Sys2Proof
end

