-- ==== Sys2Proof/Machine/Alloy.lean ====
section
/-!
DEFINITION. The arithmetic of the Alloy units as pure functions: formats, the grid, keys, identities, result conversion and
ALLOY markers (R222 to R227, R233 to R246), and Philox4x32-10 (R356).
-/
namespace Sys2Proof.Machine

/-! ### Formats (R222) -/

/-- Width in bits of an element of a format code; 0 for the codes without elements. -/
def fmtBits (f : Nat) : Nat :=
  if f = 0 then 64 else if f = 1 || f = 7 then 32 else if f = 2 || f = 3 || f = 8 then 16
  else if f = 4 || f = 5 || f = 9 then 8 else if f = 6 then 4 else 0

/-- Is the code a floating-point format (0x0 to 0x6)? -/
def fmtFloat (f : Nat) : Bool := f ≤ 6
/-- Is the code an integer format (0x7 to 0x9)? -/
def fmtInt (f : Nat) : Bool := f = 7 || f = 8 || f = 9

/-- Mantissa bits p of a floating-point format. -/
def fmtMant (f : Nat) : Nat :=
  if f = 0 then 52 else if f = 1 then 23 else if f = 2 then 7 else if f = 3 then 10 else if f = 4 then 3
  else if f = 5 then 2 else 1

/-- Bias b of a floating-point format. -/
def fmtBias (f : Nat) : Int :=
  if f = 0 then 1023 else if f = 1 || f = 2 then 127 else if f = 3 || f = 5 then 15 else if f = 4 then 7 else 1

/-- Exponent bits of a floating-point format. -/
def fmtExp (f : Nat) : Nat := fmtBits f - 1 - fmtMant f

/-- emin = 1 − b. -/
def fmtEmin (f : Nat) : Int := 1 - fmtBias f

/-- Does the format have infinities? -/
def fmtHasInf (f : Nat) : Bool := f ≠ 4 && f ≠ 6

/-- The bit pattern of the largest finite value. -/
def fmtMaxBits (f : Nat) : Nat :=
  if f = 4 then 0x7E else if f = 6 then 7 else (2 ^ fmtExp f - 1) * 2 ^ fmtMant f - 1

/-- The bit pattern of +∞, in a format that has it. -/
def fmtInfBits (f : Nat) : Nat := (2 ^ fmtExp f - 1) * 2 ^ fmtMant f

/-- The canonical quiet NaN (R242); FP4 has none, and the value of its place is open (R222). -/
def fmtNaN (f : Nat) : Option Nat :=
  if f = 6 then none else if f = 4 then some 0x7F else some (fmtInfBits f + 2 ^ (fmtMant f - 1))

/-- The sign bit of a format's pattern. -/
def fmtSign (f : Nat) : Nat := 2 ^ (fmtBits f - 1)

/-- The value of a floating-point element (R223): NaN, infinity, zero, or (−1)^s · M · 2^k with M > 0. -/
inductive FVal where
  | nan
  | inf (neg : Bool)
  | zero (neg : Bool)
  | fin (neg : Bool) (m : Nat) (k : Int)
  deriving DecidableEq, Repr

/-- The value of the bits of a floating-point element; `scale` is X − 127 of an FP4 group, else 0 (R223). -/
def fpDecode (f bits : Nat) (scale : Int) : FVal :=
  let p := fmtMant f
  let neg := bits / 2 ^ (fmtBits f - 1) % 2 == 1
  let e := bits / 2 ^ p % 2 ^ fmtExp f
  let m := bits % 2 ^ p
  let top := e == 2 ^ fmtExp f - 1
  if fmtHasInf f && top then (if m = 0 then .inf neg else .nan)
  else if f = 4 && top && m = 7 then .nan
  else if e = 0 then (if m = 0 then .zero neg else .fin neg m (fmtEmin f - p + scale))
  else .fin neg (2 ^ p + m) ((e : Int) - fmtBias f - p + scale)

/-- The ceiling exponent of M · 2^k (R223). -/
def ceilExp (m : Nat) (k : Int) : Int := bitLength m + k

/-! ### The grid (R225 to R227) -/

/-- F of an accumulator width (R225). -/
def gridF (acc64 : Bool) : Nat := if acc64 then 43 else 11
/-- W of an accumulator width (R225). -/
def accW (acc64 : Bool) : Nat := if acc64 then 64 else 32

/-- The rounded grid integer of (−1)^neg · M · 2^k on anchor A with F fraction bits, and whether it fits (R226). -/
def gridRound (F : Nat) (a : Int) (neg : Bool) (m : Nat) (k : Int) : Int × Bool :=
  let n := k + F - a
  let mag :=
    if 0 ≤ n then m * 2 ^ n.toNat
    else
      let r := (-n).toNat
      let q := m / 2 ^ r
      let rest := m % 2 ^ r
      let half := 2 ^ (r - 1)
      if half < rest || (rest == half && q % 2 == 1) then q + 1 else q
  (if neg then -(mag : Int) else mag, decide (mag ≤ 2 ^ F - 1))

/-! ### Keys (R236, R237) -/

/-- The comparison key of an element's bits (R236). -/
def orderKey (f bits : Nat) : Nat :=
  let w := fmtBits f
  let b := bits % 2 ^ w
  if fmtInt f then b ^^^ 2 ^ (w - 1)
  else if b < 2 ^ (w - 1) then b + 2 ^ (w - 1) else 2 ^ w - 1 - b

/-- The element whose key is given. -/
def keyBits (f key : Nat) : Nat :=
  let w := fmtBits f
  let k := key % 2 ^ w
  if fmtInt f then k ^^^ 2 ^ (w - 1)
  else if 2 ^ (w - 1) ≤ k then k - 2 ^ (w - 1) else 2 ^ w - 1 - k

/-- Is the element's bit pattern a NaN? -/
def isNaN (f bits : Nat) : Bool := fmtFloat f && fpDecode f bits 0 == .nan

/-- Operation codes (R126, R234). -/
def opSum : Nat := 0
def opMin : Nat := 1
def opMax : Nat := 2
def opAnd : Nat := 3
def opOr : Nat := 4
def opXor : Nat := 5
def opArgMax : Nat := 6
def opArgMin : Nat := 7

/-- The largest value MIN starts from, and the smallest MAX starts from (R239): ±∞ where the format has them. -/
def fmtTop (f : Nat) : Nat :=
  if fmtInt f then 2 ^ (fmtBits f - 1) - 1 else if fmtHasInf f then fmtInfBits f else fmtMaxBits f
def fmtBottom (f : Nat) : Nat :=
  if fmtInt f then 2 ^ (fmtBits f - 1)
  else fmtSign f + (if fmtHasInf f then fmtInfBits f else fmtMaxBits f)

/-- The result of an element that no contribution covers, for every operation but SUM (R239); argument operations give the
value in the low 32 bits and the index in the high. -/
def opIdentity (op f : Nat) : Nat :=
  if op = opAnd then 2 ^ fmtBits f - 1
  else if op = opMin then fmtTop f
  else if op = opMax then fmtBottom f
  else if op = opArgMax then fmtBottom f + 0xFFFFFFFF * 2 ^ 32
  else if op = opArgMin then fmtTop f + 0xFFFFFFFF * 2 ^ 32
  else 0

/-- The accumulator an element takes part with in an operation other than SUM: a key, a pair key, or its bits
(R236 to R238). -/
def opEnter (op f v idx : Nat) : Nat :=
  if op = opMin || op = opMax then orderKey f v
  else if op = opArgMax then orderKey f v * 2 ^ 32 + (2 ^ 32 - 1 - idx % 2 ^ 32)
  else if op = opArgMin then orderKey f v * 2 ^ 32 + idx % 2 ^ 32
  else v

/-- Joins two accumulators of an operation other than SUM. -/
def opJoin (op a b : Nat) : Nat :=
  if op = opMin || op = opArgMin then min a b
  else if op = opMax || op = opArgMax then max a b
  else if op = opAnd then a &&& b
  else if op = opOr then a ||| b
  else a ^^^ b

/-- The result an accumulator of an operation other than SUM holds (R236 to R238). -/
def opLeave (op f acc : Nat) : Nat :=
  if op = opMin || op = opMax then keyBits f acc
  else if op = opArgMax then keyBits f (acc / 2 ^ 32) + (2 ^ 32 - 1 - acc % 2 ^ 32) * 2 ^ 32
  else if op = opArgMin then keyBits f (acc / 2 ^ 32) + acc % 2 ^ 32 * 2 ^ 32
  else acc

/-- The order code of an operation as R126 numbers it is in `OP`; 8 to 15 are reserved (R234). -/
def opReserved (op : Nat) : Bool := 8 ≤ op

/-! ### R234 -/

/-- Does the row of R234's table for a native format allow OP, ACC, POLICY (0 STATIC, 1 SCOUT) and RFMT? -/
def opAllowed (op f : Nat) (acc64 : Bool) (policy rfmt : Nat) : Bool :=
  if op = opSum then
    if f ≤ 6 then policy ≤ 1 && (rfmt ≤ 5 || (rfmt = 0xA && !acc64) || (rfmt = 0xB && acc64))
    else if f = 9 then policy = 0 && (rfmt = 9 || (rfmt = 0xA && !acc64) || (rfmt = 0xB && acc64))
    else if f = 7 || f = 8 then acc64 && policy = 0 && (rfmt = f || rfmt = 0xB)
    else false
  else if op = opMin || op = opMax then
    policy = 0 && rfmt = f && (((1 ≤ f && f ≤ 5) || fmtInt f) || (f = 0 && acc64))
  else if op = opAnd || op = opOr || op = opXor then policy = 0 && rfmt = f && fmtInt f
  else if op = opArgMax || op = opArgMin then
    policy = 0 && rfmt = f && acc64 && ((1 ≤ f && f ≤ 3) || fmtInt f)
  else false

/-! ### Result conversion (R240 to R243) -/

/-- R241: is the kept magnitude `m` rounded up, with `rest` the dropped bits of which there are `r`?  RMODE 0 RNE, 1 RTZ,
2 SR; `word` is the element's random word. -/
def roundUp (rmode word m rest r : Nat) : Bool :=
  if rmode = 0 then 2 ^ (r - 1) < rest || (rest == 2 ^ (r - 1) && m % 2 == 1)
  else if rmode = 1 then false
  else word < (if r ≤ 32 then rest * 2 ^ (32 - r) else rest / 2 ^ (r - 32))

/-- What a conversion gives: the bits (none where the spec states no value), and whether it overflowed (R242) or rounded up. -/
structure Conv where
  bits : Option Nat
  ovf : Bool
  up : Bool
  /-- The result is not the exact value. -/
  inexact : Bool
  /-- The result is subnormal or zero. -/
  tiny : Bool
  deriving DecidableEq, Repr

/-- A result with sign and magnitude bits. -/
def signed (f : Nat) (neg : Bool) (mag : Nat) : Nat := if neg then fmtSign f + mag else mag

/-- Is m · 2^ue above the format's largest finite value? -/
def aboveMax (f m : Nat) (ue : Int) : Bool :=
  match fpDecode f (fmtMaxBits f) 0 with
  | .fin _ tm tk =>
    let base := min ue tk
    tm * 2 ^ (tk - base).toNat < m * 2 ^ (ue - base).toNat
  | _ => false

/-- The overflow result (R242): ±∞ under RNE, the largest finite value under RTZ and SR, in a format without infinity, and
with `sat`. -/
def overflowBits (f rmode : Nat) (sat neg : Bool) : Nat :=
  signed f neg (if rmode = 0 && fmtHasInf f && !sat then fmtInfBits f else fmtMaxBits f)

/-- Converts (−1)^neg · mag · 2^k, mag > 0, to a floating-point format (R240). -/
def fpRound (f rmode word : Nat) (sat neg : Bool) (mag : Nat) (k : Int) : Conv :=
  let p := fmtMant f
  let e : Int := (bitLength mag : Int) - 1 + k
  let ue := max e (fmtEmin f) - p
  let r := ue - k
  let rest := if r ≤ 0 then 0 else mag % 2 ^ r.toNat
  let kept := if r ≤ 0 then mag * 2 ^ (-r).toNat else mag / 2 ^ r.toNat
  let up := 0 < r && roundUp rmode word kept rest r.toNat
  let m := if up then kept + 1 else kept
  let (m, ue) := if m = 2 ^ (p + 1) then (2 ^ p, ue + 1) else (m, ue)
  let inexact := rest != 0
  if aboveMax f m ue then ⟨some (overflowBits f rmode sat neg), true, up, true, false⟩
  else if 2 ^ p ≤ m then ⟨some (signed f neg ((ue + p + fmtBias f).toNat * 2 ^ p + (m - 2 ^ p))), false, up, inexact, false⟩
  else ⟨some (signed f neg m), false, up, inexact, true⟩

/-- A NaN result (R242). -/
def nanConv (f : Nat) : Conv := ⟨fmtNaN f, false, false, false, false⟩

/-- An infinite result (R242): the NaN in E4M3; FP4 has neither, and its value is open.  With `sat`, the largest finite
value (R314). -/
def infConv (f : Nat) (sat neg : Bool) : Conv :=
  if sat then ⟨some (signed f neg (fmtMaxBits f)), false, false, false, false⟩
  else ⟨if fmtHasInf f then some (signed f neg (fmtInfBits f)) else if f = 4 then some 0x7F else none, false, false, false, false⟩

/-- Converts the exact sum of an integer SUM to its format (R235). -/
def intConv (f : Nat) (sat : Bool) (x : Int) : Nat :=
  let w := fmtBits f
  ofSigned w (if sat then clampInt (-(2 ^ (w - 1) : Int)) (2 ^ (w - 1) - 1) x else x)

/-- Converts a SUM accumulator S of a block with anchor A to a native result format (R240). -/
def sumConv (f rmode word : Nat) (sat acc64 : Bool) (a s : Int) : Conv :=
  if fmtInt f then ⟨some (intConv f sat s), false, false, false, false⟩
  else if s = 0 then ⟨some 0, false, false, false, false⟩
  else fpRound f rmode word false (s < 0) s.natAbs (a - gridF acc64)

/-! ### Special codes and markers (R233, R244) -/

/-- The special code bits of an element: 1 NAN, 2 PINF, 4 NINF. -/
def spNan : Nat := 1
def spPinf : Nat := 2
def spNinf : Nat := 4

/-- The special result a code decides (R233): none, or NaN, +∞, −∞ as a value. -/
def spResult (c : Nat) : Option FVal :=
  if c = 0 then none
  else if c % 2 == 1 || c / 2 == 3 then some .nan
  else if c == 2 then some (.inf false)
  else some (.inf true)

/-- The marker word of a special result (R244). -/
def spMarker (w : Nat) : FVal → Nat
  | .nan => 2 ^ (w - 1)
  | .inf false => 2 ^ (w - 1) - 1
  | .inf true => 2 ^ (w - 1) + 1
  | _ => 0

/-- The special code a partial's word marks; none for a word that is a sum (R244). -/
def markerCode (w word : Nat) : Option Nat :=
  if word = 2 ^ (w - 1) then some spNan
  else if word = 2 ^ (w - 1) - 1 then some spPinf
  else if word = 2 ^ (w - 1) + 1 then some spNinf
  else none

/-! ### Payloads (R224) -/

/-- Elements of a full native packet: pairs for the argument operations. -/
def fmtPerPacket (op f : Nat) : Nat :=
  if op = opArgMax || op = opArgMin then 512
  else if f = 6 then 7680 else if fmtBits f = 0 then 0 else 32768 / fmtBits f

/-- Bytes of a native payload of `n` elements. -/
def fmtBytes (op f n : Nat) : Nat :=
  if op = opArgMax || op = opArgMin then 8 * n else if f = 6 then 240 + (n + 1) / 2 else n * fmtBits f / 8

/-- Element i of a native payload: its bits (value and index of a pair), and X of its FP4 group, 127 otherwise. -/
def elemAt (op f : Nat) (payload : List Byte) (i : Nat) : Nat × Nat :=
  if op = opArgMax || op = opArgMin then (leAt payload (8 * i) 8, 127)
  else if f = 6 then ((byteAt payload (240 + i / 2)) / (if i % 2 == 0 then 1 else 16) % 16, byteAt payload (i / 32))
  else (leAt payload (i * (fmtBits f / 8)) (fmtBits f / 8), 127)

/-- Does a payload of the given length hold element i? -/
def elemPresent (op f len i : Nat) : Bool := fmtBytes op f (i + 1) ≤ len || (f = 6 && 240 + i / 2 < len)

/-- Lays elements out as a native payload (R224); FP4 is never a result format. -/
def elemBytes (op f v : Nat) : List Byte :=
  if op = opArgMax || op = opArgMin then leBytes 8 v else leBytes (fmtBits f / 8) v

/-- The value of an FP4 element with its group's scale byte; X = 0xFF makes it NaN (R222, R223). -/
def elemValue (f bits x : Nat) : FVal :=
  if f = 6 then (if x = 0xFF then .nan else fpDecode 6 bits ((x : Int) - 127)) else fpDecode f bits 0

/-! ### Philox4x32-10 (R321, R356)

The generator is "as published" (R291): the multipliers and key increments are those of its publication (PRESUMED, log
entry 14). -/

/-- One round on the counter words with the given key words. -/
def philoxRound (c : Nat × Nat × Nat × Nat) (k0 k1 : Nat) : Nat × Nat × Nat × Nat :=
  let p0 := 0xD2511F53 * c.1
  let p1 := 0xCD9E8D57 * c.2.2.1
  ((p1 / 2 ^ 32) ^^^ c.2.1 ^^^ k0, p1 % 2 ^ 32, (p0 / 2 ^ 32) ^^^ c.2.2.2 ^^^ k1, p0 % 2 ^ 32)

/-- The rounds, the key growing before each but the first. -/
def philoxRun : Nat → Nat × Nat × Nat × Nat → Nat → Nat → Nat × Nat × Nat × Nat
  | 0, c, _, _ => c
  | n + 1, c, k0, k1 =>
    philoxRun n (philoxRound c k0 k1) ((k0 + 0x9E3779B9) % 2 ^ 32) ((k1 + 0xBB67AE85) % 2 ^ 32)

/-- The output block of a 64-bit key and a 128-bit counter, word 0 lowest. -/
def philox (key counter : Nat) : List Nat :=
  let w := fun i => counter / 2 ^ (32 * i) % 2 ^ 32
  let o := philoxRun 10 (w 0, w 1, w 2, w 3) (key % 2 ^ 32) (key / 2 ^ 32 % 2 ^ 32)
  [o.1, o.2.1, o.2.2.1, o.2.2.2]

/-- The random word of global element g, stream and step under a key (R356). -/
def randomWord (key g step stream : Nat) : Nat :=
  (philox key (g / 4 % 2 ^ 64 + step % 2 ^ 32 * 2 ^ 64 + stream % 2 ^ 32 * 2 ^ 96)).getD (g % 4) 0

end Sys2Proof.Machine
end

