-- ==== Sys2Proof/Config.lean ====
section
/-!
DEFINITION. What an implementation fixes, and the free values: opaque constants, so that nothing can evaluate them and a
claim about one holds whatever it is.  `State.freeCtr` is the plain counter a step applies them to (log entry 2).
-/
namespace Sys2Proof

/-- The free byte number `n`: undefined data read by a racing LS transfer (R305) and every other open byte. -/
opaque Config.freeByte : Nat → Byte

/-- The free 64-bit value number `n`. -/
opaque Config.freeWord : Nat → DWord

/-- The free choice number `n` (for instance whether an access ended by STACK_OFFLINE was applied, R390). -/
opaque Config.freeBool : Nat → Bool

/-- ML-DSA-87 signature over a message by the device's fused identity key, which no register, command or bus returns (R459,
R460): neither the key nor the standard's per-signature randomness is known. -/
opaque Config.mldsaSign : (msg : List Byte) → List Byte

/-- What the working calibration set holds at a place its body does not list: the spec gives no contents of a factory set
(R80, R103; log entry 13). -/
opaque Config.calOpen : Nat → Byte

/-- Which of the 16 die sensors of its quadrant lie near a ring (R88): the places are not given. -/
opaque Config.nearDie : (ring sensor : Nat) → Bool

/-- The sensor of its engine that lies nearest a ring, modulo 4 (R88): the places are not given. -/
opaque Config.nearEngine : (ring : Nat) → Nat

/-- The words of the PCIe configuration space that the spec leaves to the PCI Express standard, by offset (R17, R417). -/
opaque Config.cfgOpen : Nat → Word

/-- The output of a ring's dither loop in heater power units (R84, R88): the loop is analog. -/
opaque Config.loopOut : (ring n : Nat) → Int

/-- Ticks of CLK_TIME in one millisecond (R18's clock table: 1.25 ns). -/
def Config.ticksPerMs : Nat := 800000

/-- Ticks of CLK_TIME in one alignment period of 26 µs (R48). -/
def Config.ticksPerPeriod : Nat := 20800

end Sys2Proof
end

