-- ==== Sys2Proof/Machine/Sha3.lean ====
section
/-!
DEFINITION. SHA3-256, SHA3-512 and the SHAKE functions (FIPS 202), which R17, R103, R321, R325, R453 and R460 name:
Keccak-f[1600] over 25 lanes.
-/
namespace Sys2Proof

/-- A Keccak state: 25 lanes of 64 bits, lane x + 5y. -/
abbrev Keccak := List (BitVec 64)

/-- The all-zero state. -/
def Keccak.zero : Keccak := List.replicate 25 0

/-- Lane (x, y), indices modulo 5. -/
def Keccak.lane (a : Keccak) (x y : Nat) : BitVec 64 := a.getD (x % 5 + 5 * (y % 5)) 0

/-- Builds a state from a function of (x, y). -/
def Keccak.build (f : Nat → Nat → BitVec 64) : Keccak := (List.range 25).map (fun i => f (i % 5) (i / 5))

/-- The walk of step ρ from lane (x, y): its `t`-th lane is turned by t(t + 1)/2 bits. -/
def rhoWalk : Nat → Nat → Nat → Nat → List (Nat × Nat)
  | 0, _, _, _ => []
  | n + 1, t, x, y => (x + 5 * y, t * (t + 1) / 2 % 64) :: rhoWalk n (t + 1) y ((2 * x + 3 * y) % 5)

/-- Rotation offsets of the lanes that the walk from (1, 0) meets; lane (0, 0) is not turned. -/
def rhoTable : List (Nat × Nat) := rhoWalk 24 1 1 0

/-- How far step ρ turns lane i = x + 5y. -/
def rhoTurn (i : Nat) : Nat := ((rhoTable.find? (fun e => e.1 == i)).map (·.2)).getD 0

/-- One step of the 8-bit shift register of step ι. -/
def iotaStep (r : Nat) : Nat := if r < 128 then 2 * r else (2 * r) ^^^ 0x171

/-- Bits 2^j − 1, for j from `j` on, of a round constant, and the register after them: bit 0 of the register is the bit set. -/
def iotaBits : Nat → Nat → Nat → Nat × Nat
  | 0, _, r => (0, r)
  | n + 1, j, r =>
    let (w, r') := iotaBits n (j + 1) (iotaStep r)
    (r % 2 * 2 ^ (2 ^ j - 1) + w, r')

/-- The constants of `n` rounds from register r on. -/
def iotaFrom : Nat → Nat → List (BitVec 64)
  | 0, _ => []
  | n + 1, r =>
    let (w, r') := iotaBits 7 0 r
    BitVec.ofNat 64 w :: iotaFrom n r'

/-- The constants of the 24 rounds. -/
def keccakRounds : List (BitVec 64) := iotaFrom 24 1

/-- One round. -/
def keccakRound (rc : BitVec 64) (a : Keccak) : Keccak :=
  let col := (List.range 5).map (fun x => (List.range 5).foldl (fun v y => v ^^^ a.lane x y) 0)
  let c := fun x => col.getD (x % 5) 0
  let d := (List.range 5).map (fun x => c (x + 4) ^^^ (c (x + 1)).rotateLeft 1)
  let t := Keccak.build (fun x y => a.lane x y ^^^ d.getD x 0)
  let r := fun x y => (t.lane x y).rotateLeft (rhoTurn (x % 5 + 5 * (y % 5)))
  let b := Keccak.build (fun x y => r (x + 3 * y) x)
  Keccak.build (fun x y =>
    let v := b.lane x y ^^^ (~~~ b.lane (x + 1) y &&& b.lane (x + 2) y)
    if x = 0 ∧ y = 0 then v ^^^ rc else v)

/-- Keccak-f[1600]. -/
def keccakF (a : Keccak) : Keccak := keccakRounds.foldl (fun a rc => keccakRound rc a) a

/-- Absorbs one block of `rate` bytes. -/
def keccakAbsorb (a : Keccak) (block : List Byte) : Keccak :=
  keccakF (a.zipIdx.map (fun e => e.1 ^^^ BitVec.ofNat 64 (leAt block (8 * e.2) 8)))

/-- A sponge in progress: its state, and the bytes that do not fill a block yet. -/
structure Sponge where
  state : Keccak
  rest : List Byte
  deriving DecidableEq, Repr

/-- An empty sponge. -/
def Sponge.init : Sponge := ⟨Keccak.zero, []⟩

/-- Absorbs the full blocks of `bs`; the number of blocks is bounded by `fuel`. -/
def Sponge.blocks (rate : Nat) : Nat → Keccak → List Byte → Sponge
  | 0, a, bs => ⟨a, bs⟩
  | n + 1, a, bs => if bs.length < rate then ⟨a, bs⟩ else Sponge.blocks rate n (keccakAbsorb a (bs.take rate)) (bs.drop rate)

/-- Absorbs bytes. -/
def Sponge.absorb (rate : Nat) (p : Sponge) (bs : List Byte) : Sponge :=
  let all := p.rest ++ bs
  Sponge.blocks rate (all.length / rate + 1) p.state all

/-- The state after the last, padded block: `domain` is what the function writes after the message, with the first pad bit. -/
def Sponge.close (rate : Nat) (domain : Byte) (p : Sponge) : Keccak :=
  let block := p.rest ++ [domain] ++ zeroBytes (rate - p.rest.length - 1)
  keccakAbsorb p.state (putBytes block (rate - 1) [block.getD (rate - 1) 0 ||| 0x80])

/-- The bytes of a state. -/
def Keccak.bytes (a : Keccak) : List Byte := (a.map (fun w => leBytes 8 w.toNat)).flatten

/-- Closes a SHA-3 sponge (domain 01, then 10*1) and gives the first `n` bytes of its state, n at most the rate. -/
def Sponge.finish (rate n : Nat) (p : Sponge) : List Byte := (p.close rate 0x06).bytes.take n

/-- `n` blocks of output. -/
def keccakSqueeze (rate : Nat) : Nat → Keccak → List Byte
  | 0, _ => []
  | n + 1, a => a.bytes.take rate ++ keccakSqueeze rate n (keccakF a)

/-- The first `n` blocks of output of the extendable function with this rate: SHAKE128 at 168 bytes, SHAKE256 at 136. -/
def shakeBlocks (rate n : Nat) (bs : List Byte) : List Byte :=
  keccakSqueeze rate n ((Sponge.init.absorb rate bs).close rate 0x1F)

/-- SHA3-256. -/
def sha3_256 (bs : List Byte) : List Byte := (Sponge.init.absorb 136 bs).finish 136 32

/-- SHA3-512. -/
def sha3_512 (bs : List Byte) : List Byte := (Sponge.init.absorb 72 bs).finish 72 64

end Sys2Proof
end

