-- ==== Sys2Proof/Machine/LineCode.lean ====
section
/-!
DEFINITION. What a fabric lane carries, from flits to line symbols: bit order, scrambler, RS(520,508), alignment block,
period framing, PAM4 levels, striping and insert flits (R45 to R50, R54, R108, R114, R115).
-/
namespace Sys2Proof

/-! ### Bits and PAM4 levels (R45, R108) -/

/-- The bits of a byte in the order they are sent: most significant first (R108). -/
def byteBits (b : Byte) : List Bool := (List.range 8).map (fun i => b.getLsbD (7 - i))

/-- The bits of a flit, or of an alignment block: byte 0 first (R108). -/
def lineBits (bs : List Byte) : List Bool := (bs.map byteBits).flatten

/-- The level of a bit pair, the first bit the more significant: 00, 01, 11, 10 are −3, −1, +1, +3 (R45). -/
def pamLevel (hi lo : Bool) : Int := if hi then (if lo then 1 else 3) else (if lo then -1 else -3)

/-- The bit pair that a receiver decides for a level. -/
def pamPair (level : Int) : Bool × Bool := (0 < level, level == -1 || level == 1)

/-- The levels of a bit stream, pair by pair. -/
def pamLevels : List Bool → List Int
  | hi :: lo :: rest => pamLevel hi lo :: pamLevels rest
  | _ => []

/-! ### GF(2^10) with x^10 + x^3 + 1 (R46) -/

/-- Multiplication by α. -/
def gfDouble (a : Nat) : Nat := if a < 512 then 2 * a else (2 * a) ^^^ 0x409

/-- Product of two field elements, from the top bit of `b` down. -/
def gfMul (a b : Nat) : Nat :=
  (List.range 10).foldl (fun acc i => gfDouble acc ^^^ (if b.testBit (9 - i) then a else 0)) 0

/-- α^n. -/
def gfAlpha : Nat → Nat
  | 0 => 1
  | n + 1 => gfDouble (gfAlpha n)

/-- a^n by squaring the exponent's bits, `n` below 2^10. -/
def gfPow (a n : Nat) : Nat :=
  (List.range 10).foldl (fun acc i => let sq := gfMul acc acc; if n.testBit (9 - i) then gfMul sq a else sq) 1

/-- The inverse of a nonzero element: a^1022. -/
def gfInv (a : Nat) : Nat := gfPow a 1022

/-- The value of a polynomial at x, coefficients from the highest power down. -/
def gfEval (p : List Nat) (x : Nat) : Nat := p.foldl (fun acc c => gfMul acc x ^^^ c) 0

/-- Sum of two polynomials, coefficients from the constant up. -/
def gfAddPoly : List Nat → List Nat → List Nat
  | [], q => q
  | p, [] => p
  | a :: p, b :: q => (a ^^^ b) :: gfAddPoly p q

/-- Product of two polynomials, coefficients from the constant up. -/
def gfMulPoly : List Nat → List Nat → List Nat
  | [], _ => []
  | a :: p, q => gfAddPoly (q.map (gfMul a)) (0 :: gfMulPoly p q)

/-! ### The lane code RS(520,508) (R46) -/

/-- The generator (x − α^0)(x − α^1)…(x − α^11) without its leading 1, from x^11 down. -/
def rsGenerator : List Nat :=
  (((List.range 12).foldl (fun g i => gfMulPoly g [gfAlpha i, 1]) [1]).take 12).reverse

/-- One payload symbol enters the 12-symbol remainder. -/
def rsStep (rem : List Nat) (d : Nat) : List Nat :=
  let fb := d ^^^ rem.headD 0
  (rem.drop 1 ++ [0]).zipWith (fun r g => r ^^^ gfMul fb g) rsGenerator

/-- The 12 parity symbols of a payload, whose first symbol has the highest power (log entry 59). -/
def rsParity (payload : List Nat) : List Nat := payload.foldl rsStep (List.replicate 12 0)

/-- A codeword: 508 payload symbols and 12 parity symbols. -/
def rsEncode (payload : List Nat) : List Nat := payload ++ rsParity payload

/-- The 12 syndromes of a received word; all zero for a codeword. -/
def rsSyndromes (w : List Nat) : List Nat := (List.range 12).map (fun i => gfEval w (gfAlpha i))

/-- The state of the Berlekamp-Massey iteration: locator, previous locator, length, shift and previous discrepancy. -/
structure RsSearch where
  loc : List Nat
  prev : List Nat
  len : Nat
  shift : Nat
  disc : Nat
  deriving DecidableEq, Repr

/-- One syndrome of the iteration. -/
def RsSearch.next (syn : List Nat) (x : RsSearch) (n : Nat) : RsSearch :=
  let d := (List.range (x.len + 1)).foldl (fun acc i => acc ^^^ gfMul (x.loc.getD i 0) (syn.getD (n - i) 0)) 0
  if d = 0 then { x with shift := x.shift + 1 }
  else
    let fix := (List.replicate x.shift 0 ++ x.prev).map (gfMul (gfMul d (gfInv x.disc)))
    let loc := gfAddPoly x.loc fix
    if 2 * x.len ≤ n then ⟨loc, x.loc, n + 1 - x.len, 1, d⟩ else { x with loc := loc, shift := x.shift + 1 }

/-- The error locator of the syndromes, from the constant up, and its length. -/
def rsLocator (syn : List Nat) : List Nat × Nat :=
  let x := (List.range 12).foldl (fun (x : RsSearch) n => x.next syn n) ⟨[1], [1], 0, 1, 1⟩
  (x.loc, x.len)

/-- The error value at the position of power `j` (Forney, first root α^0). -/
def rsErrorAt (syn loc : List Nat) (j : Nat) : Nat :=
  let inv := gfAlpha (1023 - j)
  let omega := (gfMulPoly syn loc).take 12
  let slope := (loc.zipIdx.filter (fun e => e.2 % 2 == 1)).foldl (fun acc e => acc ^^^ gfMul e.1 (gfPow inv (e.2 - 1))) 0
  gfMul (gfAlpha j) (gfMul (gfEval omega.reverse inv) (gfInv slope))

/-- The decoder of a lane: the payload and the number of symbols it corrected, at most 6; none for an uncorrectable word. -/
def rsDecode (w : List Nat) : Option (List Nat × Nat) :=
  let syn := rsSyndromes w
  if syn.all (· == 0) then some (w.take 508, 0)
  else
    let (loc, len) := rsLocator syn
    let js := (List.range 520).filter (fun j => gfEval loc.reverse (gfAlpha (1023 - j)) == 0)
    if 6 < len || js.length ≠ len then none
    else
      let fixed := js.foldl (fun w j => listSet w (519 - j) (w.getD (519 - j) 0 ^^^ rsErrorAt syn loc j)) w
      if (rsSyndromes fixed).all (· == 0) then some (fixed.take 508, len) else none

/-- A 10-bit symbol from its bits, most significant first. -/
def symbolOf (bits : List Bool) : Nat := bits.foldl (fun n b => 2 * n + (if b then 1 else 0)) 0

/-- The bits of a symbol, most significant first: five PAM4 pairs (R46). -/
def symbolBits (x : Nat) : List Bool := (List.range 10).map (fun i => x.testBit (9 - i))

/-! ### The scrambler (R47) -/

/-- The scrambler's register after an alignment block: 58 ones. -/
def scrSeed : Nat := 2 ^ 58 - 1

/-- The next bit of the additive generator x^58 + x^39 + 1: the bits of 58 and 39 steps before. -/
def scrBit (r : Nat) : Bool := r.testBit 57 != r.testBit 38

/-- The register one bit on. -/
def scrNext (r : Nat) : Nat := (2 * r + (if scrBit r then 1 else 0)) % 2 ^ 58

/-- Scrambles a stretch of payload bits from a register value; the same function descrambles it. -/
def scramble : Nat → List Bool → List Bool
  | _, [] => []
  | r, b :: bs => (b != scrBit r) :: scramble (scrNext r) bs

/-- The pre-scrambler bits of an insert flit: those that the scrambler turns into the flit's own bits (R114). -/
def insertBits (r : Nat) (flit : List Byte) : List Bool := scramble r (lineBits flit)

/-! ### The alignment block (R50) -/

/-- Register of the PRBS13 generator, `n` bits on; the polynomial is that of IEEE 802.3 (log entry 59). -/
def prbs13 : Nat → Nat → List Bool
  | 0, _ => []
  | n + 1, r =>
    let b := (r.testBit 12 != r.testBit 11) != (r.testBit 1 != r.testBit 0)
    b :: prbs13 n ((2 * r + (if b then 1 else 0)) % 2 ^ 13)

/-- A byte from eight bits, first bit most significant. -/
def byteOf (bits : List Bool) : Byte := BitVec.ofNat 8 (symbolOf bits)

/-- Bits cut into bytes; the number of bytes is bounded by `fuel`. -/
def bytesOfBits : Nat → List Bool → List Byte
  | 0, _ => []
  | _ + 1, [] => []
  | n + 1, bs => byteOf (bs.take 8) :: bytesOfBits n (bs.drop 8)

/-- Bytes 128 to 479: PRBS13 from a seed of all ones. -/
def adaptBytes : List Byte := bytesOfBits 352 (prbs13 2816 (2 ^ 13 - 1))

/-- Bytes 64 to 74 of an alignment block: SLOT, LANE, FIBER, ROLE, PERIOD, EPID. -/
def alignFields (b : AlignBlock) : List Byte :=
  [b.slotByte, BitVec.ofNat 8 (b.lane.toNat + 8 * b.width.toNat + (if b.cal then 32 else 0) + (if b.dup then 64 else 0)),
   BitVec.ofNat 8 b.fiber.toNat, BitVec.ofNat 8 (b.role.toNat + 16 * b.version.toNat)] ++
    leBytes 4 b.period.toNat ++ leBytes 3 b.epid.toNat

/-- The 480 bytes of an alignment block. -/
def alignBytes (b : AlignBlock) : List Byte :=
  (List.replicate 16 (leBytes 4 0x5AC30FE1)).flatten ++ alignFields b ++ zeroBytes 53 ++ adaptBytes

/-- SLOT: the slot number and its ones' complement. -/
def slotByteOf (c : Nat) : Byte := BitVec.ofNat 8 (c + 16 * (15 - c))

/-! ### The alignment period (R46 to R48) -/

/-- Codewords of a period, payload symbols of a codeword, bits of the alignment block, flit bits of a period. -/
def periodCodewords : Nat := 2048
def payloadSymbols : Nat := 508
def blockBits : Nat := 3840
def periodFlitBits : Nat := periodCodewords * payloadSymbols * 10 - blockBits

/-- Symbols of a bit stream, ten bits each; their number is bounded by `fuel`. -/
def symbolsOf : Nat → List Bool → List Nat
  | 0, _ => []
  | _ + 1, [] => []
  | n + 1, bs => symbolOf (bs.take 10) :: symbolsOf n (bs.drop 10)

/-- Payload symbols cut into codewords; their number is bounded by `fuel`. -/
def codewordsOf : Nat → List Nat → List (List Nat)
  | 0, _ => []
  | _ + 1, [] => []
  | n + 1, xs => rsEncode (xs.take payloadSymbols) :: codewordsOf n (xs.drop payloadSymbols)

/-- The payload bits of a lane's period: the alignment block as it is, then the flit bits scrambled (R47, R48). -/
def periodPayload (b : AlignBlock) (flits : List Bool) : List Bool :=
  lineBits (alignBytes b) ++ scramble scrSeed (flits.take periodFlitBits)

/-- The codewords of a lane's period. -/
def periodWords (b : AlignBlock) (flits : List Bool) : List (List Nat) :=
  codewordsOf periodCodewords (symbolsOf (periodCodewords * payloadSymbols) (periodPayload b flits))

/-- The line symbols of a lane's period. -/
def periodLine (b : AlignBlock) (flits : List Bool) : List Int :=
  pamLevels (((periodWords b flits).flatten.map symbolBits).flatten)

/-! ### Striping (R54) and insert flits (R114, R115) -/

/-- The slot of each of `n` flits, the first at place `pos` of a stripe row over `slots`, which stand in ascending lane
position. -/
def stripe (slots : List Nat) (pos n : Nat) : List Nat :=
  if slots.isEmpty then [] else (List.range n).map (fun i => slots.getD ((pos + i) % slots.length) 0)

/-- The flits that one slot carries, in order. -/
def laneFlits (slot : Nat) (flits : List (Nat × List Byte)) : List (List Byte) :=
  (flits.filter (fun e => e.1 == slot)).map (·.2)

/-- The row-fill flit: 0x1E0F_3CA5 sixteen times. -/
def rowFillFlit : List Byte := (List.replicate 16 (leBytes 4 0x1E0F3CA5)).flatten

/-- The switch flit of an identity and a map. -/
def switchFlitOf (id : Byte) (map : Word) : List Byte :=
  (List.replicate 12 (leBytes 4 0xE1F0C35A)).flatten ++ [id, ~~~ id, 0, 0] ++ leBytes 4 map.toNat ++
    leBytes 4 (~~~ map).toNat ++ zeroBytes 4

end Sys2Proof
end

