-- ==== Sys2Proof/Machine/Tbl.lean ====
section
/-!
DEFINITION. Sparse tables: lists of (key, value) pairs in one canonical form, keys strictly rising and no entry equal to
what an unlisted key reads as, so that equal tables are equal data.  Registers, counters, memories and per-unit records are
held so; `Tbl Byte` is a list of `Host.Cell`.
-/
namespace Sys2Proof

/-- A sparse table. -/
abbrev Tbl (α : Type) := List (Nat × α)

/-- The value of key `k`; `d` is what an unlisted key reads as. -/
def Tbl.get {α : Type} (d : α) : Tbl α → Nat → α
  | [], _ => d
  | (k', v) :: t, k => if k = k' then v else Tbl.get d t k

/-- Removes key `k`. -/
def Tbl.erase {α : Type} : Tbl α → Nat → Tbl α
  | [], _ => []
  | (k', v) :: t, k => if k = k' then Tbl.erase t k else (k', v) :: Tbl.erase t k

/-- Puts the entry `(k, v)` in its place, replacing any entry of `k`. -/
def Tbl.insert {α : Type} : Tbl α → Nat → α → Tbl α
  | [], k, v => [(k, v)]
  | (k', v') :: t, k, v =>
    if k < k' then (k, v) :: (k', v') :: t
    else if k = k' then (k, v) :: t
    else (k', v') :: Tbl.insert t k v

/-- Writes `v` at key `k`, keeping the canonical form: writing what the key reads as when unlisted removes its entry. -/
def Tbl.set {α : Type} [DecidableEq α] (d : α) (t : Tbl α) (k : Nat) (v : α) : Tbl α :=
  if v = d then Tbl.erase t k else Tbl.insert t k v

/-- Are all keys above `b` and strictly rising, and does no entry equal its default? -/
def Tbl.wfFrom {α : Type} [DecidableEq α] (d : Nat → α) : Nat → Tbl α → Bool
  | _, [] => true
  | b, (k, v) :: t => decide (b ≤ k) && decide (v ≠ d k) && Tbl.wfFrom d (k + 1) t

/-- The canonical form; `d k` is what key `k` reads as when unlisted. -/
def Tbl.wf {α : Type} [DecidableEq α] (d : Nat → α) (t : Tbl α) : Bool := Tbl.wfFrom d 0 t

/-- Keeps the entries whose key satisfies `p`. -/
def Tbl.keep {α : Type} (p : Nat → Bool) (t : Tbl α) : Tbl α := t.filter (fun e => p e.1)

end Sys2Proof
end

