-- ==== Sys2Proof/Machine/LinkTypes.lean ====
section
/-!
DEFINITION. The plain-data types of links, fibers, rings, lightpath and calibration state that no register shows
(chapters 02, 03, 04 and the link part of 13).
-/
namespace Sys2Proof.Machine

/-- Training states of a link, with FT_LINK's codes (R57). -/
inductive LinkState where
  | disabled | light | lock | train | align | partner | up
  deriving DecidableEq, Repr

/-- Kinds of stream flits (R113). -/
inductive FlitKind where
  | idle | head | body | ctrl
  deriving DecidableEq, Repr

/-- A stream flit: its kind, its bytes and, for a packet's final flit, whether its tail is stomped (R113, R133). -/
structure Flit where
  kind : FlitKind
  bytes : List Byte
  stomp : Bool := false
  deriving DecidableEq, Repr

/-- A sent group in the replay buffer (R109, R117). -/
structure TxGroup where
  gseq : Nat
  flits : List Flit
  deriving DecidableEq, Repr

/-- A time stamp of an alignment period: its PERIOD, its device time in 1/65,536 tick, and the slot of the lowest active
lane position it was taken on (R398). -/
structure Stamp where
  period : BitVec 32
  time : BitVec 80
  /-- Value of L at the stamp. -/
  l : Nat
  lane : Nat
  deriving DecidableEq, Repr

/-- A packet that has begun to arrive on a link: its packet number in the switch core (none once dropped), its HEAD, and the
header of the answer due once its tail has passed its checks, with the crossbar input that sends it (R131, R134, R466). -/
structure RxOpen where
  id : Option Nat
  head : List Byte
  answer : Option (Nat × List Byte)
  deriving DecidableEq, Repr

/-- A time exchange in progress at a slave (R400, R401). -/
structure Exch where
  seqid : BitVec 16
  valid : Bool
  steps : Nat
  syncPeriod : BitVec 32
  t2 : Option Stamp
  t1 : Option (BitVec 80)
  corrF : Int
  reqPeriod : BitVec 32
  deriving DecidableEq, Repr

/-- What the device keeps of a partner's alignment blocks (R50, R58). -/
structure PartnerId where
  role : BitVec 2
  width : BitVec 2
  fiber : BitVec 7
  epid : BitVec 24
  version : BitVec 4
  deriving DecidableEq, Repr

/-- Hidden state of a logical link (its visible state lies in FT_LINK, FT_MAP, LL_STATUS, LL_CRED and TP). -/
structure LinkSt where
  /-- 1 ms back-off of R57 in progress. -/
  backoff : Bool
  /-- Slots whose lane has passed LINK_TRAIN_DONE's checks in this training (R57 TRAIN). -/
  trained : BitVec 9
  /-- Slots deskewed within 32 ns in ALIGN (R57). -/
  aligned : BitVec 9
  /-- Slots whose lane is excluded for skew: DESKEW_ERR reads 1 while one is (R57). -/
  skewed : BitVec 9
  /-- Flits sent of the stripe row in progress (R54). -/
  rowPos : Nat
  /-- Flits wait for the boundary that ends a commit's gap (R99, R100). -/
  quiet : Bool
  /-- A replay that fell due while the transmitter could not send (R99, R117, R162). -/
  replayDue : Bool
  partner : Option PartnerId
  /-- Lane map of the receive direction, laid out as FT_MAP (R60, R115). -/
  rxMap : Word
  switchTx : Byte
  switchRx : Byte
  /-- Slots the partner can receive, from its last LC_MASK (R60). -/
  peerMask : BitVec 9
  /-- W8 transmitter lit for this link by LC_LEND (R56). -/
  w8Tx : Bool
  /-- Slots on which LC_CAL asks for the calibration pattern (R61). -/
  calTx : BitVec 9
  /-- LC_DUP taken as follower: lane position, slot, starting period (R63). -/
  dup : Option (Nat × Nat × Nat)
  /-- LP_GAP in force: commit instant and the PERIOD that ends the gap (R98). -/
  gap : Option (DWord × BitVec 32)
  /-- Receiver: a group has verified since UP (ACK_VALID, R110). -/
  rxAny : Bool
  /-- Receiver: a group failed and is awaited (R116). -/
  rxAwait : Bool
  /-- Receiver: NAK to send in the next trailer (R116). -/
  nakDue : Bool
  replay : List TxGroup
  /-- Stream flits that wait for replay room (R118). -/
  txWait : List Flit
  /-- Group from which the latest replay started, and the tick it started at (R117). -/
  lastReplay : Option (Nat × Nat)
  /-- Replays of that group without an acknowledgement (R120). -/
  replayCount : Nat
  /-- CRD_INIT received since UP (R135). -/
  credInit : Bool
  /-- The partner's advertised credits, VC1 to VC7 (R137). -/
  peerAdv : List Nat
  /-- The credits this end advertised at this UP, VC1 to VC7 (R136, R143). -/
  ownAdv : List Nat
  /-- Cells this link adds to COMMITTED while UP (R143). -/
  committed : Nat
  /-- The link runs on a cut budget (R143). -/
  cut : Bool
  rxOpen : Option RxOpen
  /-- Value of L at the latest entry to UP: cells received before it owe no credit. -/
  upAt : Nat
  txStamps : List Stamp
  rxStamps : List Stamp
  exch : Option Exch
  /-- DELAY_REQs whose period has not arrived yet, oldest first: SEQID and PERIOD (R400). -/
  reqWait : List (BitVec 16 × BitVec 32)
  /-- SYNC records sent by a master, for DELAY_RESP (R400). -/
  syncSeq : BitVec 16
  /-- A valid exchange has been formed since UP (R402). -/
  rttValid : Bool
  /-- Ticks since this link's last valid exchange (EXCH_OK). -/
  exchAge : Nat
  deriving DecidableEq, Repr

/-- A link that is not in use. -/
def LinkSt.init : LinkSt where
  backoff := false
  trained := 0
  aligned := 0
  skewed := 0
  rowPos := 0
  quiet := false
  replayDue := false
  partner := none
  rxMap := 0xFFFFFFFF
  switchTx := 0
  switchRx := 0
  peerMask := 0x1FF
  w8Tx := false
  calTx := 0
  dup := none
  gap := none
  rxAny := false
  rxAwait := false
  nakDue := false
  replay := []
  txWait := []
  lastReplay := none
  replayCount := 0
  credInit := false
  peerAdv := []
  ownAdv := []
  committed := 0
  cut := false
  rxOpen := none
  upAt := 0
  txStamps := []
  rxStamps := []
  exch := none
  reqWait := []
  syncSeq := 0
  rttValid := false
  exchAge := 0

/-- A hitless swap in progress (R63): the lane position of a link moves from slot `src` to slot `dst`. -/
structure Swap where
  link : Nat
  pos : Nat
  src : Nat
  dst : Nat
  /-- Step 1 to 5 of R63. -/
  step : Nat
  /-- The partner's LC_READY has arrived, and the switch row has gone (downstream step 4). -/
  txReady : Bool
  /-- This end has verified the duplicate, and LC_SWITCH has gone (upstream step 4). -/
  rxReady : Bool
  deriving DecidableEq, Repr

/-- Hidden state of a fabric fiber (its visible state lies in FT_CFG, FT_STATUS, FT_LANE). -/
structure FiberSt where
  swap : Option Swap
  /-- Step of the 16-step rotation below x8 (R65). -/
  rotStep : Nat
  /-- DARK_PERIOD has ended and its swap waits for calibration (R76). -/
  periodDue : Bool
  /-- Slots whose calibration completed since EN was set (R518). -/
  calibrated : BitVec 9
  /-- Failed calibrations in succession, per slot (R71). -/
  fails : List Nat
  /-- Slot under calibration. -/
  calSlot : Option Nat
  /-- Lost slots to calibrate next, in order of loss (R71). -/
  calNext : List Nat
  /-- Slots lost since they last carried a lane, with the link and position they carried (R71). -/
  lost : List (Nat × Nat × Nat)
  /-- Alignment period count of the fiber's transmit direction (R50). -/
  period : BitVec 32
  /-- Tick of the last commit that changed a route touching this fiber (R66). -/
  lastCommit : Option Nat
  /-- A hold has found the dark slot calibrated: rotation waits for the next completed calibration (R66). -/
  heldReady : Bool
  /-- Counter value of the latest period boundary of the transmit direction (R95). -/
  boundary : Option Nat
  deriving DecidableEq, Repr

/-- A fiber at reset. -/
def FiberSt.init : FiberSt := ⟨none, 0, false, 0, [0, 0, 0, 0, 0, 0, 0, 0, 0], none, [], [], 0, none, false, none⟩

/-- Ring states, with PE_RING's codes (R81). -/
inductive RingState where
  | parked | prebias | search | track | verify | aliasTrim | locked | hold | failed
  deriving DecidableEq, Repr

/-- Hidden state of a ring.  `state` is the state of a matrix ring, and of no other ring (PE_RING shows the others). -/
structure RingSt where
  state : RingState
  /-- Acquisitions failed in succession (R85). -/
  fails : Nat
  /-- Windows spent in VERIFY (R81). -/
  windows : Nat
  /-- SLOT check of R51 passed since the ring last moved. -/
  slotOk : Bool
  /-- A pilot window of this VERIFY has given MATCH (R81). -/
  matched : Bool
  /-- Detected slot of the alias, which gives the sign of the heater step (R86). -/
  aliasTo : Nat
  /-- The heater step of ALIAS is done and the trim sweep runs (R87). -/
  sweeping : Bool
  /-- Excluded from routes until recalibrated (R85). -/
  excluded : Bool
  /-- The dither error last reported since the ring entered its state, in 0.25 GHz (R84, R90). -/
  err : Option (BitVec 16)
  deriving DecidableEq, Repr

/-- A parked ring. -/
def RingSt.init : RingSt := ⟨.parked, 0, 0, false, false, 0, false, false, none⟩

/-- Temperature history of a quadrant, newest first: 16 die sensors and 4 per engine, in 0.0625 K above −40 °C (R88),
and for each engine the number of consecutive samples below two thirds of its limits (R91). -/
structure ThermSt where
  hist : List (List Nat)
  quiet : List Nat
  deriving DecidableEq, Repr

/-- No sample taken. -/
def ThermSt.init : ThermSt := ⟨[], [0, 0, 0, 0]⟩

/-- A pending lightpath commit (R96 to R99). -/
structure Commit where
  /-- Commit instant on L. -/
  instant : Nat
  /-- Tick of the request. -/
  requested : Nat
  /-- LP_GAP has been sent. -/
  gapSent : Bool
  /-- The check at C − 0.5 µs has passed. -/
  checked : Bool
  /-- The Lantern operation to complete with the result (LPC or CA2A), by its number. -/
  owner : Option Nat
  deriving DecidableEq, Repr

/-- Hidden state of a quadrant's lightpath block. -/
structure LpSt where
  pending : Option Commit
  /-- The new set is being brought up: the routes carry light at C + 6 µs (R99). -/
  moving : Bool
  /-- Owner of the commit whose rings are moving. -/
  movingOwner : Option Nat
  /-- The Lantern operation whose commit has ended, and its code of R320, until that operation takes it. -/
  result : Option (Nat × Nat)
  deriving DecidableEq, Repr

/-- No commit. -/
def LpSt.init : LpSt := ⟨none, false, none, none⟩

/-- A calibration set (R103): the header fields and the body. -/
structure CalSet where
  magic : Word
  version : Word
  serial : DWord
  origin : Word
  writes : Word
  len : Word
  digest : List Byte
  body : List Byte
  deriving DecidableEq, Repr

/-- Calibration store, working copy and programming state (R103 to R106). -/
structure CalSt where
  stored : CalSet
  /-- The working set, which ring control reads and dark-slot calibration updates (R102, R103). -/
  working : CalSet
  /-- Bytes of the working set's body that dark-slot calibration has re-fitted, by offset (R102). -/
  refit : Tbl Byte
  /-- The export window (R105). -/
  window : List Byte
  /-- Tick of the first unlock word (R105). -/
  unlockFirst : Option Nat
  /-- Tick at which the unlock came into force. -/
  unlockedAt : Option Nat
  exporting : Bool
  programming : Bool
  deriving DecidableEq, Repr

end Sys2Proof.Machine
end

