-- ==== Sys2Proof/Machine/CoreTypes.lean ====
section
/-!
DEFINITION. The plain-data types of the time unit, the Ember log, the host interface, the monitors and of what the device
sends out of its pins (chapters 13, 14, 16).
-/
namespace Sys2Proof.Machine

/-- A change of device time decided and waiting for its apply tick (R395). -/
inductive TimeChange where
  | rate (r : BitVec 40)
  | step (s : Int)
  | set (v : BitVec 80)
  deriving DecidableEq, Repr

/-- The time unit (R393, R394, R403 to R406). -/
structure TimeSt where
  /-- The free-running counter, 64 bits. -/
  l : Nat
  /-- Device time at the tick before, in ticks; none before the first (R396). -/
  was : Option Nat
  offset : BitVec 80
  rate : BitVec 40
  lref : Nat
  integ : Int
  /-- Decided changes with their apply ticks, oldest first. -/
  applies : List (Nat × TimeChange)
  /-- Consecutive valid exchanges within and beyond LOCK_THRESH (R404). -/
  good : Nat
  bad : Nat
  /-- L at t2 of the previous valid exchange (R403). -/
  prevT2 : Option Nat
  /-- LAST_VALID_AGE, live (R406). -/
  age : BitVec 48
  deriving DecidableEq, Repr

/-- The software time ports of a quadrant (R407, R408): the record being sent with its ID, STAMP bit and link, the stamps
awaited as (link, ID, period), the time-stamp queue and the receive ring. -/
structure TqSt where
  tx : Option (Nat × Bool × Nat × List Byte)
  await : List (Nat × Nat × BitVec 32)
  tsq : Tbl (List Byte)
  trx : Tbl (List Byte)
  deriving DecidableEq, Repr

/-- Idle software time ports. -/
def TqSt.init : TqSt := ⟨none, [], [], []⟩

/-- An event on its way to the Ember log (R480, R481). -/
structure LogEv where
  time : DWord
  code : Nat
  origin : Nat
  cls : Nat
  kind : Nat
  unit : Nat
  data : List Byte
  deriving DecidableEq, Repr

/-- The Ember log (R479 to R485): entries by slot, event queues by origin (0 to 3 quadrants, 4 service die), losses not yet
reported, the rotating pointer, the entries waiting for MGT sends. -/
structure LogSt where
  ring : Tbl (List Byte)
  queues : List (List LogEv)
  lost : List Nat
  stopLost : Nat
  next : Nat
  mgt : List (List Byte)
  /-- Source 257 has been raised for the threshold and not yet re-armed (R483). -/
  fired : Bool
  deriving DecidableEq, Repr

/-- A monitor's values (R475). -/
structure MonVals where
  min : Word
  max : Word
  count : Count48
  sum : DWord
  buckets : List Word
  deriving DecidableEq, Repr

/-- A monitor that has taken no value (R475). -/
def MonVals.init : MonVals := ⟨0xFFFFFFFF, 0, 0, 0, List.replicate 32 0⟩

/-- A monitor: live values and holding registers (R478). -/
structure MonSt where
  live : MonVals
  held : MonVals
  deriving DecidableEq, Repr

/-- A monitor at reset. -/
def MonSt.init : MonSt := ⟨MonVals.init, MonVals.init⟩

/-- States of a result slot (R439). -/
inductive RsState where
  | empty | pending | ready | error
  deriving DecidableEq, Repr

/-- A result slot (R438). -/
structure RsSlot where
  gen : BitVec 16
  state : RsState
  trunc : Bool
  len : Nat
  key : List Word
  vecEn : Bool
  vector : Nat
  record : List Byte
  payload : List Byte
  deriving DecidableEq, Repr

/-- A result slot after a host interface reset. -/
def RsSlot.init : RsSlot := ⟨0, .empty, false, 0, [0, 0, 0, 0], false, 0, [], []⟩

/-- A DMA engine's descriptor in progress (R432): its bytes, its status so far, whether its Ingot accesses have been issued,
and the data read from Ingot. -/
structure DmaJob where
  /-- Its number, which names its accesses. -/
  id : Nat
  desc : List Byte
  status : Nat
  moved : Bool
  data : List Byte
  deriving DecidableEq, Repr

/-- Hidden state of a DMA engine: the descriptor in progress, and whether DMA_ARB has granted it the PCIe requester for its
next or present one (R208, R432). -/
structure DmaSt where
  job : Option DmaJob
  granted : Bool
  deriving DecidableEq, Repr

/-- An idle DMA engine. -/
def DmaSt.init : DmaSt := ⟨none, false⟩

/-- A BAR2 access in progress (R428, R429): kind 0 read, 1 write, 2 AtomicOp; its data so far, the parts outstanding, and
whether a condition of R429 has been met. -/
structure WinAcc where
  kind : Nat
  data : List Byte
  left : Nat
  bad : Bool
  deriving DecidableEq, Repr

/-- Host interface state that no register shows (R413 to R417). -/
structure HostSt where
  /-- Value a sideband flag has lately shown and for how many frames: PERST_N, HOST_PRESENT, WAKE_ACK. -/
  sbCand : List (Bool × Nat)
  /-- Flags in force: PERST_N, HOST_PRESENT, WAKE_ACK. -/
  sbFlags : List Bool
  sbBad : Nat
  sbGood : Nat
  devReady : Bool
  d3hot : Bool
  /-- Addresses that the host has written into BAR0, BAR2 and BAR4 (R419). -/
  bars : List DWord
  slots : Tbl RsSlot
  dma : Tbl DmaSt
  /-- BAR2 accesses in progress, by number. -/
  wins : Tbl (Option WinAcc)
  deriving DecidableEq, Repr

/-- What the device sends out of its pins, in order: the model's own trace of its outputs (log entry 3). -/
inductive Emit where
  /-- A flit group with its trailer's fields (R110), and the slot of each of its 32 flits (R54). -/
  | group (link gseq ack : Nat) (ackValid nak : Bool) (flits : List Flit) (slots : List Nat)
  /-- A new lane map: the row-fill flits that complete the row before it and the switch row, each flit with its slot
  (R60, R114, R115). -/
  | switchRow (link id : Nat) (map : Word) (flits : List (Nat × List Byte))
  /-- The alignment blocks that leave on a fiber's slots at one period boundary (R49, R50). -/
  | alignBlocks (fiber : Nat) (blocks : List AlignBlock)
  /-- The heater drives of a quadrant's rings after a temperature sample (R88). -/
  | heaters (quad : Nat) (drives : List (Nat × Int))
  /-- A sideband frame (R413). -/
  | sideband (bytes : List Byte)
  /-- An MSI-X message (R436). -/
  | msix (vector : Nat) (addr : DWord) (data : Word)
  /-- A posted write of the device to host memory (R432, R433). -/
  | hostWrite (addr : Nat) (bytes : List Byte)
  /-- A completion of a BAR2 read or AtomicOp (R429). -/
  | completion (bytes : List Byte)
  /-- A completion with status Unsupported Request (R417). -/
  | unsupported
  /-- A packet ended on a link with a stomped tail after its HEAD left (R133). -/
  | stomp (link : Nat)
  /-- A row of light: the lasers of an engine go off (R444, R504). -/
  | lasersOff (engine : Nat)
  deriving DecidableEq, Repr

end Sys2Proof.Machine
end

