-- ==== Sys2Proof/Machine/BootTypes.lean ====
section
/-!
DEFINITION. The plain-data types of power, boot, security and in-service repair (chapter 15) and of the fuses and NOR sectors
that outlive a loss of power.
-/
namespace Sys2Proof.Machine

/-- The fuse array and what is fixed at manufacture (R9, R453 to R455, R459). -/
structure Fuses where
  /-- CAP_UNITS as sensed (R445). -/
  cap : Word
  /-- Package serial of the lid marking. -/
  serial : DWord
  /-- The endpoint ID the device sends in its alignment blocks (R50, R144). -/
  epid : BitVec 24
  vendorKeyHash : List Byte
  ownerKeyHash : List Byte
  ownerReq : Bool
  rollback : Nat
  idPub : List Byte
  idCert : List Byte
  deriving DecidableEq, Repr

/-- The bytes of the whole fuse array in fuse order, an order that no rule gives (R460, log entry 2). -/
opaque fuseArray : Fuses → List Byte

/-- The power sequencer (R444 to R446). -/
structure PowerSt where
  /-- Rails are up. -/
  on : Bool
  /-- Failures of the 6 V bus or a service die rail since the input became valid (R446). -/
  busFails : Nat
  /-- The device waits for ROOT_LOCK after an unlock (R41). -/
  waitLock : Bool
  deriving DecidableEq, Repr

/-- A peer fetch in progress (R456, R458). -/
structure Fetch where
  total : Option Nat
  svn : Nat
  outstanding : List Nat
  held : List Nat
  deriving DecidableEq, Repr

/-- Boot and warm-reset state that no register shows (R449 to R458). -/
structure BootSt where
  /-- Staging window bytes (R451). -/
  staging : Tbl Byte
  /-- Image store bytes and length (R453). -/
  image : Tbl Byte
  imageLen : Nat
  fetch : Option Fetch
  /-- Tick of the pending first word of the warm reset sequence (R449). -/
  armed : Option Nat
  /-- BOOT_CFG value being written to the NOR boot sector (R456). -/
  cfgPending : Option Word
  /-- The NOR boot sector (R456). -/
  norBoot : Word
  /-- The image has been checked and the firmware runs (R453). -/
  running : Bool
  /-- SVN of the running image (R454). -/
  svn : Nat
  deriving DecidableEq, Repr

/-- The security engine (R459 to R461): the report being built and ATT_BUF. -/
structure SecSt where
  building : Option (List Byte)
  attBuf : List Byte
  deriving DecidableEq, Repr

/-- A unit command in progress (R463): kind, index, whether it ends HELD by HOLD. -/
structure UnitCmd where
  kind : Nat
  index : Nat
  hold : Bool
  deriving DecidableEq, Repr

/-- In-service repair (R462 to R467, R488). -/
structure UnitSt where
  cmd : Option UnitCmd
  /-- Quadrants whose HOLD by QUAD_STATE_ERR waits for UR_STATUS.BUSY to clear (R492). -/
  deferred : List Nat
  /-- Quadrants whose tiles accept no HEAD flits after a QUAD_STATE_ERR (R488). -/
  stopped : List Nat
  deriving DecidableEq, Repr

end Sys2Proof.Machine
end

