-- ==== Sys2Proof/Machine/SwTypes.lean ====
section
/-!
DEFINITION. The plain-data types of the forwarding tables, the switch core, the traffic managers and the arbiters
(chapters 05, 06, 07).
-/
namespace Sys2Proof.Machine

/-- A forwarding table entry (R183). -/
structure FwdEntry where
  dst : Nat
  pin : Bool
  mc : Bool
  aged : Bool
  target : Nat
  ts : Nat
  deriving DecidableEq, Repr

/-- The last use of an entry, for a sweep that visits it in the same cycle (R192): the tick of L, and for a hit the entry as it
was before; none for a command that showed it. -/
structure FwdTouch where
  loc : Nat
  tick : Nat
  before : Option FwdEntry
  deriving DecidableEq, Repr

/-- A quadrant's forwarding table: entries by location, the filter of recent notices (endpoint and the tick its notice was
posted, most recently used first), the notice ring, whether its threshold interrupt has been raised and the last use of an
entry (R181, R187, R188, R190, R192). -/
structure FwdSt where
  table : Tbl (Option FwdEntry)
  filter : List (Nat × Nat)
  ring : Tbl (List Byte)
  fired : Bool
  touched : Option FwdTouch
  deriving DecidableEq, Repr

/-- An empty forwarding table. -/
def FwdSt.init : FwdSt := ⟨[], [], [], false, none⟩

/-- Units of a quadrant that consume packets (R140): collective engine, memory-semantic service, Lantern cluster, service
link, the PEER write queue of the Ingot controllers, and the PEER_ACK input of the memory-semantic service. -/
inductive UnitDest where
  | ce | ms | lx | sv | peerWr | peerAck
  deriving DecidableEq, Repr

/-- Where a packet is bound within the device: an egress link, a unit of a quadrant, or the copier with a group
(R144, R146, R157); `quad` is a group copy bound for another quadrant's copier (R157, R159). -/
inductive Dest where
  | link (k : Nat)
  | unit (q : Nat) (u : UnitDest)
  | quad (q : Nat) (group : Nat)
  deriving DecidableEq, Repr

/-- Whose commitment a packet's cells count against (R142, R515): the receive buffer of a link and VC, MC_POOL, ORIGIN_POOL,
the origin reserve of a link, the bridge origin reserve toward a quadrant, the bridge credit of an incoming bridge and VC,
or the cells of a shared copy. -/
inductive Cells where
  | rx (link vc : Nat)
  | mcPool
  | originPool
  | linkReserve (link : Nat)
  | bridgeReserve (toQuad : Nat)
  | bridge (fromQuad vc : Nat)
  | shared (ref : Nat)
  deriving DecidableEq, Repr

/-- How a packet's tail has ended (R134). -/
inductive TailState where
  | waiting | good | bad
  deriving DecidableEq, Repr

/-- A packet, or a copy of one, in a quadrant's buffer: its descriptor's place in the arrival order of `SwSt.pkts` gives its
place in its VOQ (R146). -/
structure QPkt where
  id : Nat
  /-- Number of the received packet this is or copies; packets of units have one of their own. -/
  rx : Nat
  /-- Crossbar input port (R140). -/
  inp : Nat
  dest : Dest
  /-- Transit quadrant of the path, where it takes one (R148). -/
  via : Option Nat
  vc : Nat
  head : List Byte
  payload : List Byte
  flits : Nat
  tail : TailState
  cells : Cells
  /-- Quadrant whose buffer holds the cells. -/
  cq : Nat
  /-- Link set the packet was sprayed over (R147, R163), and its links as they stood then (R186). -/
  set : Option Nat
  setLinks : List Nat := []
  /-- Link it arrived on, 1024 for a unit's packet. -/
  inLink : Nat
  /-- Tick at which its HEAD arrived or its unit enqueued it (R476). -/
  born : Nat
  /-- Queued for a link while no link of its set is UP and not muted (R178). -/
  waiting : Bool
  /-- Matched output group while it crosses (R152). -/
  crossing : Option Nat
  /-- Long operation of a Lantern access to another quadrant, by quadrant and number (R302). -/
  wick : Option (Nat × Nat) := none
  deriving DecidableEq, Repr

/-- A packet that waits for the copier (R157): its targets not yet served, in order. -/
structure CopyJob where
  pkt : QPkt
  links : List Nat
  quads : List Nat
  group : Nat
  /-- The targets have been read from the group table (R172). -/
  started : Bool
  /-- The received cells have served a target. -/
  firstDone : Bool
  deriving DecidableEq, Repr

/-- Where an originated packet goes (R159, R515). -/
inductive OriginDest where
  | link (k : Nat)
  | group (g : Nat)
  /-- A link set, by spraying (R147). -/
  | set (n : Nat)
  /-- A unit of another quadrant: a Lantern access and its answer (R302). -/
  | unit (q : Nat) (u : UnitDest)
  /-- Forwarded by a DST lookup in the quadrant's table (R317, R218); `map` marks congestion maps and log entries, which
  are dropped and counted in the given counter when the lookup misses. -/
  | lookup (missCtr : Option Nat)
  deriving DecidableEq, Repr

/-- A packet that a unit originates and that waits for cells (R515). -/
structure OriginReq where
  unit : UnitDest
  inp : Nat
  dest : OriginDest
  head : List Byte
  payload : List Byte
  born : Nat
  wick : Option (Nat × Nat) := none
  /-- It leaves with a stomped tail (R289). -/
  bad : Bool := false
  deriving DecidableEq, Repr

/-- A shared copy (R159): references left, its cells and their number, and whether its reference entry is one of the
originating units' 3,072. -/
structure SharedCopy where
  refs : Nat
  cells : Cells
  flits : Nat
  ofUnit : Bool
  deriving DecidableEq, Repr

/-- A packet handed to a unit (R144); `wick` names the long operation of a remote Lantern access, by quadrant and number
(R302), and `resv` the origin cells reserved for the answer (R166). -/
structure UPkt where
  link : Nat
  head : List Byte
  payload : List Byte
  born : Nat
  wick : Option (Nat × Nat) := none
  resv : Option Cells := none
  deriving DecidableEq, Repr

/-- One direction of a bridge at its sender: packets that crossed the crossbar (LOCAL), packets in the two transit FIFOs
that feed it, and packets on the wire, oldest first (R154, R156); the last lane given (R212). -/
structure BridgeOut where
  loc : List QPkt
  transit1 : List QPkt
  transit2 : List QPkt
  wire : List QPkt
  lane : Nat := 9
  deriving DecidableEq, Repr

/-- An empty bridge direction. -/
def BridgeOut.init : BridgeOut := ⟨[], [], [], [], 9⟩

/-- What a congestion map measures between samples (R216, R217). -/
structure CmapSt where
  /-- Last boundary sampled, in ticks of device time (R396). -/
  last : Option Nat
  /-- By link: largest OCC, packets enqueued, packets marked. -/
  peak : Tbl Nat
  enq : Tbl Nat
  marked : Tbl Nat
  /-- Largest request queue by stack of the quadrant; LOST_GRANT counts of the bridges, then the stacks, at the last
  sample. -/
  depth : Tbl Nat
  lost : Tbl Nat
  /-- What the resources of the level records have carried since the last sample, by the places of `Use`, and the tick of that
  sample. -/
  use : Tbl Nat
  since : Nat
  /-- Published buffers (R219). -/
  buf0 : List Byte
  buf1 : List Byte
  deriving DecidableEq, Repr

/-- The switch core and traffic manager of a quadrant, with the input queues of its units. -/
structure SwSt where
  pkts : List QPkt
  copyQ : List CopyJob
  originQ : List OriginReq
  shared : Tbl (Option SharedCopy)
  /-- Cells in use: MC_POOL, ORIGIN_POOL, origin reserves by link, bridge origin reserves by quadrant. -/
  mcUsed : Nat
  originUsed : Nat
  linkUsed : Tbl Nat
  bridgeUsed : Tbl Nat
  /-- SC_POOL values in force (R171). -/
  mcPool : Nat
  originPool : Nat
  /-- Grant pointers by output group, accept pointers by input (R151). -/
  grantPtr : Tbl Nat
  acceptPtr : Tbl Nat
  /-- Rotating VC of each input at bridge and unit outputs (by 80 times the output and the input), rotating link of a tile
output (R153). -/
  vcPtr : Tbl Nat
  linkPtr : Tbl Nat
  /-- Last link chosen for a set (R147). -/
  spray : Tbl Nat
  /-- Backlog last reported by the owning quadrants, by link (R149). -/
  reported : Tbl Nat
  bridges : Tbl BridgeOut
  /-- ADV values in force toward the other quadrants, by 8 times the quadrant and VC (R142). -/
  xbAdv : Tbl Nat
  /-- Shaper credits by 8k + c, in 1/65,536 byte (R198). -/
  credits : Tbl Int
  /-- Deficits by 8k + c, in bytes, and the class whose turn it is by link (R197). -/
  deficits : Tbl Int
  turn : Tbl Nat
  /-- Scheduler cycles since the last tick, which have moved the shapers' credit already (R198). -/
  cycles : Nat
  /-- Meter buckets Tc and Te by meter, in 1/65,536 byte below their full value (R203). -/
  tc : Tbl Nat
  te : Tbl Nat
  cmap : CmapSt
  ceIn : List UPkt
  msIn : List UPkt
  lxIn : List UPkt
  svIn : List UPkt
  peerIn : List UPkt
  ackIn : List UPkt
  deriving DecidableEq, Repr

/-- A switch core after reset: pools at SC_POOL's reset values (R171). -/
def SwSt.init : SwSt where
  pkts := []
  copyQ := []
  originQ := []
  shared := []
  mcUsed := 0
  originUsed := 0
  linkUsed := []
  bridgeUsed := []
  mcPool := 131072
  originPool := 65536
  grantPtr := []
  acceptPtr := []
  vcPtr := []
  linkPtr := []
  spray := []
  reported := []
  bridges := []
  xbAdv := []
  credits := []
  deficits := []
  turn := []
  cycles := 0
  tc := []
  te := []
  cmap := ⟨none, [], [], [], [], [], [], 0, [], []⟩
  ceIn := []
  msIn := []
  lxIn := []
  svIn := []
  peerIn := []
  ackIn := []

/-- An arbiter of R208: requests sampled for the decision, starvation counters by requester, granted uses in progress. -/
structure ArbSt where
  starve : List Nat
  uses : Nat
  deriving DecidableEq, Repr

/-- An idle arbiter. -/
def ArbSt.init : ArbSt := ⟨[], 0⟩

end Sys2Proof.Machine
end

