-- ==== Sys2Proof/Machine/EngineTypes.lean ====
section
/-!
DEFINITION. The plain-data types of Ingot memory, the collective engines, the Lantern clusters and the fused instructions
(chapters 08 to 12).
-/
namespace Sys2Proof.Machine

/-! ### Ingot memory (chapter 12) -/

/-- What an access does at its stack (R372); `sum` is a fetch-add of an already rounded operand. -/
inductive MemOp where
  | read (len : Nat)
  | write (bytes : List Byte)
  | atomic (opcode : Nat) (wide : Bool) (a b : Nat) (signed : Bool)
  /-- The near-memory adders of a spilled chunk (R258): operation, accumulator width, and by word of the block whether it is the
  element's first value and what joins it. -/
  | accum (op width : Nat) (words : List (Nat × Bool × Nat))
  deriving DecidableEq, Repr

/-- Who an access is made for.  A long operation is named by quadrant and number, a slot by quadrant and record. -/
inductive AccOwner where
  /-- A request of the memory-semantic service, answered alone. -/
  | request (p : UPkt)
  /-- A combining entry of a quadrant. -/
  | comb (q id : Nat)
  /-- A PEER_WR. -/
  | peer (q : Nat) (p : UPkt)
  | op (q id : Nat)
  /-- A read or write of a chunk's action, at an offset of its data. -/
  | slot (q r off : Nat)
  | spill (q r : Nat)
  /-- A load or write-back of task `t` of slot `r`: part 0 parameters, 1 and 2 state slots; an offset of the part. -/
  | load (q r t part off : Nat)
  | back (q r t part off : Nat)
  /-- A part of BAR2 access `id`, at an offset of its data (R428). -/
  | window (id off : Nat)
  /-- A part of descriptor `id` of DMA engine `i` = 8q + e, at an offset of its data (R432). -/
  | dma (i id off : Nat)
  deriving DecidableEq, Repr

/-- An access on its way to or in a stack (R378).  A stack's list holds the granted ones first, in grant order. -/
structure Access where
  id : Nat
  /-- Requester of IG_ARB (R208). -/
  requester : Nat
  /-- Alloy unit for requester 2, which AP_ARB serves first (R208). -/
  unit : Nat
  /-- AP_ARB has granted it, where it needs that. -/
  ap : Bool
  granted : Bool
  /-- Tick of the grant. -/
  since : Nat
  addr : Nat
  op : MemOp
  owner : AccOwner
  deriving DecidableEq, Repr

/-- Hidden state of a stack (R367 to R370): accesses oldest first, pages being copied, retired pages, uncorrectable lines
by address within the stack, corrected symbols of the last second as (tick, die), and page correction counts, most recent
first. -/
structure StackSt where
  accs : List Access
  copying : List Nat
  retired : List Nat
  bad : List Nat
  hits : List (Nat × Nat)
  pages : List (Nat × Nat)
  deriving DecidableEq, Repr

/-- A stack after its reset. -/
def StackSt.init : StackSt := ⟨[], [], [], [], [], []⟩

/-- A combining entry (R379, R380): kind 0 READ, 1 FADD, 2 FADD_ALLOY; members in join order with their operands. -/
structure Comb where
  id : Nat
  kind : Nat
  addr : Nat
  /-- ASIZE of an add, RLEN of a read. -/
  size : Nat
  /-- SIGNED of a FADD; AFMT class of a FADD_ALLOY, true for native. -/
  mode : Bool
  anchor : Nat
  opened : Nat
  members : List (UPkt × Nat)
  /-- No further request joins: an add has been issued, a read has been closed (R381). -/
  closed : Bool
  deriving DecidableEq, Repr

/-- The memory-semantic service of a quadrant: combining entries, and the tag pool sizes in force (R377). -/
structure MemSt where
  combs : List Comb
  nextComb : Nat
  msPool : Nat
  lxPool : Nat
  deriving DecidableEq, Repr

/-- A service after reset: MS_TAGS and LX_TAGS at their reset values. -/
def MemSt.init : MemSt := ⟨[], 0, 0x8000, 0x4000⟩

/-! ### Fused instructions (chapter 11) -/

/-- A post (R332) with the action operands of its chunk. -/
structure Post where
  /-- Issuing quadrant and record. -/
  q : Nat
  ix : Nat
  /-- COL OP. -/
  op : Nat
  job : Nat
  comm : Nat
  seq : Nat
  chunk : Nat
  epoch : Nat
  seed : Nat
  step : Nat
  /-- Units n_c of the chunk (R333). -/
  units : Nat
  repair : Bool
  prov : Bool
  /-- Address of unit 0 of the chunk: DEST, SRC, or window 0 of a gather; P_IN for CRSU. -/
  base : Nat
  pOut : Nat
  sIn : Nat
  sOut : Nat
  sslot : Nat
  mstride : Nat
  nmemb : Nat
  pfmt : Nat
  sfmt : Nat
  f64 : Bool
  nstate : Nat
  prmode : Nat
  srmode : Nat
  entry : Nat
  hp : List DWord
  /-- Digest of the issuing engine's code range (R349). -/
  digest : List Byte
  deriving DecidableEq, Repr

/-- How a chunk ended for its instruction (R335): STATUS, AERR, DETAIL and its two digests. -/
structure ChunkEnd where
  chunk : Nat
  status : Nat
  aerr : Nat
  detail : Nat
  din : List Byte
  dw : List Byte
  deriving DecidableEq, Repr

/-- A CA2A run (R344): phases, their instants and the set to commit next. -/
structure PhaseRun where
  period : Nat
  nph : Nat
  plan : Nat
  /-- Phase whose commit is requested next or pending. -/
  next : Nat
  /-- A request for phase `next` has been accepted. -/
  pending : Bool
  /-- Commit instant of phase 0 on L and in device time, and the RATE at its request. -/
  c0 : Nat
  c0dev : Nat
  rate : BitVec 40
  /-- The job's epoch and the descriptor's words at issue, for the plan notices. -/
  epoch : Nat
  d1 : Word
  d2 : Word
  /-- The run ends with this STATUS once a commit too near to cancel has taken place (R344, R360). -/
  abort : Option Nat
  /-- Aborted, or the closing barrier has been posted. -/
  ended : Bool
  deriving DecidableEq, Repr

/-- A fused-instruction record (R331, FI_REC). -/
structure FiRec where
  op : Nat
  engine : Nat
  wick : Nat
  job : Nat
  comm : Nat
  seq : Nat
  chunk0 : Nat
  nchunk : Nat
  /-- Long operation and LS address of the operand block. -/
  lop : Nat
  block : Nat
  prov : Bool
  provLs : Nat
  provOut : Nat
  posted : Nat
  ends : List ChunkEnd
  /-- Error of the issue or of a CA2A run: STATUS, AERR, DETAIL. -/
  fail : Option (Nat × Nat × Nat)
  run : Option PhaseRun
  /-- Release time T that the instruction waits for (R343). -/
  release : Option Nat
  digest : List Byte
  deriving DecidableEq, Repr

/-- Fused state of a quadrant: its records, the posts on the control ring toward it, and the posts that wait for a slot. -/
structure FiSt where
  recs : Tbl (Option FiRec)
  ring : List Post
  queue : List Post
  deriving DecidableEq, Repr

/-- No fused instruction. -/
def FiSt.init : FiSt := ⟨[], [], []⟩

/-! ### Collective engine (chapters 08 and 09) -/

/-- A block of a chunk (R228): CEMAX none stands for 0x8000. -/
structure BlockSt where
  anchor : Int
  ovf : Bool
  cemax : Option Int
  pass2 : Bool
  count : Nat
  deriving DecidableEq, Repr

/-- A CRSU task (R348 to R352): phase 0 waiting, 1 loading, 2 running, 3 writing back, 4 done. -/
structure TaskSt where
  phase : Nat
  engine : Nat
  wick : Nat
  /-- Bytes read: P_IN and the state slots. -/
  pIn : List Byte
  s0In : List Byte
  s1In : List Byte
  /-- P_OUT bytes to send down. -/
  pOut : List Byte
  deriving DecidableEq, Repr

/-- A chunk in a slot record (R253, R262 to R278). -/
structure SlotSt where
  /-- R262. -/
  state : Nat
  job : Nat
  comm : Nat
  seq : Nat
  chunk : Nat
  epoch : Nat
  expect : Nat
  downGrp : Nat
  downDst : Nat
  home : Nat
  salt : Nat
  slotMin : Nat
  slotMax : Nat
  /-- The descriptor's words 1 and 2. -/
  d1 : Word
  d2 : Word
  /-- POSTED as it acts (R263). -/
  posted : Bool
  /-- Recorded signatures, the descriptor's first, each with its links in order of arrival (R269). -/
  sigs : List (Nat × List Nat)
  /-- Blocks of a chunk with elements; the single count of a count-only chunk. -/
  blocks : List BlockSt
  count : Nat
  expCount : Nat
  /-- Accumulators by element, W-bit patterns or keys; none where no contribution supplied the element. -/
  acc : Tbl (Option Nat)
  /-- Special codes by element. -/
  spec : Tbl Nat
  maxVc : Nat
  ovfDrop : Nat
  pass2 : Bool
  tFirst : Option Nat
  tLast : Option Nat
  lastLink : Nat
  lastMember : Nat
  lateLogged : Bool
  /-- CSTATUS of a poisoned chunk. -/
  cause : Nat
  post : Option Post
  /-- Links that acknowledged a broadcast. -/
  acked : List Nat
  /-- The chunk has been in BCS_HOLD (R286). -/
  wasHeld : Bool
  /-- Its instruction has counted it done (R335). -/
  told : Bool
  /-- Its first NOT_MEMBER_DROP has been logged (R251). -/
  nmLogged : Bool
  /-- CGAT packets that wait for the post: head and payload. -/
  gather : List (List Byte × List Byte)
  /-- Bytes of a broadcast read so far, by offset. -/
  data : Tbl Byte
  /-- Step of the delivery: 0 nothing left to start, 1 a spilled chunk's accumulators are being read back, 2 the action's
  accesses are awaited, 3 tasks run. -/
  stage : Nat
  aerr : Nat
  detail : Nat
  gatherLogged : Bool
  /-- R353. -/
  stopped : Bool
  /-- An epoch fence waits for this chunk's accesses (R281). -/
  fenced : Bool
  /-- Packets of the delivery formed so far, and whether those that have not left leave stomped (R289). -/
  formed : Nat := 0
  stomp : Bool := false
  /-- Result payload for the result slots (R440). -/
  result : List Byte
  tasks : List TaskSt
  din : List Byte
  dw : List Byte
  deriving DecidableEq, Repr

/-- A collective engine: its records, the completion ring, keys whose first NOT_MEMBER_DROP or LATE_CONTRIB has been logged
while no chunk held them (R251, R268, R290), marked where the chunk logged for has been released, whether the ring's threshold interrupt has been raised (R190), and SPILL_SLOTS and
CE_SPILL_BASE as applied (R261). -/
structure CeSt where
  slots : Tbl (Option SlotSt)
  ring : Tbl (List Byte)
  logged : List (Bool × Bool × List Nat)
  fired : Bool
  spill : Nat
  spillBase : Nat
  deriving DecidableEq, Repr

/-- An engine after reset. -/
def CeSt.init : CeSt := ⟨[], [], [], false, 0, 0⟩

/-! ### Lantern (chapter 10) -/

/-- What a wick in WAIT_SYN waits for (R294). -/
inductive WaitFor where
  | none
  | counters (sel limit : Nat)
  | time (t : Nat)
  | event
  | message
  deriving DecidableEq, Repr

/-- A wick (R293). -/
structure WickSt where
  sregs : List DWord
  vregs : List (BitVec 512)
  pregs : List (BitVec 16)
  pc : BitVec 18
  oc : List Nat
  ev : Bool
  /-- FP sticky flags: INV 1, DZ 2, OVF 4, UNF 8. -/
  fp : Nat
  /-- R294's code. -/
  state : Nat
  /-- Registers awaiting a long operation: scalar registers, then vector registers at bit 32. -/
  busy : BitVec 48
  wait : WaitFor
  /-- Hash state and whether it is SHA3-512's (R321). -/
  hash : Option (Bool × Sponge)
  /-- Instructions issued without yielding (R295). -/
  quantum : Nat
  /-- HALT with MOD[0] (R319). -/
  haltInt : Bool
  /-- CRSU task it runs: slot and task (R349). -/
  task : Option (Nat × Nat)
  deriving DecidableEq, Repr

/-- A wick after the cluster's reset (R293). -/
def WickSt.init : WickSt where
  sregs := List.replicate 32 0
  vregs := List.replicate 16 0
  pregs := List.replicate 8 0
  pc := 0
  oc := [0, 0, 0, 0]
  ev := false
  fp := 0
  state := 0
  busy := 0
  wait := .none
  hash := none
  quantum := 0
  haltInt := false
  task := none

/-- How a long operation has ended: a fault code of R322 (0 none), the faulting address, and the data it delivers. -/
structure OpEnd where
  fault : Nat
  addr : Nat
  data : List Byte
  deriving DecidableEq, Repr

/-- What a long operation does with its end (R298, R300). -/
inductive OpKind where
  /-- LDI: destination, size code, sign extension. -/
  | load (d : Nat) (size : Nat) (sx : Bool)
  | store
  /-- IGLD into an LS address. -/
  | igld (ls len : Nat)
  /-- IGST from an LS address. -/
  | igst (ls len : Nat)
  | atom (d : Nat) (wide : Bool)
  /-- PWR from an LS address, with its RTAG. -/
  | pwr (ls len rtag : Nat)
  /-- SEND from an LS address, with its header. -/
  | send (ls len : Nat) (head : List Byte)
  /-- RECV into an LS address: destination, any wick. -/
  | recv (ls d : Nat) (any : Bool)
  /-- HASH of LS bytes: SHA3-512, START, FINAL and its digest's address. -/
  | hash (ls len : Nat) (wide start final : Bool) (out : Nat)
  | lpc (d : Nat)
  /-- A COL instruction with its record, or ended at issue. -/
  | col (d rec : Nat)
  deriving DecidableEq, Repr

/-- A long operation (R298): its counter and, once it has ended, its result; `dirty` lists the LS ranges of the operation
that the program touched too early (R305). -/
structure LongOp where
  id : Nat
  engine : Nat
  wick : Nat
  ctr : Nat
  kind : OpKind
  /-- Index of its instruction. -/
  fpc : Nat
  /-- It holds a Lantern tag (R301). -/
  tag : Bool
  fin : Option OpEnd
  dirty : List (Nat × Nat)
  deriving DecidableEq, Repr

/-- The Lantern cluster of a quadrant: wicks by 32e + w, LS bytes by 2^18·e + address, the code store, issuing wicks by
engine, queued messages as (engine, wick, packet), long operations oldest first, rotating tag pointers by engine and of the
cluster, and outstanding PEER_WR tags: RTAG and the long operation or slot (with task) they belong to. -/
structure LxSt where
  wicks : Tbl WickSt
  ls : Tbl Byte
  code : Tbl Byte
  cur : Tbl Nat
  msgs : List (Nat × Nat × UPkt)
  ops : List LongOp
  tagPtr : Tbl Nat
  engPtr : Nat
  /-- Task dispatch pointers: engine, and wick by engine (R349). -/
  taskEng : Nat
  taskWick : Tbl Nat
  deriving DecidableEq, Repr

/-- A cluster after reset. -/
def LxSt.init : LxSt := ⟨[], [], [], [], [], [], [], 0, 0, []⟩

/-- Who awaits a PEER_ACK: a long operation, or a slot (R316, R355). -/
inductive AckOwner where
  | op (id : Nat)
  | slot (r : Nat)
  deriving DecidableEq, Repr

/-- PEER_WRs of a quadrant that await their PEER_ACK: RTAG[13:0], the link, the owner (R144). -/
structure PeerSt where
  next : Nat
  out : List (Nat × Nat × AckOwner)
  deriving DecidableEq, Repr

/-- No PEER_WR outstanding. -/
def PeerSt.init : PeerSt := ⟨0, []⟩

end Sys2Proof.Machine
end

