-- ==== Sys2Proof/Machine/RegMap.lean ====
section
/-!
DEFINITION. The register map of the EMK1024 as the register sections of the spec give it: for every register its BAR0
offset, its instance strides, its software-writable bits, its reset value and its reset domain; one address function per
register (`Reg.`) and per statistics counter (`Ctr.`).  An address is a BAR0 byte offset.
-/
namespace Sys2Proof

/-- Reset domains of R18's presentation table and R425: POR, WARM, UNIT, and the host interface unit. -/
inductive Domain where
  | por | warm | unit | hif
  deriving DecidableEq, Repr

/-- How a register's reset value is given: a constant, or one of the values the spec computes from fuses or an index. -/
inductive ResetRule where
  | const (w : Word)
  | capUnits | secFuse | unitState | tcMap | xbCal
  deriving DecidableEq, Repr

/-- One row of the register map: a register or a family of like registers (`dims`: count and stride of each index). -/
structure RDef where
  name : String
  quad : Bool
  off : Nat
  dims : List (Nat × Nat)
  rw : Word
  reset : ResetRule
  dom : Domain
  deriving DecidableEq, Repr

/-- BAR0 offset of the block of quadrant `q` (R420). -/
def quadBase (q : Nat) : Nat := 0x1000000 + q * 0x800000


/-- CAP_UNITS: [31:28] PART_CODE, [27:16] IG_PRESENT, [15:12] LC_PRESENT, [8] ALLOY_PRESENT, [7] PERS_FUSED_OK, [6] PERS_SWITCH_OK, [3:0] STEPPING (R9). -/
def Reg.capUnits : Nat := 0x10

/-- SD_PERSONALITY: [17:16] ACTIVE, [1:0] NEXT (R30). -/
def Reg.sdPersonality : Nat := 0x20

/-- CLK_STATUS: [23:20] QD_MESO_GUARD, [19:16] QD_CLK_OK, [15:4] IG_CLK_OK, [1] ROOT_LOCK, [0] XTAL_OK (R41). -/
def Reg.clkStatus : Nat := 0x40

/-- PWR_STATUS: [31] PWR_GOOD, [30] RAIL_FAULT, [15:0] VIN (R444). -/
def Reg.pwrStatus : Nat := 0x60

/-- PWR_FEED: [31] FEED_A_OK, [30] FEED_B_OK, [29] S0_MATED, [15:0] IIN (R496). -/
def Reg.pwrFeed : Nat := 0x64

/-- FAULT_STATUS: [31] DEV_FAULT, [15:0] DEV_CODE (R490). -/
def Reg.faultStatus : Nat := 0x80

/-- FAULT_TIME_LO: [31:0] T (R490). -/
def Reg.faultTimeLo : Nat := 0x88

/-- FAULT_TIME_HI: [31:0] T (R490). -/
def Reg.faultTimeHi : Nat := 0x8c

/-- PMC_GLOBAL: [0] GRUN (R469). -/
def Reg.pmcGlobal : Nat := 0x90

/-- BOOT_STATUS: [25:24] SRC, [23:16] LAST_ERR, [15:0] STAGE (R450). -/
def Reg.bootStatus : Nat := 0x100

/-- BOOT_CMD: [1] GO_PEER, [0] GO_HOST (R451). -/
def Reg.bootCmd : Nat := 0x104

/-- BOOT_CFG: [31] PEER_EN, [30] BUSY, [15:8] HOST_WAIT, [6:0] BOOT_FIBER (R456). -/
def Reg.bootCfg : Nat := 0x108

/-- BOOT_SRV: [31] EN, [6:0] FIBER (R457). -/
def Reg.bootSrv (i : Nat) : Nat := 0x110 + i * 0x4

/-- SD_RESET: [31:0] SEQ (R449). -/
def Reg.sdReset : Nat := 0x120

/-- RST_CAUSE: [3:0] CAUSE (R448). -/
def Reg.rstCause : Nat := 0x124

/-- UR_CMD: [31:28] KIND, [27:26] OP, [25] FORCE, [15:0] INDEX (R463). -/
def Reg.urCmd : Nat := 0x200

/-- UR_STATUS: [31] BUSY, [3:0] RESULT (R463). -/
def Reg.urStatus : Nat := 0x204

/-- UNIT_STATE: [31:28] STATE, [23:16] CAUSE, [15:8] RESETS (R462). -/
def Reg.unitState (i : Nat) : Nat := 0x400 + i * 0x4

/-- DMA_ARB_CFG: [31] FREEZE, [23:0] STARVE_LIMIT (R214). -/
def Reg.dmaArbCfg : Nat := 0x4000

/-- DMA_ARB_SEED: [31:0] SEED (R210). -/
def Reg.dmaArbSeed : Nat := 0x4004

/-- DMA_ARB_LFSR: [31:0] LFSR (R210). -/
def Reg.dmaArbLfsr : Nat := 0x4008

/-- DMA_ARB_STATUS: [31] DRAINED, [7:0] CAL_PTR (R214). -/
def Reg.dmaArbStatus : Nat := 0x400c

/-- DMA_ARB_STARVE: [31:0] STARVE (R215). -/
def Reg.dmaArbStarve : Nat := 0x4010

/-- DMA_ARB_TICKETS: [31:0] TICKETS (R208). -/
def Reg.dmaArbTickets (i : Nat) : Nat := 0x4020 + i * 0x4

/-- DMA_ARB_CAL: [31:0] OWNER (R208). -/
def Reg.dmaArbCal (i : Nat) : Nat := 0x4100 + i * 0x4

/-- MSIX_ADDR_LO: [31:0] ADDR (R417). -/
def Reg.msixAddrLo (i : Nat) : Nat := 0x10000 + i * 0x10

/-- MSIX_ADDR_HI: [31:0] ADDR (R417). -/
def Reg.msixAddrHi (i : Nat) : Nat := 0x10004 + i * 0x10

/-- MSIX_DATA: [31:0] DATA (R417). -/
def Reg.msixData (i : Nat) : Nat := 0x10008 + i * 0x10

/-- MSIX_CTRL: [0] MASK (R436). -/
def Reg.msixCtrl (i : Nat) : Nat := 0x1000c + i * 0x10

/-- MSIX_PBA: [31:0] PENDING (R436). -/
def Reg.msixPba (i : Nat) : Nat := 0x18000 + i * 0x4

/-- INT_MAP: [31] EN, [23:16] COUNT, [10:0] VECTOR (R436). -/
def Reg.intMap (i : Nat) : Nat := 0x20000 + i * 0x4

/-- WIN0: [31] EN (R428). -/
def Reg.win0 (i : Nat) : Nat := 0x21000 + i * 0x10

/-- WIN1: [31:12] BASE_LO (R428). -/
def Reg.win1 (i : Nat) : Nat := 0x21004 + i * 0x10

/-- WIN2: [8:0] BASE_HI (R428). -/
def Reg.win2 (i : Nat) : Nat := 0x21008 + i * 0x10

/-- HIF_STATUS: [31] LINK_UP, [30] SB_LOST, [29] PERST_N, [28] HOST_PRESENT, [27] WAKE, [8:0] S0_LANES (R414). -/
def Reg.hifStatus : Nat := 0x22000

/-- RS_SNAP: [0] SNAP (R427). -/
def Reg.rsSnap : Nat := 0x227fc

/-- JOB_EPOCH: [31] JOB_HOLD, [15:0] EPOCH (R280). -/
def Reg.jobEpoch (i : Nat) : Nat := 0x60000 + i * 0x4

/-- COMM0: [31] VALID, [27:16] JOB, [15:14] QBASE, [13:12] QSPAN, [11:0] DOWN_GRP (R249). -/
def Reg.comm0 (i : Nat) : Nat := 0x80000 + i * 0x40

/-- COMM1: [20:0] EXPECT (R253). -/
def Reg.comm1 (i : Nat) : Nat := 0x80004 + i * 0x40

/-- COMM2: [23:0] DOWN_DST (R253). -/
def Reg.comm2 (i : Nat) : Nat := 0x80008 + i * 0x40

/-- COMM3: [23:12] SLOT_MAX, [11:0] SLOT_MIN (R257). -/
def Reg.comm3 (i : Nat) : Nat := 0x8000c + i * 0x40

/-- COMM4: [15:0] HOME_MEMBER (R253). -/
def Reg.comm4 (i : Nat) : Nat := 0x80010 + i * 0x40

/-- COMM5: [31:0] SALT (R255). -/
def Reg.comm5 (i : Nat) : Nat := 0x80014 + i * 0x40

/-- COMM6: [31:0] DSEQ0 (R252). -/
def Reg.comm6 (i : Nat) : Nat := 0x80018 + i * 0x40

/-- COMM7: [31:28] ACTION, [27:24] RFMT, [23:20] FMT, [19:16] OP, [15] ACC64, [14:13] POLICY, [12:11] RMODE, [10] SAT, [9] POSTED (R252). -/
def Reg.comm7 (i : Nat) : Nat := 0x8001c + i * 0x40

/-- COMM8: [31:20] A0, [14:0] CAPACITY (R252). -/
def Reg.comm8 (i : Nat) : Nat := 0x80020 + i * 0x40

/-- COMM9: [31:0] DSEQ1 (R252). -/
def Reg.comm9 (i : Nat) : Nat := 0x80024 + i * 0x40

/-- COMM10: [31:28] ACTION, [27:24] RFMT, [23:20] FMT, [19:16] OP, [15] ACC64, [14:13] POLICY, [12:11] RMODE, [10] SAT, [9] POSTED (R252). -/
def Reg.comm10 (i : Nat) : Nat := 0x80028 + i * 0x40

/-- COMM11: [31:20] A0, [14:0] CAPACITY (R252). -/
def Reg.comm11 (i : Nat) : Nat := 0x8002c + i * 0x40

/-- RGN0: [31] VALID, [30] R, [29] W, [28] A, [27] MIRROR, [11:0] JOB (R307). -/
def Reg.rgn0 (i : Nat) : Nat := 0xc0000 + i * 0x20

/-- RGN1: [31:12] BASE_LO (R307). -/
def Reg.rgn1 (i : Nat) : Nat := 0xc0004 + i * 0x20

/-- RGN2: [8:0] BASE_HI (R307). -/
def Reg.rgn2 (i : Nat) : Nat := 0xc0008 + i * 0x20

/-- RGN3: [28:0] SIZE (R307). -/
def Reg.rgn3 (i : Nat) : Nat := 0xc000c + i * 0x20

/-- RGN4: [11:0] STACKS (R307). -/
def Reg.rgn4 (i : Nat) : Nat := 0xc0010 + i * 0x20

/-- RGN5: [6:0] MIRROR_FIBER (R316). -/
def Reg.rgn5 (i : Nat) : Nat := 0xc0014 + i * 0x20

/-- RGN_STATUS: [31] REGION_REJ, [23:16] REJ_SEQ, [3:0] REJ_CAUSE (R307). -/
def Reg.rgnStatus : Nat := 0xc2000

/-- RGN_MEM: [31:30] ROLE, [29] EFENCE (R386). -/
def Reg.rgnMem (i : Nat) : Nat := 0xc3000 + i * 0x4

/-- TIME_CFG: [31] GM, [30] SERVO_EN, [29] STEP_EN, [19:16] SYNC_LOG, [9:0] SERVO_SRC (R403). -/
def Reg.timeCfg : Nat := 0x100000

/-- TIME_SERVO: [31:16] KP, [15:0] KI (R403). -/
def Reg.timeServo : Nat := 0x100004

/-- TIME_THRESH: [31:24] HOLD_TIMEOUT, [15:0] LOCK_THRESH (R404). -/
def Reg.timeThresh : Nat := 0x100008

/-- STEP_THRESH: [31:0] T (R403). -/
def Reg.stepThresh : Nat := 0x10000c

/-- RTT_DEFAULT: [23:0] T (R402). -/
def Reg.rttDefault : Nat := 0x100010

/-- TIME_READ_FRAC: [15:0] F (R393). -/
def Reg.timeReadFrac : Nat := 0x100020

/-- TIME_READ_LO: [31:0] T (R393). -/
def Reg.timeReadLo : Nat := 0x100024

/-- TIME_READ_HI: [31:0] T (R393). -/
def Reg.timeReadHi : Nat := 0x100028

/-- LOCAL_READ_LO: [31:0] T (R393). -/
def Reg.localReadLo : Nat := 0x10002c

/-- LOCAL_READ_HI: [31:0] T (R393). -/
def Reg.localReadHi : Nat := 0x100030

/-- OFFSET_FRAC: [15:0] F (R394). -/
def Reg.offsetFrac : Nat := 0x100040

/-- OFFSET_LO: [31:0] T (R394). -/
def Reg.offsetLo : Nat := 0x100044

/-- OFFSET_HI: [31:0] T (R394). -/
def Reg.offsetHi : Nat := 0x100048

/-- RATE_LO: [31:0] R (R394). -/
def Reg.rateLo : Nat := 0x100050

/-- RATE_HI: [7:0] R (R394). -/
def Reg.rateHi : Nat := 0x100054

/-- SET_FRAC: [15:0] F (R405). -/
def Reg.setFrac : Nat := 0x100060

/-- SET_LO: [31:0] T (R405). -/
def Reg.setLo : Nat := 0x100064

/-- SET_HI: [31:0] T (R405). -/
def Reg.setHi : Nat := 0x100068

/-- TSTEP_LO: [31:0] S (R405). -/
def Reg.tstepLo : Nat := 0x100070

/-- TSTEP_HI: [15:0] S (R405). -/
def Reg.tstepHi : Nat := 0x100074

/-- RSET_LO: [31:0] R (R405). -/
def Reg.rsetLo : Nat := 0x100078

/-- RSET_HI: [7:0] R (R405). -/
def Reg.rsetHi : Nat := 0x10007c

/-- TIME_STATUS: [31] TIME_LOCKED, [30] TIME_HOLDOVER, [29:28] STATE, [23:16] STEPS_REMOVED (R404). -/
def Reg.timeStatus : Nat := 0x100090

/-- MASTER_EPID: [23:0] EPID (R406). -/
def Reg.masterEpid : Nat := 0x100094

/-- LAST_VALID_AGE_LO: [31:0] T (R406). -/
def Reg.lastValidAgeLo : Nat := 0x100098

/-- LAST_VALID_AGE_HI: [15:0] T (R406). -/
def Reg.lastValidAgeHi : Nat := 0x10009c

/-- LAST_THETA: [31:0] T (R403). -/
def Reg.lastTheta : Nat := 0x1000a0

/-- TIME_SNAP: [0] SNAP (R427). -/
def Reg.timeSnap : Nat := 0x1007fc

/-- LOG_CFG: [31] STOP, [30] MGT_EN, [29:27] MGT_MIN_CLASS (R482). -/
def Reg.logCfg : Nat := 0x200000

/-- LOG_WR: [15:0] WR (R479). -/
def Reg.logWr : Nat := 0x200004

/-- LOG_PI: [15:0] PI (R479). -/
def Reg.logPi : Nat := 0x200008

/-- LOG_CI: [15:0] CI (R482). -/
def Reg.logCi : Nat := 0x20000c

/-- LOG_THRESH: [14:0] THRESH (R483). -/
def Reg.logThresh : Nat := 0x200010

/-- LOG_STATUS: [0] FULL (R479). -/
def Reg.logStatus : Nat := 0x200014

/-- LOG_MGT_DST: [23:0] DST (R485). -/
def Reg.logMgtDst : Nat := 0x200018

/-- LOG_MGT_JOB: [11:0] JOB (R485). -/
def Reg.logMgtJob : Nat := 0x20001c

/-- LOG_SNAP: [0] SNAP (R427). -/
def Reg.logSnap : Nat := 0x2007fc

/-- SEC_STATUS: [31] BUSY, [3:0] RESULT (R461). -/
def Reg.secStatus : Nat := 0x400000

/-- SEC_CMD: [3:0] OP (R460). -/
def Reg.secCmd : Nat := 0x400004

/-- SEC_FUSE: [31] OWNER_REQ, [30] ENROLLED, [7:0] ROLLBACK (R454). -/
def Reg.secFuse : Nat := 0x400008

/-- SEC_ARG: [31:0] ARG (R455). -/
def Reg.secArg (i : Nat) : Nat := 0x400100 + i * 0x4

/-- ATT_NONCE: [31:0] NONCE (R460). -/
def Reg.attNonce (i : Nat) : Nat := 0x400200 + i * 0x4

/-- FW_DIGEST: [31:0] DIGEST (R452). -/
def Reg.fwDigest (i : Nat) : Nat := 0x400300 + i * 0x4

/-- SEC_SNAP: [0] SNAP (R427). -/
def Reg.secSnap : Nat := 0x4007fc

/-- CAL_CTRL: [1] PROGRAM, [0] EXPORT (R105). -/
def Reg.calCtrl : Nat := 0x800000

/-- CAL_UNLOCK: [31:0] KEY (R105). -/
def Reg.calUnlock : Nat := 0x800004

/-- CAL_STATUS: [31] CAL_BAD, [30] UNLOCKED, [29] BUSY, [28] EXPORT_DONE, [27] PROG_DONE, [26:24] PROG_ERR, [0] ORIGIN (R104). -/
def Reg.calStatus : Nat := 0x800010

/-- FT_CFG: [31] EN, [27:26] MODE, [25:24] WIDTH, [23:20] MIN_LANES, [2] ROT_FAIL_POLICY, [1] ROT_EN (R75). -/
def Reg.ftCfg (q i : Nat) : Nat := quadBase q + 0x0 + i * 0x1000

/-- FT_DARK: [7:0] DARK_PERIOD (R76). -/
def Reg.ftDark (q i : Nat) : Nat := quadBase q + 0x4 + i * 0x1000

/-- FT_STATUS: [31:28] DARK_SLOT, [27] CAL_READY, [26] SWAP_BUSY, [25] ROT_HOLD, [24] ROT_STALL, [23] W8_LENT, [22:20] W8_LINK (R66). -/
def Reg.ftStatus (q i : Nat) : Nat := quadBase q + 0x10 + i * 0x1000

/-- FT_LANE: [26:18] FAILED, [17:0] SLOT_STATE (R71). -/
def Reg.ftLane (q i : Nat) : Nat := quadBase q + 0x14 + i * 0x1000

/-- FT_LINK: [31:29] STATE, [28:25] LANES, [24] NARROW, [23] PARTNER_ERR, [22] DESKEW_ERR (R57). -/
def Reg.ftLink (q i j : Nat) : Nat := quadBase q + 0x20 + i * 0x1000 + j * 0x4

/-- FT_MAP: [31:0] MAP (R60). -/
def Reg.ftMap (q i j : Nat) : Nat := quadBase q + 0x40 + i * 0x1000 + j * 0x4

/-- FT_SNAP: [0] SNAP (R427). -/
def Reg.ftSnap (q i : Nat) : Nat := quadBase q + 0xfc + i * 0x1000

/-- LL_CFG: [23:16] REPLAY_TIMEOUT, [3:0] REPLAY_LIMIT (R120). -/
def Reg.llCfg (q i : Nat) : Nat := quadBase q + 0x300 + i * 0x1000

/-- LL_STATUS: [31:20] TX_GSEQ, [19:8] RX_GSEQ, [7] REPLAYING, [6:0] CRED_LOW (R109). -/
def Reg.llStatus (q i j : Nat) : Nat := quadBase q + 0x320 + i * 0x1000 + j * 0x4

/-- LL_CRED: [31:16] TX_CRED, [15:0] ADV (R136). -/
def Reg.llCred (q i j k : Nat) : Nat := quadBase q + 0x400 + i * 0x1000 + j * 0x20 + k * 0x4

/-- TP_CFG: [2] SWMODE, [1:0] ROLE (R400). -/
def Reg.tpCfg (q i j : Nat) : Nat := quadBase q + 0x600 + i * 0x1000 + j * 0x20

/-- TP_CORR: [31:16] CORR_RX, [15:0] CORR_TX (R401). -/
def Reg.tpCorr (q i j : Nat) : Nat := quadBase q + 0x604 + i * 0x1000 + j * 0x20

/-- TP_STATUS: [31] EXCH_OK, [15:0] SEQID (R401). -/
def Reg.tpStatus (q i j : Nat) : Nat := quadBase q + 0x608 + i * 0x1000 + j * 0x20

/-- TP_RTT: [31:0] RTT_EST (R402). -/
def Reg.tpRtt (q i j : Nat) : Nat := quadBase q + 0x60c + i * 0x1000 + j * 0x20

/-- TP_THETA: [31:0] THETA (R401). -/
def Reg.tpTheta (q i j : Nat) : Nat := quadBase q + 0x610 + i * 0x1000 + j * 0x20

/-- TP_MPD: [31:0] MPD (R401). -/
def Reg.tpMpd (q i j : Nat) : Nat := quadBase q + 0x614 + i * 0x1000 + j * 0x20

/-- SC_CFG: [31] TRANSIT_EN, [23:16] TRANSIT_BIAS, [15:8] LINK_WAIT (R148). -/
def Reg.scCfg (q : Nat) : Nat := quadBase q + 0x40000

/-- SC_POOL: [31:16] MC_POOL, [15:0] ORIGIN_POOL (R171). -/
def Reg.scPool (q : Nat) : Nat := quadBase q + 0x40004

/-- SC_BUDGET: [21:0] COMMITTED (R142). -/
def Reg.scBudget (q : Nat) : Nat := quadBase q + 0x40008

/-- SC_STATUS: [4] REF_BR_FULL, [3] BUDGET_CUT, [2] MC_POOL_FULL, [1] ORIGIN_POOL_FULL, [0] REF_FULL (R160). -/
def Reg.scStatus (q : Nat) : Nat := quadBase q + 0x4000c

/-- XB_CFG: [31:16] XB_LINK_CAP (R155). -/
def Reg.xbCfg (q i : Nat) : Nat := quadBase q + 0x40040 + i * 0x4

/-- XB_ADV: [31:16] TX_CRED, [15:0] ADV (R154). -/
def Reg.xbAdv (q i j : Nat) : Nat := quadBase q + 0x40080 + i * 0x20 + j * 0x4

/-- SC_SNAP: [0] SNAP (R427). -/
def Reg.scSnap (q : Nat) : Nat := quadBase q + 0x407fc

/-- SC_LINKSTAT: [31] EG_MUTED, [30] HOT, [21:0] BACKLOG (R162). -/
def Reg.scLinkstat (q i : Nat) : Nat := quadBase q + 0x41000 + i * 0x4

/-- MCG0: [31] VALID, [30] SHARED, [10:0] COUNT (R159). -/
def Reg.mcg0 (q i : Nat) : Nat := quadBase q + 0x300000 + i * 0x100

/-- MCG_LINKS: [31:0] LINKS (R172). -/
def Reg.mcgLinks (q i j : Nat) : Nat := quadBase q + 0x300080 + i * 0x100 + j * 0x4

/-- FWD_CFG: [31] FLOOD_EN, [30] AGE_EN, [29] AGE_REMOVE, [28] LEARN_EN, [27:16] FLOOD_GRP, [15] MOVE_EN, [14:0] AGE_LIMIT (R176). -/
def Reg.fwdCfg (q : Nat) : Nat := quadBase q + 0x100000

/-- FWD_HASH: [23:1] HASH_K, [0] ONE (R181). -/
def Reg.fwdHash (q : Nat) : Nat := quadBase q + 0x100004

/-- FWD_LEARN: [15:0] LEARN_HOLD (R187). -/
def Reg.fwdLearn (q : Nat) : Nat := quadBase q + 0x100008

/-- FWD_KEY: [31] VALID, [23:0] DST (R183). -/
def Reg.fwdKey (q : Nat) : Nat := quadBase q + 0x100010

/-- FWD_DATA: [31] PIN, [30] MC, [29] AGED, [27:16] TARGET, [15:0] TS (R183). -/
def Reg.fwdData (q : Nat) : Nat := quadBase q + 0x100014

/-- FWD_LOC: [19:0] LOC (R185). -/
def Reg.fwdLoc (q : Nat) : Nat := quadBase q + 0x100018

/-- FWD_CMD: [3:0] OP (R185). -/
def Reg.fwdCmd (q : Nat) : Nat := quadBase q + 0x10001c

/-- FWD_CMD_STATUS: [31] BUSY, [30] CMD_OVERRUN, [23:16] OVERRUN_SEQ, [3:0] RESULT (R185). -/
def Reg.fwdCmdStatus (q : Nat) : Nat := quadBase q + 0x100020

/-- FWD_USED: [19:0] BUCKET_USED (R181). -/
def Reg.fwdUsed (q : Nat) : Nat := quadBase q + 0x100024

/-- FWD_OVF_USED: [13:0] OVF_USED (R181). -/
def Reg.fwdOvfUsed (q : Nat) : Nat := quadBase q + 0x100028

/-- FWD_STATUS: [2] NOTICE_OVF, [1] NOTICE_PENDING, [0] OVF_FULL (R188). -/
def Reg.fwdStatus (q : Nat) : Nat := quadBase q + 0x10002c

/-- FWD_NR_PI: [12:0] PI (R188). -/
def Reg.fwdNrPi (q : Nat) : Nat := quadBase q + 0x100030

/-- FWD_NR_CI: [12:0] CI (R188). -/
def Reg.fwdNrCi (q : Nat) : Nat := quadBase q + 0x100034

/-- FWD_NR_THRESH: [12:0] THRESH (R190). -/
def Reg.fwdNrThresh (q : Nat) : Nat := quadBase q + 0x100038

/-- FWD_SNAP: [0] SNAP (R427). -/
def Reg.fwdSnap (q : Nat) : Nat := quadBase q + 0x1007fc

/-- LSET0: [31] VALID, [4:0] COUNT (R184). -/
def Reg.lset0 (q i : Nat) : Nat := quadBase q + 0x140000 + i * 0x40

/-- LSET_LINK: [31] NONE1, [25:16] LINK1, [15] NONE0, [9:0] LINK0 (R184). -/
def Reg.lsetLink (q i j : Nat) : Nat := quadBase q + 0x140004 + i * 0x40 + j * 0x4

/-- TM_CFG: [31:16] YELLOW_THRESH, [15:0] RED_THRESH (R205). -/
def Reg.tmCfg (q : Nat) : Nat := quadBase q + 0x200000

/-- ECN_THRESH: [21:0] THRESH (R206). -/
def Reg.ecnThresh (q i : Nat) : Nat := quadBase q + 0x200014 + i * 0x4

/-- TC_MAP: [11:0] CLASS (R196). -/
def Reg.tcMap (q i : Nat) : Nat := quadBase q + 0x200034 + i * 0x4

/-- TM_DRR: [31] STRICT, [7:0] QUANTUM (R197). -/
def Reg.tmDrr (q i : Nat) : Nat := quadBase q + 0x200050 + i * 0x4

/-- CMAP_CFG: [31] TX_EN, [30:29] CMAP_PRI, [9:0] CMAP_INTERVAL (R216). -/
def Reg.cmapCfg (q : Nat) : Nat := quadBase q + 0x200080

/-- CMAP_DST: [23:0] DST (R218). -/
def Reg.cmapDst (q : Nat) : Nat := quadBase q + 0x200084

/-- CMAP_JOB: [11:0] JOB (R218). -/
def Reg.cmapJob (q : Nat) : Nat := quadBase q + 0x200088

/-- CMAP_SEQ: [31:0] SEQ (R219). -/
def Reg.cmapSeq (q : Nat) : Nat := quadBase q + 0x20008c

/-- TM_SNAP: [0] SNAP (R427). -/
def Reg.tmSnap (q : Nat) : Nat := quadBase q + 0x2007fc

/-- SHAPER0: [31] EN, [30] RESET_TO, [23:0] RATE (R198). -/
def Reg.shaper0 (q i j : Nat) : Nat := quadBase q + 0x210000 + i * 0x80 + j * 0x10

/-- SHAPER1: [19:0] BURST (R198). -/
def Reg.shaper1 (q i j : Nat) : Nat := quadBase q + 0x210004 + i * 0x80 + j * 0x10

/-- SHAPER2: [19:0] NEG_DEPTH (R198). -/
def Reg.shaper2 (q i j : Nat) : Nat := quadBase q + 0x210008 + i * 0x80 + j * 0x10

/-- SHAPER3: [31:0] CREDIT (R198). -/
def Reg.shaper3 (q i j : Nat) : Nat := quadBase q + 0x21000c + i * 0x80 + j * 0x10

/-- SH_OVH: [8:0] SHAPE_OVERHEAD (R199). -/
def Reg.shOvh (q i : Nat) : Nat := quadBase q + 0x218000 + i * 0x4

/-- METER0: [30] CAWARE, [27:0] CIR (R203). -/
def Reg.meter0 (q i : Nat) : Nat := quadBase q + 0x220000 + i * 0x40

/-- METER1: [27:0] EIR (R203). -/
def Reg.meter1 (q i : Nat) : Nat := quadBase q + 0x220004 + i * 0x40

/-- METER2: [23:0] CBS (R203). -/
def Reg.meter2 (q i : Nat) : Nat := quadBase q + 0x220008 + i * 0x40

/-- METER3: [23:0] EBS (R203). -/
def Reg.meter3 (q i : Nat) : Nat := quadBase q + 0x22000c + i * 0x40

/-- METER4: [7:0] PRECOL (R203). -/
def Reg.meter4 (q i : Nat) : Nat := quadBase q + 0x220010 + i * 0x40

/-- METER_TC: [23:0] TC_NOW (R203). -/
def Reg.meterTc (q i : Nat) : Nat := quadBase q + 0x220014 + i * 0x40

/-- METER_TE: [23:0] TE_NOW (R203). -/
def Reg.meterTe (q i : Nat) : Nat := quadBase q + 0x220018 + i * 0x40

/-- JOB_MTR: [31] EN, [7:0] GROUP (R202). -/
def Reg.jobMtr (q i : Nat) : Nat := quadBase q + 0x230000 + i * 0x4

/-- XB_ARB_CFG: [31] FREEZE, [23:0] STARVE_LIMIT (R214). -/
def Reg.xbArbCfg (q i : Nat) : Nat := quadBase q + 0x240000 + i * 0x200

/-- XB_ARB_SEED: [31:0] SEED (R210). -/
def Reg.xbArbSeed (q i : Nat) : Nat := quadBase q + 0x240004 + i * 0x200

/-- XB_ARB_LFSR: [31:0] LFSR (R210). -/
def Reg.xbArbLfsr (q i : Nat) : Nat := quadBase q + 0x240008 + i * 0x200

/-- XB_ARB_STATUS: [31] DRAINED, [7:0] CAL_PTR (R214). -/
def Reg.xbArbStatus (q i : Nat) : Nat := quadBase q + 0x24000c + i * 0x200

/-- XB_ARB_STARVE: [31:0] STARVE (R215). -/
def Reg.xbArbStarve (q i : Nat) : Nat := quadBase q + 0x240010 + i * 0x200

/-- XB_ARB_TICKETS: [23:0] TICKETS (R208). -/
def Reg.xbArbTickets (q i : Nat) : Nat := quadBase q + 0x240020 + i * 0x200

/-- XB_ARB_CAL: [31:0] OWNER (R208). -/
def Reg.xbArbCal (q i j : Nat) : Nat := quadBase q + 0x240100 + i * 0x200 + j * 0x4

/-- IG_ARB_CFG: [31] FREEZE, [23:0] STARVE_LIMIT (R214). -/
def Reg.igArbCfg (q i : Nat) : Nat := quadBase q + 0x240800 + i * 0x200

/-- IG_ARB_SEED: [31:0] SEED (R210). -/
def Reg.igArbSeed (q i : Nat) : Nat := quadBase q + 0x240804 + i * 0x200

/-- IG_ARB_LFSR: [31:0] LFSR (R210). -/
def Reg.igArbLfsr (q i : Nat) : Nat := quadBase q + 0x240808 + i * 0x200

/-- IG_ARB_STATUS: [31] DRAINED, [7:0] CAL_PTR (R214). -/
def Reg.igArbStatus (q i : Nat) : Nat := quadBase q + 0x24080c + i * 0x200

/-- IG_ARB_STARVE: [31:0] STARVE (R215). -/
def Reg.igArbStarve (q i : Nat) : Nat := quadBase q + 0x240810 + i * 0x200

/-- IG_ARB_TICKETS0: [31:0] TICKETS (R208). -/
def Reg.igArbTickets0 (q i : Nat) : Nat := quadBase q + 0x240820 + i * 0x200

/-- IG_ARB_TICKETS1: [7:0] TICKETS (R208). -/
def Reg.igArbTickets1 (q i : Nat) : Nat := quadBase q + 0x240824 + i * 0x200

/-- IG_ARB_CAL: [31:0] OWNER (R208). -/
def Reg.igArbCal (q i j : Nat) : Nat := quadBase q + 0x240900 + i * 0x200 + j * 0x4

/-- AP_ARB_CFG: [31] FREEZE, [23:0] STARVE_LIMIT (R214). -/
def Reg.apArbCfg (q : Nat) : Nat := quadBase q + 0x241000

/-- AP_ARB_SEED: [31:0] SEED (R210). -/
def Reg.apArbSeed (q : Nat) : Nat := quadBase q + 0x241004

/-- AP_ARB_LFSR: [31:0] LFSR (R210). -/
def Reg.apArbLfsr (q : Nat) : Nat := quadBase q + 0x241008

/-- AP_ARB_STATUS: [31] DRAINED, [7:0] CAL_PTR (R214). -/
def Reg.apArbStatus (q : Nat) : Nat := quadBase q + 0x24100c

/-- AP_ARB_STARVE: [31:0] STARVE (R215). -/
def Reg.apArbStarve (q : Nat) : Nat := quadBase q + 0x241010

/-- AP_ARB_TICKETS: [31:0] TICKETS (R208). -/
def Reg.apArbTickets (q i : Nat) : Nat := quadBase q + 0x241020 + i * 0x4

/-- AP_ARB_CAL: [31:0] OWNER (R208). -/
def Reg.apArbCal (q i : Nat) : Nat := quadBase q + 0x241100 + i * 0x4

/-- ALY_SNAP: [0] SNAP (R427). -/
def Reg.alySnap (q : Nat) : Nat := quadBase q + 0x4407fc

/-- CE_CFG: [31] CR_EN, [11:0] SPILL_SLOTS (R278). -/
def Reg.ceCfg (q : Nat) : Nat := quadBase q + 0x480000

/-- CE_SPILL_BASE_LO: [31:12] BASE (R256). -/
def Reg.ceSpillBaseLo (q : Nat) : Nat := quadBase q + 0x480008

/-- CE_SPILL_BASE_HI: [8:0] BASE (R256). -/
def Reg.ceSpillBaseHi (q : Nat) : Nat := quadBase q + 0x48000c

/-- CE_TIMEOUT: [23:0] BCS_TIMEOUT (R285). -/
def Reg.ceTimeout (q : Nat) : Nat := quadBase q + 0x480010

/-- CE_BEACON: [23:0] BEACON_MARGIN (R287). -/
def Reg.ceBeacon (q : Nat) : Nat := quadBase q + 0x480014

/-- CE_STATUS: [31] RESV_REJ, [23:16] RESV_SEQ, [4] FENCE_BUSY, [3] CR_OVF, [2] POST_WAIT, [1] SPILL_FULL, [0] SRAM_FULL (R261). -/
def Reg.ceStatus (q : Nat) : Nat := quadBase q + 0x480020

/-- CE_FREE: [27:16] SPILL_FREE, [10:0] SRAM_FREE (R257). -/
def Reg.ceFree (q : Nat) : Nat := quadBase q + 0x480024

/-- CE_OWED: [12:0] OWED (R257). -/
def Reg.ceOwed (q : Nat) : Nat := quadBase q + 0x480028

/-- CE_CR_PI: [12:0] PI (R278). -/
def Reg.ceCrPi (q : Nat) : Nat := quadBase q + 0x480030

/-- CE_CR_CI: [12:0] CI (R278). -/
def Reg.ceCrCi (q : Nat) : Nat := quadBase q + 0x480034

/-- CE_CR_THRESH: [12:0] THRESH (R278). -/
def Reg.ceCrThresh (q : Nat) : Nat := quadBase q + 0x480038

/-- CE_SNAP: [0] SNAP (R427). -/
def Reg.ceSnap (q : Nat) : Nat := quadBase q + 0x4807fc

/-- CE_SLOT: [31:0] RECORD (R262). -/
def Reg.ceSlot (q i j : Nat) : Nat := quadBase q + 0x490000 + i * 0x10 + j * 0x4

/-- CE_HIST: [31:0] BUCKET (R279). -/
def Reg.ceHist (q i j : Nat) : Nat := quadBase q + 0x780000 + i * 0x80 + j * 0x4

/-- FI_STATUS: [31] REC_FULL, [30] POSTQ_FULL, [8:0] REC_USED (R331). -/
def Reg.fiStatus (q : Nat) : Nat := quadBase q + 0x4c0000

/-- FI_SNAP: [0] SNAP (R427). -/
def Reg.fiSnap (q : Nat) : Nat := quadBase q + 0x4c07fc

/-- FI_REC: [31:0] RECORD (R331). -/
def Reg.fiRec (q i j : Nat) : Nat := quadBase q + 0x4c1000 + i * 0x20 + j * 0x4

/-- LX_CFG: [31] PERF_USER_EN, [15:0] LX_TAGS (R301). -/
def Reg.lxCfg (q : Nat) : Nat := quadBase q + 0x500000

/-- LX_STATUS: [31] TAGS_FULL, [30] MSGBUF_FULL, [15:0] TAGS_USED (R301). -/
def Reg.lxStatus (q : Nat) : Nat := quadBase q + 0x500004

/-- CS_RANGE0: [31] VALID, [30] MEASURING (R325). -/
def Reg.csRange0 (q i : Nat) : Nat := quadBase q + 0x500100 + i * 0x40

/-- CS_RANGE1: [17:0] BASE (R325). -/
def Reg.csRange1 (q i : Nat) : Nat := quadBase q + 0x500104 + i * 0x40

/-- CS_RANGE2: [18:0] LIMIT (R325). -/
def Reg.csRange2 (q i : Nat) : Nat := quadBase q + 0x500108 + i * 0x40

/-- CS_DIGEST: [31:0] DIGEST (R325). -/
def Reg.csDigest (q i j : Nat) : Nat := quadBase q + 0x500110 + i * 0x40 + j * 0x4

/-- LX_SNAP: [0] SNAP (R427). -/
def Reg.lxSnap (q : Nat) : Nat := quadBase q + 0x5007fc

/-- LE_CTRL: [0] RUN (R326). -/
def Reg.leCtrl (q i : Nat) : Nat := quadBase q + 0x510000 + i * 0x800

/-- LE_STATUS: [31] QUIESCED, [25:16] OPS_INFLIGHT, [5:0] MSG_QUEUED (R326). -/
def Reg.leStatus (q i : Nat) : Nat := quadBase q + 0x510004 + i * 0x800

/-- LE_CFG: [31] LPX_EN, [27:20] YIELD_QUANTUM, [19:16] CODE_RANGE, [11:0] JOB (R292). -/
def Reg.leCfg (q i : Nat) : Nat := quadBase q + 0x510008 + i * 0x800

/-- LE_TASK: [31:0] TASK_WICKS (R349). -/
def Reg.leTask (q i : Nat) : Nat := quadBase q + 0x51000c + i * 0x800

/-- WK_CTRL: [31] START, [30] KILL, [17:0] ENTRY (R293). -/
def Reg.wkCtrl (q i j : Nat) : Nat := quadBase q + 0x510100 + i * 0x800 + j * 0x20

/-- WK_STATE: [31:28] STATE, [27] EVFLAG, [17:0] PC (R294). -/
def Reg.wkState (q i j : Nat) : Nat := quadBase q + 0x510104 + i * 0x800 + j * 0x20

/-- WK_ARG_LO: [31:0] ARG (R293). -/
def Reg.wkArgLo (q i j : Nat) : Nat := quadBase q + 0x510108 + i * 0x800 + j * 0x20

/-- WK_ARG_HI: [31:0] ARG (R293). -/
def Reg.wkArgHi (q i j : Nat) : Nat := quadBase q + 0x51010c + i * 0x800 + j * 0x20

/-- WK_FAULT: [31] IMPRECISE, [25:8] FPC, [7:0] CODE (R322). -/
def Reg.wkFault (q i j : Nat) : Nat := quadBase q + 0x510110 + i * 0x800 + j * 0x20

/-- WK_TRAP: [15:0] TRAP_CODE (R321). -/
def Reg.wkTrap (q i j : Nat) : Nat := quadBase q + 0x510114 + i * 0x800 + j * 0x20

/-- WK_FADDR_LO: [31:0] FADDR (R323). -/
def Reg.wkFaddrLo (q i j : Nat) : Nat := quadBase q + 0x510118 + i * 0x800 + j * 0x20

/-- WK_FADDR_HI: [31:0] FADDR (R323). -/
def Reg.wkFaddrHi (q i j : Nat) : Nat := quadBase q + 0x51011c + i * 0x800 + j * 0x20

/-- TQ_TX: [31:0] W (R407). -/
def Reg.tqTx (q i : Nat) : Nat := quadBase q + 0x540000 + i * 0x4

/-- TQ_TX_CTL: [31:16] ID, [15] STAMP, [9:0] LINK (R407). -/
def Reg.tqTxCtl (q : Nat) : Nat := quadBase q + 0x540010

/-- TQ_STATUS: [2] TX_BUSY, [1] TSQ_OVF, [0] TRX_OVF (R408). -/
def Reg.tqStatus (q : Nat) : Nat := quadBase q + 0x540014

/-- TSQ_PI: [6:0] PI (R408). -/
def Reg.tsqPi (q : Nat) : Nat := quadBase q + 0x540020

/-- TSQ_CI: [6:0] CI (R408). -/
def Reg.tsqCi (q : Nat) : Nat := quadBase q + 0x540024

/-- TRX_PI: [6:0] PI (R408). -/
def Reg.trxPi (q : Nat) : Nat := quadBase q + 0x540028

/-- TRX_CI: [6:0] CI (R408). -/
def Reg.trxCi (q : Nat) : Nat := quadBase q + 0x54002c

/-- TQ_SNAP: [0] SNAP (R427). -/
def Reg.tqSnap (q : Nat) : Nat := quadBase q + 0x5407fc

/-- MS_CFG: [31] COMBINE_EN, [8:0] COMBINE_WINDOW (R379). -/
def Reg.msCfg (q : Nat) : Nat := quadBase q + 0x580000

/-- MS_TAGS: [15:0] MS_TAGS (R377). -/
def Reg.msTags (q : Nat) : Nat := quadBase q + 0x580004

/-- MS_STATUS: [31] TAGS_FULL, [30] COMB_FULL, [26:16] COMB_OPEN, [15:0] TAGS_USED (R377). -/
def Reg.msStatus (q : Nat) : Nat := quadBase q + 0x580008

/-- MS_SNAP: [0] SNAP (R427). -/
def Reg.msSnap (q : Nat) : Nat := quadBase q + 0x5807fc

/-- IG_CTRL: [31] OFFLINE, [30] SCRUB_EN, [20] DIE_MARKED, [19:16] MARK_DIE (R390). -/
def Reg.igCtrl (q i : Nat) : Nat := quadBase q + 0x5c0000 + i * 0x10000

/-- IG_STATUS: [31:28] STATE, [27] DEGRADED, [26] RETIRE_FULL, [11:0] SPARES_LEFT (R389). -/
def Reg.igStatus (q i : Nat) : Nat := quadBase q + 0x5c0004 + i * 0x10000

/-- IG_ECC_CFG: [31:24] SCRUB_PERIOD, [23:8] DIE_THRESH, [7:0] RETIRE_THRESH (R367). -/
def Reg.igEccCfg (q i : Nat) : Nat := quadBase q + 0x5c0008 + i * 0x10000

/-- IG_RETIRE: [24:0] PAGE (R369). -/
def Reg.igRetire (q i : Nat) : Nat := quadBase q + 0x5c000c + i * 0x10000

/-- IG_LAST_RETIRED: [24:0] PAGE (R368). -/
def Reg.igLastRetired (q i : Nat) : Nat := quadBase q + 0x5c0010 + i * 0x10000

/-- IG_SNAP: [0] SNAP (R427). -/
def Reg.igSnap (q i : Nat) : Nat := quadBase q + 0x5c07fc + i * 0x10000

/-- LP_CMD: [2] CANCEL, [1] COMMIT_AT, [0] COMMIT (R96). -/
def Reg.lpCmd (q : Nat) : Nat := quadBase q + 0x600000

/-- LP_CFG: [0] ROT_SYNC (R94). -/
def Reg.lpCfg (q : Nat) : Nat := quadBase q + 0x600004

/-- LP_AT_LO: [31:0] T (R96). -/
def Reg.lpAtLo (q : Nat) : Nat := quadBase q + 0x600008

/-- LP_AT_HI: [31:0] T (R96). -/
def Reg.lpAtHi (q : Nat) : Nat := quadBase q + 0x60000c

/-- LP_STATUS: [31] PENDING, [30] ACTIVE_SET, [26:24] LAST_ERR, [23:16] COMMIT_SEQ (R96). -/
def Reg.lpStatus (q : Nat) : Nat := quadBase q + 0x600010

/-- LP_INSTANT_LO: [31:0] T (R96). -/
def Reg.lpInstantLo (q : Nat) : Nat := quadBase q + 0x600018

/-- LP_INSTANT_HI: [31:0] T (R96). -/
def Reg.lpInstantHi (q : Nat) : Nat := quadBase q + 0x60001c

/-- LP_SNAP: [0] SNAP (R427). -/
def Reg.lpSnap (q : Nat) : Nat := quadBase q + 0x6000fc

/-- ROUTE0: [31] VALID, [30] SRC_TX, [29] LEADER, [26:24] OUT_COUNT, [19:16] SLOT, [4:0] SRC_FIBER (R92). -/
def Reg.route0 (q i : Nat) : Nat := quadBase q + 0x610000 + i * 0x20

/-- ROUTE_OUT: [28:24] OUT_FIBER1, [23:16] WEIGHT1, [12:8] OUT_FIBER0, [7:0] WEIGHT0 (R93). -/
def Reg.routeOut (q i j : Nat) : Nat := quadBase q + 0x610004 + i * 0x20 + j * 0x4

/-- ROUTE5: [15:8] OUT_HOLD, [7:0] OUT_LOCKED (R92). -/
def Reg.route5 (q i : Nat) : Nat := quadBase q + 0x610014 + i * 0x20

/-- PE_CFG: [31] FF_EN, [15:8] SLEW_LIMIT, [7:0] STEP_LIMIT (R89). -/
def Reg.peCfg (q i : Nat) : Nat := quadBase q + 0x700000 + i * 0x4000

/-- PE_THERM: [31] THERMAL_SLEW, [30] QD_STEP, [29] PE_SLEW, [27:16] PE_TEMP, [15:0] SLEW (R90). -/
def Reg.peTherm (q i : Nat) : Nat := quadBase q + 0x700010 + i * 0x4000

/-- PE_MATE: [0] MATED (R504). -/
def Reg.peMate (q i : Nat) : Nat := quadBase q + 0x700020 + i * 0x4000

/-- PE_RING: [31:28] STATE, [27:24] PILOT_SLOT, [23] ALIAS_LOCK, [22:16] ALIAS_CNT, [15:0] LOCK_ERR (R81). -/
def Reg.peRing (q i j k l : Nat) : Nat := quadBase q + 0x700100 + i * 0x4000 + j * 0x48 + k * 0x8 + l * 0x4

/-- PMC_CTL: [31] RUN (R469). -/
def Reg.pmcCtl (q i : Nat) : Nat := quadBase q + 0x640000 + i * 0x100

/-- PMC_SEL: [31] CHAIN, [19:12] INST, [11:0] EVENT (R470). -/
def Reg.pmcSel (q i j : Nat) : Nat := quadBase q + 0x640010 + i * 0x100 + j * 0x4

/-- PMC_LO: [31:0] V (R472). -/
def Reg.pmcLo (q i j : Nat) : Nat := quadBase q + 0x640040 + i * 0x100 + j * 0x8

/-- PMC_HI: [15:0] V (R472). -/
def Reg.pmcHi (q i j : Nat) : Nat := quadBase q + 0x640044 + i * 0x100 + j * 0x8

/-- MON_CFG: [31] EN, [30] LOG2, [29] CLR_ON_SNAP, [28:24] SHIFT, [23:16] KIND, [15:0] INST (R477). -/
def Reg.monCfg (q i : Nat) : Nat := quadBase q + 0x680000 + i * 0x200

/-- MON_BASE: [31:0] BASE (R477). -/
def Reg.monBase (q i : Nat) : Nat := quadBase q + 0x680004 + i * 0x200

/-- MON_WIDTH: [31:0] WIDTH (R477). -/
def Reg.monWidth (q i : Nat) : Nat := quadBase q + 0x680008 + i * 0x200

/-- MON_PERIOD: [15:0] PERIOD (R476). -/
def Reg.monPeriod (q i : Nat) : Nat := quadBase q + 0x68000c + i * 0x200

/-- MON_SNAP: [0] SNAP (R478). -/
def Reg.monSnap (q i : Nat) : Nat := quadBase q + 0x680010 + i * 0x200

/-- DMA_CTL: [31] EN, [3:0] RING_LOG (R432). -/
def Reg.dmaCtl (q i : Nat) : Nat := quadBase q + 0x400000 + i * 0x100

/-- DMA_STATUS: [31] BUSY, [30] ERR_HALT, [7:0] LAST_STATUS (R434). -/
def Reg.dmaStatus (q i : Nat) : Nat := quadBase q + 0x400004 + i * 0x100

/-- DMA_RING_LO: [31:12] RING_BASE (R432). -/
def Reg.dmaRingLo (q i : Nat) : Nat := quadBase q + 0x400008 + i * 0x100

/-- DMA_RING_HI: [31:0] RING_BASE (R432). -/
def Reg.dmaRingHi (q i : Nat) : Nat := quadBase q + 0x40000c + i * 0x100

/-- DMA_TAIL: [16:0] TAIL (R432). -/
def Reg.dmaTail (q i : Nat) : Nat := quadBase q + 0x400010 + i * 0x100

/-- DMA_HEAD: [16:0] HEAD (R432). -/
def Reg.dmaHead (q i : Nat) : Nat := quadBase q + 0x400014 + i * 0x100

/-- DMA_SNAP: [0] SNAP (R427). -/
def Reg.dmaSnap (q i : Nat) : Nat := quadBase q + 0x40007c + i * 0x100

/-- 48-bit counter CORR_SYM (R75). -/
def Ctr.corrSym (q i j : Nat) : Nat := quadBase q + 0x100 + i * 0x1000 + j * 0x20

/-- 48-bit counter UNCORR_CW (R75). -/
def Ctr.uncorrCw (q i j : Nat) : Nat := quadBase q + 0x108 + i * 0x1000 + j * 0x20

/-- 48-bit counter WRONG_SLOT (R75). -/
def Ctr.wrongSlot (q i j : Nat) : Nat := quadBase q + 0x110 + i * 0x1000 + j * 0x20

/-- 48-bit counter LANE_LOSS_CNT (R75). -/
def Ctr.laneLossCnt (q i j : Nat) : Nat := quadBase q + 0x118 + i * 0x1000 + j * 0x20

/-- 48-bit counter SWAPS (R64). -/
def Ctr.swaps (q i : Nat) : Nat := quadBase q + 0x240 + i * 0x1000

/-- 48-bit counter ROT_ABORT (R64). -/
def Ctr.rotAbort (q i : Nat) : Nat := quadBase q + 0x248 + i * 0x1000

/-- 48-bit counter CAL_LATE (R64). -/
def Ctr.calLate (q i : Nat) : Nat := quadBase q + 0x250 + i * 0x1000

/-- 48-bit counter TRAIN_FAIL (R64). -/
def Ctr.trainFail (q i : Nat) : Nat := quadBase q + 0x258 + i * 0x1000

/-- 48-bit counter LINK_DOWN (R64). -/
def Ctr.linkDown (q i : Nat) : Nat := quadBase q + 0x260 + i * 0x1000

/-- 48-bit counter NARROW_EVT (R64). -/
def Ctr.narrowEvt (q i : Nat) : Nat := quadBase q + 0x268 + i * 0x1000

/-- 48-bit counter TX_FLITS (R139). -/
def Ctr.txFlits (q i j : Nat) : Nat := quadBase q + 0x800 + i * 0x1000 + j * 0x80

/-- 48-bit counter RX_FLITS (R139). -/
def Ctr.rxFlits (q i j : Nat) : Nat := quadBase q + 0x808 + i * 0x1000 + j * 0x80

/-- 48-bit counter TX_PKTS (R139). -/
def Ctr.txPkts (q i j : Nat) : Nat := quadBase q + 0x810 + i * 0x1000 + j * 0x80

/-- 48-bit counter RX_PKTS (R139). -/
def Ctr.rxPkts (q i j : Nat) : Nat := quadBase q + 0x818 + i * 0x1000 + j * 0x80

/-- 48-bit counter LCRC_ERR (R139). -/
def Ctr.lcrcErr (q i j : Nat) : Nat := quadBase q + 0x820 + i * 0x1000 + j * 0x80

/-- 48-bit counter NAK_TX (R139). -/
def Ctr.nakTx (q i j : Nat) : Nat := quadBase q + 0x828 + i * 0x1000 + j * 0x80

/-- 48-bit counter CRED_ERR (R139). -/
def Ctr.credErr (q i j : Nat) : Nat := quadBase q + 0x830 + i * 0x1000 + j * 0x80

/-- 48-bit counter REPLAY_GRP (R139). -/
def Ctr.replayGrp (q i j : Nat) : Nat := quadBase q + 0x838 + i * 0x1000 + j * 0x80

/-- 48-bit counter REPLAY_EXHAUST (R139). -/
def Ctr.replayExhaust (q i j : Nat) : Nat := quadBase q + 0x840 + i * 0x1000 + j * 0x80

/-- 48-bit counter E2E_CRC_ERR (R139). -/
def Ctr.e2eCrcErr (q i j : Nat) : Nat := quadBase q + 0x848 + i * 0x1000 + j * 0x80

/-- 48-bit counter STOMP_RX (R139). -/
def Ctr.stompRx (q i j : Nat) : Nat := quadBase q + 0x850 + i * 0x1000 + j * 0x80

/-- 48-bit counter STOMP_TX (R139). -/
def Ctr.stompTx (q i j : Nat) : Nat := quadBase q + 0x858 + i * 0x1000 + j * 0x80

/-- 48-bit counter PARITY_ERR_CNT (R139). -/
def Ctr.parityErrCnt (q i j : Nat) : Nat := quadBase q + 0x860 + i * 0x1000 + j * 0x80

/-- 48-bit counter HDR_ERR (R139). -/
def Ctr.hdrErr (q i j : Nat) : Nat := quadBase q + 0x868 + i * 0x1000 + j * 0x80

/-- 48-bit counter PEER_ERR (R139). -/
def Ctr.peerErr (q i j : Nat) : Nat := quadBase q + 0x870 + i * 0x1000 + j * 0x80

/-- 48-bit counter CRED_STALL (R139). -/
def Ctr.credStall (q i j : Nat) : Nat := quadBase q + 0x878 + i * 0x1000 + j * 0x80

/-- 48-bit counter COMMITS (R107). -/
def Ctr.commits (q : Nat) : Nat := quadBase q + 0x600100

/-- 48-bit counter COMMIT_FAIL (R107). -/
def Ctr.commitFail (q : Nat) : Nat := quadBase q + 0x600108

/-- 48-bit counter CMD_REJ (R107). -/
def Ctr.cmdRej (q : Nat) : Nat := quadBase q + 0x600110

/-- 48-bit counter WRITE_REJ (R107). -/
def Ctr.writeRej (q : Nat) : Nat := quadBase q + 0x600118

/-- 48-bit counter RING_LOSS (R107). -/
def Ctr.ringLoss (q : Nat) : Nat := quadBase q + 0x600120

/-- 48-bit counter FWD_PKTS (R173). -/
def Ctr.fwdPkts (q : Nat) : Nat := quadBase q + 0x40800

/-- 48-bit counter UNIT_PKTS (R173). -/
def Ctr.unitPkts (q : Nat) : Nat := quadBase q + 0x40808

/-- 48-bit counter TRANSIT_PKTS (R173). -/
def Ctr.transitPkts (q : Nat) : Nat := quadBase q + 0x40810

/-- 48-bit counter MC_COPIES (R173). -/
def Ctr.mcCopies (q : Nat) : Nat := quadBase q + 0x40818

/-- 48-bit counter MC_POOL_WAIT (R173). -/
def Ctr.mcPoolWait (q : Nat) : Nat := quadBase q + 0x40820

/-- 48-bit counter DOWN_DROP (R173). -/
def Ctr.downDrop (q : Nat) : Nat := quadBase q + 0x40828

/-- 48-bit counter MC_DOWN_DROP (R173). -/
def Ctr.mcDownDrop (q : Nat) : Nat := quadBase q + 0x40830

/-- 48-bit counter LX_MSG_DROP (R173). -/
def Ctr.lxMsgDrop (q : Nat) : Nat := quadBase q + 0x40838

/-- 48-bit counter SV_DROP (R173). -/
def Ctr.svDrop (q : Nat) : Nat := quadBase q + 0x40840

/-- 48-bit counter BUDGET_CUTS (R173). -/
def Ctr.budgetCuts (q : Nat) : Nat := quadBase q + 0x40848

/-- 48-bit counter XB_TX_FLITS (R173). -/
def Ctr.xbTxFlits (q i : Nat) : Nat := quadBase q + 0x40850 + i * 0x8

/-- 48-bit counter FWD_LOOKUPS (R516). -/
def Ctr.fwdLookups (q : Nat) : Nat := quadBase q + 0x100800

/-- 48-bit counter FWD_HITS (R516). -/
def Ctr.fwdHits (q : Nat) : Nat := quadBase q + 0x100808

/-- 48-bit counter FWD_FLOOD (R516). -/
def Ctr.fwdFlood (q : Nat) : Nat := quadBase q + 0x100810

/-- 48-bit counter FWD_MISS_DROP (R516). -/
def Ctr.fwdMissDrop (q : Nat) : Nat := quadBase q + 0x100818

/-- 48-bit counter FWD_BAD_TARGET (R516). -/
def Ctr.fwdBadTarget (q : Nat) : Nat := quadBase q + 0x100820

/-- 48-bit counter FWD_HAIRPIN (R516). -/
def Ctr.fwdHairpin (q : Nat) : Nat := quadBase q + 0x100828

/-- 48-bit counter FWD_INSERT_FAIL (R516). -/
def Ctr.fwdInsertFail (q : Nat) : Nat := quadBase q + 0x100830

/-- 48-bit counter SRC_SKIP (R516). -/
def Ctr.srcSkip (q : Nat) : Nat := quadBase q + 0x100838

/-- 48-bit counter LEARN_POSTED (R516). -/
def Ctr.learnPosted (q : Nat) : Nat := quadBase q + 0x100840

/-- 48-bit counter LEARN_SUPPRESS (R516). -/
def Ctr.learnSuppress (q : Nat) : Nat := quadBase q + 0x100848

/-- 48-bit counter NOTICE_DROP (R516). -/
def Ctr.noticeDrop (q : Nat) : Nat := quadBase q + 0x100850

/-- 48-bit counter FWD_CI_ERR (R516). -/
def Ctr.fwdCiErr (q : Nat) : Nat := quadBase q + 0x100858

/-- 48-bit counter AGED_RPT (R516). -/
def Ctr.agedRpt (q : Nat) : Nat := quadBase q + 0x100860

/-- 48-bit counter AGED_REMOVED (R516). -/
def Ctr.agedRemoved (q : Nat) : Nat := quadBase q + 0x100868

/-- 48-bit counter GREEN_PKTS (R203). -/
def Ctr.greenPkts (q i : Nat) : Nat := quadBase q + 0x220020 + i * 0x40

/-- 48-bit counter YELLOW_PKTS (R203). -/
def Ctr.yellowPkts (q i : Nat) : Nat := quadBase q + 0x220028 + i * 0x40

/-- 48-bit counter RED_PKTS (R203). -/
def Ctr.redPkts (q i : Nat) : Nat := quadBase q + 0x220030 + i * 0x40

/-- 48-bit counter COLOUR_DROP (R203). -/
def Ctr.colourDrop (q i : Nat) : Nat := quadBase q + 0x220038 + i * 0x40

/-- 48-bit counter XB_GRANTS_CAL (R209). -/
def Ctr.xbGrantsCal (q i : Nat) : Nat := quadBase q + 0x240040 + i * 0x200

/-- 48-bit counter XB_GRANTS_LOT (R209). -/
def Ctr.xbGrantsLot (q i : Nat) : Nat := quadBase q + 0x240048 + i * 0x200

/-- 48-bit counter XB_LOST_GRANT (R209). -/
def Ctr.xbLostGrant (q i : Nat) : Nat := quadBase q + 0x240050 + i * 0x200

/-- 48-bit counter XB_IDLE_SLOTS (R209). -/
def Ctr.xbIdleSlots (q i : Nat) : Nat := quadBase q + 0x240058 + i * 0x200

/-- 48-bit counter XB_STARVE_EVT (R209). -/
def Ctr.xbStarveEvt (q i : Nat) : Nat := quadBase q + 0x240060 + i * 0x200

/-- 48-bit counter IG_GRANTS_CAL (R209). -/
def Ctr.igGrantsCal (q i : Nat) : Nat := quadBase q + 0x240840 + i * 0x200

/-- 48-bit counter IG_GRANTS_LOT (R209). -/
def Ctr.igGrantsLot (q i : Nat) : Nat := quadBase q + 0x240848 + i * 0x200

/-- 48-bit counter IG_LOST_GRANT (R209). -/
def Ctr.igLostGrant (q i : Nat) : Nat := quadBase q + 0x240850 + i * 0x200

/-- 48-bit counter IG_IDLE_SLOTS (R209). -/
def Ctr.igIdleSlots (q i : Nat) : Nat := quadBase q + 0x240858 + i * 0x200

/-- 48-bit counter IG_STARVE_EVT (R209). -/
def Ctr.igStarveEvt (q i : Nat) : Nat := quadBase q + 0x240860 + i * 0x200

/-- 48-bit counter AP_GRANTS_CAL (R209). -/
def Ctr.apGrantsCal (q : Nat) : Nat := quadBase q + 0x241040

/-- 48-bit counter AP_GRANTS_LOT (R209). -/
def Ctr.apGrantsLot (q : Nat) : Nat := quadBase q + 0x241048

/-- 48-bit counter AP_LOST_GRANT (R209). -/
def Ctr.apLostGrant (q : Nat) : Nat := quadBase q + 0x241050

/-- 48-bit counter AP_IDLE_SLOTS (R209). -/
def Ctr.apIdleSlots (q : Nat) : Nat := quadBase q + 0x241058

/-- 48-bit counter AP_STARVE_EVT (R209). -/
def Ctr.apStarveEvt (q : Nat) : Nat := quadBase q + 0x241060

/-- 48-bit counter DMA_GRANTS_CAL (R209). -/
def Ctr.dmaGrantsCal : Nat := 0x4040

/-- 48-bit counter DMA_GRANTS_LOT (R209). -/
def Ctr.dmaGrantsLot : Nat := 0x4048

/-- 48-bit counter DMA_LOST_GRANT (R209). -/
def Ctr.dmaLostGrant : Nat := 0x4050

/-- 48-bit counter DMA_IDLE_SLOTS (R209). -/
def Ctr.dmaIdleSlots : Nat := 0x4058

/-- 48-bit counter DMA_STARVE_EVT (R209). -/
def Ctr.dmaStarveEvt : Nat := 0x4060

/-- 48-bit counter DROP_YELLOW (R220). -/
def Ctr.dropYellow (q : Nat) : Nat := quadBase q + 0x200800

/-- 48-bit counter DROP_RED (R220). -/
def Ctr.dropRed (q : Nat) : Nat := quadBase q + 0x200808

/-- 48-bit counter ECN_MARKS (R220). -/
def Ctr.ecnMarks (q : Nat) : Nat := quadBase q + 0x200810

/-- 48-bit counter ECN_UNIT (R220). -/
def Ctr.ecnUnit (q : Nat) : Nat := quadBase q + 0x200818

/-- 48-bit counter CMAP_SENT (R220). -/
def Ctr.cmapSent (q : Nat) : Nat := quadBase q + 0x200820

/-- 48-bit counter CMAP_SKIP (R220). -/
def Ctr.cmapSkip (q : Nat) : Nat := quadBase q + 0x200828

/-- 48-bit counter CMAP_DROP (R220). -/
def Ctr.cmapDrop (q : Nat) : Nat := quadBase q + 0x200830

/-- 48-bit counter ALY_ELEMS (R247). -/
def Ctr.alyElems (q : Nat) : Nat := quadBase q + 0x440800

/-- 48-bit counter ALY_PARTIAL_WORDS (R247). -/
def Ctr.alyPartialWords (q : Nat) : Nat := quadBase q + 0x440808

/-- 48-bit counter OVF_BLOCKS (R247). -/
def Ctr.ovfBlocks (q : Nat) : Nat := quadBase q + 0x440810

/-- 48-bit counter PASS2_BLOCKS (R247). -/
def Ctr.pass2Blocks (q : Nat) : Nat := quadBase q + 0x440818

/-- 48-bit counter SPECIAL_ELEMS (R247). -/
def Ctr.specialElems (q : Nat) : Nat := quadBase q + 0x440820

/-- 48-bit counter CONV_OVF (R247). -/
def Ctr.convOvf (q : Nat) : Nat := quadBase q + 0x440828

/-- 48-bit counter SR_ROUNDUPS (R247). -/
def Ctr.srRoundups (q : Nat) : Nat := quadBase q + 0x440830

/-- 48-bit counter ANCHOR_ERR (R247). -/
def Ctr.anchorErr (q : Nat) : Nat := quadBase q + 0x440838

/-- 48-bit counter FMT_ERR (R247). -/
def Ctr.fmtErr (q : Nat) : Nat := quadBase q + 0x440840

/-- 48-bit counter CHUNKS_BORN (R290). -/
def Ctr.chunksBorn (q : Nat) : Nat := quadBase q + 0x480800

/-- 48-bit counter CHUNKS_DONE (R290). -/
def Ctr.chunksDone (q : Nat) : Nat := quadBase q + 0x480808

/-- 48-bit counter SPILLS (R290). -/
def Ctr.spills (q : Nat) : Nat := quadBase q + 0x480810

/-- 48-bit counter RETRY_NO_SLOT (R290). -/
def Ctr.retryNoSlot (q : Nat) : Nat := quadBase q + 0x480818

/-- 48-bit counter RETRY_NO_DESC (R290). -/
def Ctr.retryNoDesc (q : Nat) : Nat := quadBase q + 0x480820

/-- 48-bit counter EPOCH_AHEAD (R290). -/
def Ctr.epochAhead (q : Nat) : Nat := quadBase q + 0x480828

/-- 48-bit counter EPOCH_STALE_DROP (R290). -/
def Ctr.epochStaleDrop (q : Nat) : Nat := quadBase q + 0x480830

/-- 48-bit counter FENCED (R290). -/
def Ctr.fenced (q : Nat) : Nat := quadBase q + 0x480838

/-- 48-bit counter POISONED (R290). -/
def Ctr.poisoned (q : Nat) : Nat := quadBase q + 0x480840

/-- 48-bit counter SIG_MISMATCH (R290). -/
def Ctr.sigMismatch (q : Nat) : Nat := quadBase q + 0x480848

/-- 48-bit counter SIG_EXTRA (R290). -/
def Ctr.sigExtra (q : Nat) : Nat := quadBase q + 0x480850

/-- 48-bit counter OVERCOUNT (R290). -/
def Ctr.overcount (q : Nat) : Nat := quadBase q + 0x480858

/-- 48-bit counter LATE_CONTRIB (R290). -/
def Ctr.lateContrib (q : Nat) : Nat := quadBase q + 0x480860

/-- 48-bit counter OVF_DROP (R290). -/
def Ctr.ovfDrop (q : Nat) : Nat := quadBase q + 0x480868

/-- 48-bit counter NO_COMM_DROP (R290). -/
def Ctr.noCommDrop (q : Nat) : Nat := quadBase q + 0x480870

/-- 48-bit counter NOT_MEMBER_DROP (R290). -/
def Ctr.notMemberDrop (q : Nat) : Nat := quadBase q + 0x480878

/-- 48-bit counter BCS_INCOMPLETE (R290). -/
def Ctr.bcsIncomplete (q : Nat) : Nat := quadBase q + 0x480880

/-- 48-bit counter CR_DROP (R290). -/
def Ctr.crDrop (q : Nat) : Nat := quadBase q + 0x480888

/-- 48-bit counter RESULT_PKTS (R290). -/
def Ctr.resultPkts (q : Nat) : Nat := quadBase q + 0x480890

/-- 48-bit counter LX_ISSUED (R327). -/
def Ctr.lxIssued (q : Nat) : Nat := quadBase q + 0x500800

/-- 48-bit counter LX_YIELDS (R327). -/
def Ctr.lxYields (q : Nat) : Nat := quadBase q + 0x500808

/-- 48-bit counter LX_TAG_WAIT (R327). -/
def Ctr.lxTagWait (q : Nat) : Nat := quadBase q + 0x500810

/-- 48-bit counter LX_STALL_CYC (R327). -/
def Ctr.lxStallCyc (q : Nat) : Nat := quadBase q + 0x500818

/-- 48-bit counter LX_IDLE_CYC (R327). -/
def Ctr.lxIdleCyc (q : Nat) : Nat := quadBase q + 0x500820

/-- 48-bit counter LX_FAULTS (R327). -/
def Ctr.lxFaults (q : Nat) : Nat := quadBase q + 0x500828

/-- 48-bit counter LX_REGION_FAULT (R327). -/
def Ctr.lxRegionFault (q : Nat) : Nat := quadBase q + 0x500830

/-- 48-bit counter LX_MSG_RX (R327). -/
def Ctr.lxMsgRx (q : Nat) : Nat := quadBase q + 0x500838

/-- 48-bit counter EV_LOST (R327). -/
def Ctr.evLost (q : Nat) : Nat := quadBase q + 0x500840

/-- 48-bit counter CS_WRITE_REJ (R327). -/
def Ctr.csWriteRej (q : Nat) : Nat := quadBase q + 0x500848

/-- 48-bit counter CS_BUSY_REJ (R327). -/
def Ctr.csBusyRej (q : Nat) : Nat := quadBase q + 0x500850

/-- 48-bit counter RUN_REJ (R327). -/
def Ctr.runRej (q : Nat) : Nat := quadBase q + 0x500858

/-- 48-bit counter FI_ISSUED (R361). -/
def Ctr.fiIssued (q : Nat) : Nat := quadBase q + 0x4c0800

/-- 48-bit counter FI_DONE (R361). -/
def Ctr.fiDone (q : Nat) : Nat := quadBase q + 0x4c0808

/-- 48-bit counter FI_AERR (R361). -/
def Ctr.fiAerr (q : Nat) : Nat := quadBase q + 0x4c0810

/-- 48-bit counter POSTS (R361). -/
def Ctr.posts (q : Nat) : Nat := quadBase q + 0x4c0818

/-- 48-bit counter DUP_POST (R361). -/
def Ctr.dupPost (q : Nat) : Nat := quadBase q + 0x4c0820

/-- 48-bit counter TASKS (R361). -/
def Ctr.tasks (q : Nat) : Nat := quadBase q + 0x4c0828

/-- 48-bit counter TASK_WAIT (R361). -/
def Ctr.taskWait (q : Nat) : Nat := quadBase q + 0x4c0830

/-- 48-bit counter MIRROR_BYTES (R361). -/
def Ctr.mirrorBytes (q : Nat) : Nat := quadBase q + 0x4c0838

/-- 48-bit counter MIRROR_FAIL (R361). -/
def Ctr.mirrorFail (q : Nat) : Nat := quadBase q + 0x4c0840

/-- 48-bit counter PROV_DONE (R361). -/
def Ctr.provDone (q : Nat) : Nat := quadBase q + 0x4c0848

/-- 48-bit counter A2A_COMMITS (R361). -/
def Ctr.a2aCommits (q : Nat) : Nat := quadBase q + 0x4c0850

/-- 48-bit counter A2A_ABORT (R361). -/
def Ctr.a2aAbort (q : Nat) : Nat := quadBase q + 0x4c0858

/-- 48-bit counter MS_READS (R391). -/
def Ctr.msReads (q : Nat) : Nat := quadBase q + 0x580800

/-- 48-bit counter MS_WRITES (R391). -/
def Ctr.msWrites (q : Nat) : Nat := quadBase q + 0x580808

/-- 48-bit counter MS_ATOMICS (R391). -/
def Ctr.msAtomics (q : Nat) : Nat := quadBase q + 0x580810

/-- 48-bit counter MS_COMB_RD (R391). -/
def Ctr.msCombRd (q : Nat) : Nat := quadBase q + 0x580818

/-- 48-bit counter MS_COMB_AT (R391). -/
def Ctr.msCombAt (q : Nat) : Nat := quadBase q + 0x580820

/-- 48-bit counter MS_ERR_REQ (R391). -/
def Ctr.msErrReq (q : Nat) : Nat := quadBase q + 0x580828

/-- 48-bit counter MS_ERR_REGION (R391). -/
def Ctr.msErrRegion (q : Nat) : Nat := quadBase q + 0x580830

/-- 48-bit counter MS_ERR_EPOCH (R391). -/
def Ctr.msErrEpoch (q : Nat) : Nat := quadBase q + 0x580838

/-- 48-bit counter MS_ERR_UNIT (R391). -/
def Ctr.msErrUnit (q : Nat) : Nat := quadBase q + 0x580840

/-- 48-bit counter MS_TAG_WAIT (R391). -/
def Ctr.msTagWait (q : Nat) : Nat := quadBase q + 0x580848

/-- 48-bit counter PEER_WR_RX_CNT (R391). -/
def Ctr.peerWrRxCnt (q : Nat) : Nat := quadBase q + 0x580850

/-- 48-bit counter PEER_WR_REFUSED (R391). -/
def Ctr.peerWrRefused (q : Nat) : Nat := quadBase q + 0x580858

/-- 48-bit counter IG_CORR_ACCESS (R392). -/
def Ctr.igCorrAccess (q i : Nat) : Nat := quadBase q + 0x5c0800 + i * 0x10000

/-- 48-bit counter IG_CORR_SYM (R392). -/
def Ctr.igCorrSym (q i : Nat) : Nat := quadBase q + 0x5c0808 + i * 0x10000

/-- 48-bit counter IG_UNCORR (R392). -/
def Ctr.igUncorr (q i : Nat) : Nat := quadBase q + 0x5c0810 + i * 0x10000

/-- 48-bit counter IG_RETIRED (R392). -/
def Ctr.igRetired (q i : Nat) : Nat := quadBase q + 0x5c0818 + i * 0x10000

/-- 48-bit counter IG_SCRUBBED (R392). -/
def Ctr.igScrubbed (q i : Nat) : Nat := quadBase q + 0x5c0820 + i * 0x10000

/-- 48-bit counter IG_PEER_WR_APPLIED (R392). -/
def Ctr.igPeerWrApplied (q i : Nat) : Nat := quadBase q + 0x5c0828 + i * 0x10000

/-- 48-bit counter IG_OFFLINE_ENDED (R392). -/
def Ctr.igOfflineEnded (q i : Nat) : Nat := quadBase q + 0x5c0830 + i * 0x10000

/-- 48-bit counter EXCHANGES (R411). -/
def Ctr.exchanges : Nat := 0x100800

/-- 48-bit counter EXCH_DISCARD (R411). -/
def Ctr.exchDiscard : Nat := 0x100808

/-- 48-bit counter STEPS (R411). -/
def Ctr.steps : Nat := 0x100810

/-- 48-bit counter HOLDOVERS (R411). -/
def Ctr.holdovers : Nat := 0x100818

/-- 48-bit counter MASTER_CHANGES (R411). -/
def Ctr.masterChanges : Nat := 0x100820

/-- 48-bit counter HIF_BAD_ACC (R442). -/
def Ctr.hifBadAcc : Nat := 0x22800

/-- 48-bit counter WIN_ERR (R442). -/
def Ctr.winErr : Nat := 0x22808

/-- 48-bit counter RS_ARM_ERR (R442). -/
def Ctr.rsArmErr : Nat := 0x22810

/-- 48-bit counter RS_REL_ERR (R442). -/
def Ctr.rsRelErr : Nat := 0x22818

/-- 48-bit counter RS_LATE_FILL (R442). -/
def Ctr.rsLateFill : Nat := 0x22820

/-- 48-bit counter RS_FILLS (R442). -/
def Ctr.rsFills : Nat := 0x22828

/-- 48-bit counter SB_BAD_FRAME (R442). -/
def Ctr.sbBadFrame : Nat := 0x22830

/-- 48-bit counter DMA_DESC_DONE (R435). -/
def Ctr.dmaDescDone (q i : Nat) : Nat := quadBase q + 0x400080 + i * 0x100

/-- 48-bit counter DMA_BYTES (R435). -/
def Ctr.dmaBytes (q i : Nat) : Nat := quadBase q + 0x400088 + i * 0x100

/-- 48-bit counter RST_BAD_SEQ (R468). -/
def Ctr.rstBadSeq : Nat := 0x400800

/-- 48-bit counter STAGE_WR_REJ (R468). -/
def Ctr.stageWrRej : Nat := 0x400808

/-- 48-bit counter UR_REJ (R468). -/
def Ctr.urRej : Nat := 0x400810

/-- 48-bit counter SEC_REJ (R468). -/
def Ctr.secRej : Nat := 0x400818

/-- 48-bit counter LOG_ENTRIES (R484). -/
def Ctr.logEntries : Nat := 0x200800

/-- 48-bit counter LOG_OVERWRITTEN (R484). -/
def Ctr.logOverwritten : Nat := 0x200808

/-- 48-bit counter LOG_LOST (R484). -/
def Ctr.logLost : Nat := 0x200810

/-- 48-bit counter LOG_QDROP (R484). -/
def Ctr.logQdrop : Nat := 0x200818

/-- 48-bit counter LOG_MGT_SENT (R484). -/
def Ctr.logMgtSent : Nat := 0x200820

/-- 48-bit counter LOG_MGT_DROP (R484). -/
def Ctr.logMgtDrop : Nat := 0x200828

/-- 48-bit counter TSQ_DROP (R408). -/
def Ctr.tsqDrop (q : Nat) : Nat := quadBase q + 0x540800

/-- 48-bit counter TRX_DROP (R408). -/
def Ctr.trxDrop (q : Nat) : Nat := quadBase q + 0x540808

/-- 48-bit counter TX_REJ (R408). -/
def Ctr.txRej (q : Nat) : Nat := quadBase q + 0x540810

/-- Rows of the register map, part 0. -/
def regRows0 : List RDef :=
  [⟨"CAP_UNITS", false, 0x10, [], 0x0, .capUnits, .por⟩,
   ⟨"SD_PERSONALITY", false, 0x20, [], 0x3, .const 0x10001, .por⟩,
   ⟨"CLK_STATUS", false, 0x40, [], 0x0, .const 0x0, .por⟩,
   ⟨"PWR_STATUS", false, 0x60, [], 0x0, .const 0x0, .por⟩,
   ⟨"PWR_FEED", false, 0x64, [], 0x0, .const 0x0, .por⟩,
   ⟨"FAULT_STATUS", false, 0x80, [], 0x0, .const 0x0, .warm⟩,
   ⟨"FAULT_TIME_LO", false, 0x88, [], 0x0, .const 0x0, .warm⟩,
   ⟨"FAULT_TIME_HI", false, 0x8c, [], 0x0, .const 0x0, .warm⟩,
   ⟨"PMC_GLOBAL", false, 0x90, [], 0x1, .const 0x1, .warm⟩,
   ⟨"BOOT_STATUS", false, 0x100, [], 0x0, .const 0x10, .warm⟩,
   ⟨"BOOT_CMD", false, 0x104, [], 0x0, .const 0x0, .warm⟩,
   ⟨"BOOT_CFG", false, 0x108, [], 0x8000ff7f, .const 0x1400, .por⟩,
   ⟨"BOOT_SRV", false, 0x110, [(2, 0x4)], 0x8000007f, .const 0x0, .warm⟩,
   ⟨"SD_RESET", false, 0x120, [], 0x0, .const 0x0, .warm⟩,
   ⟨"RST_CAUSE", false, 0x124, [], 0x0, .const 0x0, .por⟩,
   ⟨"UR_CMD", false, 0x200, [], 0x0, .const 0x0, .warm⟩,
   ⟨"UR_STATUS", false, 0x204, [], 0x0, .const 0x0, .warm⟩,
   ⟨"UNIT_STATE", false, 0x400, [(164, 0x4)], 0x0, .unitState, .por⟩,
   ⟨"DMA_ARB_CFG", false, 0x4000, [], 0x80ffffff, .const 0x4000, .warm⟩,
   ⟨"DMA_ARB_SEED", false, 0x4004, [], 0x0, .const 0x0, .warm⟩,
   ⟨"DMA_ARB_LFSR", false, 0x4008, [], 0x0, .const 0xace12357, .warm⟩,
   ⟨"DMA_ARB_STATUS", false, 0x400c, [], 0x0, .const 0x80000000, .warm⟩,
   ⟨"DMA_ARB_STARVE", false, 0x4010, [], 0x0, .const 0x0, .warm⟩,
   ⟨"DMA_ARB_TICKETS", false, 0x4020, [(8, 0x4)], 0xffffffff, .const 0x8080808, .warm⟩,
   ⟨"DMA_ARB_CAL", false, 0x4100, [(64, 0x4)], 0xffffffff, .const 0xffffffff, .warm⟩,
   ⟨"MSIX_ADDR_LO", false, 0x10000, [(2048, 0x10)], 0xffffffff, .const 0x0, .hif⟩,
   ⟨"MSIX_ADDR_HI", false, 0x10004, [(2048, 0x10)], 0xffffffff, .const 0x0, .hif⟩,
   ⟨"MSIX_DATA", false, 0x10008, [(2048, 0x10)], 0xffffffff, .const 0x0, .hif⟩,
   ⟨"MSIX_CTRL", false, 0x1000c, [(2048, 0x10)], 0x1, .const 0x1, .hif⟩,
   ⟨"MSIX_PBA", false, 0x18000, [(64, 0x4)], 0x0, .const 0x0, .hif⟩,
   ⟨"INT_MAP", false, 0x20000, [(260, 0x4)], 0x800007ff, .const 0x0, .hif⟩,
   ⟨"WIN0", false, 0x21000, [(16, 0x10)], 0x80000000, .const 0x0, .hif⟩,
   ⟨"WIN1", false, 0x21004, [(16, 0x10)], 0xfffff000, .const 0x0, .hif⟩,
   ⟨"WIN2", false, 0x21008, [(16, 0x10)], 0x1ff, .const 0x0, .hif⟩,
   ⟨"HIF_STATUS", false, 0x22000, [], 0x0, .const 0x0, .hif⟩,
   ⟨"RS_SNAP", false, 0x227fc, [], 0x0, .const 0x0, .hif⟩,
   ⟨"JOB_EPOCH", false, 0x60000, [(4096, 0x4)], 0x8000ffff, .const 0x0, .warm⟩,
   ⟨"COMM0", false, 0x80000, [(4096, 0x40)], 0x8fffffff, .const 0x0, .warm⟩,
   ⟨"COMM1", false, 0x80004, [(4096, 0x40)], 0x1fffff, .const 0x0, .warm⟩,
   ⟨"COMM2", false, 0x80008, [(4096, 0x40)], 0xffffff, .const 0x0, .warm⟩]

/-- Rows of the register map, part 1. -/
def regRows1 : List RDef :=
  [⟨"COMM3", false, 0x8000c, [(4096, 0x40)], 0xffffff, .const 0x0, .warm⟩,
   ⟨"COMM4", false, 0x80010, [(4096, 0x40)], 0xffff, .const 0x0, .warm⟩,
   ⟨"COMM5", false, 0x80014, [(4096, 0x40)], 0xffffffff, .const 0x0, .warm⟩,
   ⟨"COMM6", false, 0x80018, [(4096, 0x40)], 0xffffffff, .const 0x0, .warm⟩,
   ⟨"COMM7", false, 0x8001c, [(4096, 0x40)], 0xfffffe00, .const 0x0, .warm⟩,
   ⟨"COMM8", false, 0x80020, [(4096, 0x40)], 0xfff07fff, .const 0x0, .warm⟩,
   ⟨"COMM9", false, 0x80024, [(4096, 0x40)], 0xffffffff, .const 0x0, .warm⟩,
   ⟨"COMM10", false, 0x80028, [(4096, 0x40)], 0xfffffe00, .const 0x0, .warm⟩,
   ⟨"COMM11", false, 0x8002c, [(4096, 0x40)], 0xfff07fff, .const 0x0, .warm⟩,
   ⟨"RGN0", false, 0xc0000, [(256, 0x20)], 0xf8000fff, .const 0x0, .warm⟩,
   ⟨"RGN1", false, 0xc0004, [(256, 0x20)], 0xfffff000, .const 0x0, .warm⟩,
   ⟨"RGN2", false, 0xc0008, [(256, 0x20)], 0x1ff, .const 0x0, .warm⟩,
   ⟨"RGN3", false, 0xc000c, [(256, 0x20)], 0x1fffffff, .const 0x0, .warm⟩,
   ⟨"RGN4", false, 0xc0010, [(256, 0x20)], 0xfff, .const 0x0, .warm⟩,
   ⟨"RGN5", false, 0xc0014, [(256, 0x20)], 0x7f, .const 0x0, .warm⟩,
   ⟨"RGN_STATUS", false, 0xc2000, [], 0x0, .const 0x0, .warm⟩,
   ⟨"RGN_MEM", false, 0xc3000, [(256, 0x4)], 0xe0000000, .const 0x0, .warm⟩,
   ⟨"TIME_CFG", false, 0x100000, [], 0xe00f03ff, .const 0x60050000, .warm⟩,
   ⟨"TIME_SERVO", false, 0x100004, [], 0xffffffff, .const 0x40000400, .warm⟩,
   ⟨"TIME_THRESH", false, 0x100008, [], 0xff00ffff, .const 0x4000040, .warm⟩,
   ⟨"STEP_THRESH", false, 0x10000c, [], 0xffffffff, .const 0x320, .warm⟩,
   ⟨"RTT_DEFAULT", false, 0x100010, [], 0xffffff, .const 0x640, .warm⟩,
   ⟨"TIME_READ_FRAC", false, 0x100020, [], 0x0, .const 0x0, .warm⟩,
   ⟨"TIME_READ_LO", false, 0x100024, [], 0x0, .const 0x0, .warm⟩,
   ⟨"TIME_READ_HI", false, 0x100028, [], 0x0, .const 0x0, .warm⟩,
   ⟨"LOCAL_READ_LO", false, 0x10002c, [], 0x0, .const 0x0, .warm⟩,
   ⟨"LOCAL_READ_HI", false, 0x100030, [], 0x0, .const 0x0, .warm⟩,
   ⟨"OFFSET_FRAC", false, 0x100040, [], 0x0, .const 0x0, .warm⟩,
   ⟨"OFFSET_LO", false, 0x100044, [], 0x0, .const 0x0, .warm⟩,
   ⟨"OFFSET_HI", false, 0x100048, [], 0x0, .const 0x0, .warm⟩,
   ⟨"RATE_LO", false, 0x100050, [], 0x0, .const 0x0, .warm⟩,
   ⟨"RATE_HI", false, 0x100054, [], 0x0, .const 0x0, .warm⟩,
   ⟨"SET_FRAC", false, 0x100060, [], 0x0, .const 0x0, .warm⟩,
   ⟨"SET_LO", false, 0x100064, [], 0x0, .const 0x0, .warm⟩,
   ⟨"SET_HI", false, 0x100068, [], 0x0, .const 0x0, .warm⟩,
   ⟨"TSTEP_LO", false, 0x100070, [], 0x0, .const 0x0, .warm⟩,
   ⟨"TSTEP_HI", false, 0x100074, [], 0x0, .const 0x0, .warm⟩,
   ⟨"RSET_LO", false, 0x100078, [], 0x0, .const 0x0, .warm⟩,
   ⟨"RSET_HI", false, 0x10007c, [], 0x0, .const 0x0, .warm⟩,
   ⟨"TIME_STATUS", false, 0x100090, [], 0x0, .const 0xff0000, .warm⟩]

/-- Rows of the register map, part 2. -/
def regRows2 : List RDef :=
  [⟨"MASTER_EPID", false, 0x100094, [], 0x0, .const 0x0, .warm⟩,
   ⟨"LAST_VALID_AGE_LO", false, 0x100098, [], 0x0, .const 0x0, .warm⟩,
   ⟨"LAST_VALID_AGE_HI", false, 0x10009c, [], 0x0, .const 0x0, .warm⟩,
   ⟨"LAST_THETA", false, 0x1000a0, [], 0x0, .const 0x0, .warm⟩,
   ⟨"TIME_SNAP", false, 0x1007fc, [], 0x0, .const 0x0, .warm⟩,
   ⟨"LOG_CFG", false, 0x200000, [], 0xf8000000, .const 0x20000000, .por⟩,
   ⟨"LOG_WR", false, 0x200004, [], 0x0, .const 0x0, .por⟩,
   ⟨"LOG_PI", false, 0x200008, [], 0x0, .const 0x0, .por⟩,
   ⟨"LOG_CI", false, 0x20000c, [], 0xffff, .const 0x0, .por⟩,
   ⟨"LOG_THRESH", false, 0x200010, [], 0x7fff, .const 0x1000, .por⟩,
   ⟨"LOG_STATUS", false, 0x200014, [], 0x0, .const 0x0, .por⟩,
   ⟨"LOG_MGT_DST", false, 0x200018, [], 0xffffff, .const 0x0, .por⟩,
   ⟨"LOG_MGT_JOB", false, 0x20001c, [], 0xfff, .const 0x0, .por⟩,
   ⟨"LOG_SNAP", false, 0x2007fc, [], 0x0, .const 0x0, .por⟩,
   ⟨"SEC_STATUS", false, 0x400000, [], 0x0, .const 0x0, .warm⟩,
   ⟨"SEC_CMD", false, 0x400004, [], 0x0, .const 0x0, .warm⟩,
   ⟨"SEC_FUSE", false, 0x400008, [], 0x0, .secFuse, .warm⟩,
   ⟨"SEC_ARG", false, 0x400100, [(16, 0x4)], 0xffffffff, .const 0x0, .warm⟩,
   ⟨"ATT_NONCE", false, 0x400200, [(16, 0x4)], 0xffffffff, .const 0x0, .warm⟩,
   ⟨"FW_DIGEST", false, 0x400300, [(16, 0x4)], 0x0, .const 0x0, .warm⟩,
   ⟨"SEC_SNAP", false, 0x4007fc, [], 0x0, .const 0x0, .warm⟩,
   ⟨"CAL_CTRL", false, 0x800000, [], 0x0, .const 0x0, .warm⟩,
   ⟨"CAL_UNLOCK", false, 0x800004, [], 0x0, .const 0x0, .warm⟩,
   ⟨"CAL_STATUS", false, 0x800010, [], 0x0, .const 0x0, .warm⟩,
   ⟨"FT_CFG", true, 0x0, [(32, 0x1000)], 0x8ff00006, .const 0x100002, .unit⟩,
   ⟨"FT_DARK", true, 0x4, [(32, 0x1000)], 0xff, .const 0x40, .unit⟩,
   ⟨"FT_STATUS", true, 0x10, [(32, 0x1000)], 0x0, .const 0xf0000000, .unit⟩,
   ⟨"FT_LANE", true, 0x14, [(32, 0x1000)], 0x0, .const 0x0, .unit⟩,
   ⟨"FT_LINK", true, 0x20, [(32, 0x1000), (8, 0x4)], 0x0, .const 0x0, .unit⟩,
   ⟨"FT_MAP", true, 0x40, [(32, 0x1000), (8, 0x4)], 0x0, .const 0xffffffff, .unit⟩,
   ⟨"FT_SNAP", true, 0xfc, [(32, 0x1000)], 0x0, .const 0x0, .unit⟩,
   ⟨"LL_CFG", true, 0x300, [(32, 0x1000)], 0xff000f, .const 0xa0008, .unit⟩,
   ⟨"LL_STATUS", true, 0x320, [(32, 0x1000), (8, 0x4)], 0x0, .const 0x0, .unit⟩,
   ⟨"LL_CRED", true, 0x404, [(32, 0x1000), (8, 0x20), (7, 0x4)], 0xffff, .const 0x41, .unit⟩,
   ⟨"TP_CFG", true, 0x600, [(32, 0x1000), (8, 0x20)], 0x7, .const 0x0, .unit⟩,
   ⟨"TP_CORR", true, 0x604, [(32, 0x1000), (8, 0x20)], 0xffffffff, .const 0x0, .unit⟩,
   ⟨"TP_STATUS", true, 0x608, [(32, 0x1000), (8, 0x20)], 0x0, .const 0x0, .unit⟩,
   ⟨"TP_RTT", true, 0x60c, [(32, 0x1000), (8, 0x20)], 0x0, .const 0x0, .unit⟩,
   ⟨"TP_THETA", true, 0x610, [(32, 0x1000), (8, 0x20)], 0x0, .const 0x0, .unit⟩,
   ⟨"TP_MPD", true, 0x614, [(32, 0x1000), (8, 0x20)], 0x0, .const 0x0, .unit⟩]

/-- Rows of the register map, part 3. -/
def regRows3 : List RDef :=
  [⟨"SC_CFG", true, 0x40000, [], 0x80ffff00, .const 0x400a00, .unit⟩,
   ⟨"SC_POOL", true, 0x40004, [], 0xffffffff, .const 0x800040, .unit⟩,
   ⟨"SC_BUDGET", true, 0x40008, [], 0x0, .const 0x0, .unit⟩,
   ⟨"SC_STATUS", true, 0x4000c, [], 0x0, .const 0x0, .unit⟩,
   ⟨"XB_CFG", true, 0x40040, [(3, 0x4)], 0xffff0000, .const 0x10000000, .unit⟩,
   ⟨"XB_ADV", true, 0x40084, [(3, 0x20), (7, 0x4)], 0xffff, .const 0x800, .unit⟩,
   ⟨"SC_SNAP", true, 0x407fc, [], 0x0, .const 0x0, .unit⟩,
   ⟨"SC_LINKSTAT", true, 0x41000, [(256, 0x4)], 0x0, .const 0x0, .unit⟩,
   ⟨"MCG0", true, 0x300000, [(4096, 0x100)], 0xc0000000, .const 0x0, .unit⟩,
   ⟨"MCG_LINKS", true, 0x300080, [(4096, 0x100), (32, 0x4)], 0xffffffff, .const 0x0, .unit⟩,
   ⟨"FWD_CFG", true, 0x100000, [], 0xffffffff, .const 0x9fffa000, .unit⟩,
   ⟨"FWD_HASH", true, 0x100004, [], 0xfffffe, .const 0x9e3779, .unit⟩,
   ⟨"FWD_LEARN", true, 0x100008, [], 0xffff, .const 0x8, .unit⟩,
   ⟨"FWD_KEY", true, 0x100010, [], 0xffffff, .const 0x0, .unit⟩,
   ⟨"FWD_DATA", true, 0x100014, [], 0xcfff0000, .const 0x0, .unit⟩,
   ⟨"FWD_LOC", true, 0x100018, [], 0xfffff, .const 0x0, .unit⟩,
   ⟨"FWD_CMD", true, 0x10001c, [], 0x0, .const 0x0, .unit⟩,
   ⟨"FWD_CMD_STATUS", true, 0x100020, [], 0x0, .const 0x0, .unit⟩,
   ⟨"FWD_USED", true, 0x100024, [], 0x0, .const 0x0, .unit⟩,
   ⟨"FWD_OVF_USED", true, 0x100028, [], 0x0, .const 0x0, .unit⟩,
   ⟨"FWD_STATUS", true, 0x10002c, [], 0x0, .const 0x0, .unit⟩,
   ⟨"FWD_NR_PI", true, 0x100030, [], 0x0, .const 0x0, .unit⟩,
   ⟨"FWD_NR_CI", true, 0x100034, [], 0x1fff, .const 0x0, .unit⟩,
   ⟨"FWD_NR_THRESH", true, 0x100038, [], 0x1fff, .const 0x800, .unit⟩,
   ⟨"FWD_SNAP", true, 0x1007fc, [], 0x0, .const 0x0, .unit⟩,
   ⟨"LSET0", true, 0x140000, [(4096, 0x40)], 0x8000001f, .const 0x0, .unit⟩,
   ⟨"LSET_LINK", true, 0x140004, [(4096, 0x40), (8, 0x4)], 0x3ff03ff, .const 0x0, .unit⟩,
   ⟨"TM_CFG", true, 0x200000, [], 0xffffffff, .const 0x1000040, .unit⟩,
   ⟨"ECN_THRESH", true, 0x200014, [(7, 0x4)], 0x3fffff, .const 0x4000, .unit⟩,
   ⟨"TC_MAP", true, 0x200034, [(7, 0x4)], 0xfff, .tcMap, .unit⟩,
   ⟨"TM_DRR", true, 0x200050, [(8, 0x4)], 0x800000ff, .const 0x41, .unit⟩,
   ⟨"CMAP_CFG", true, 0x200080, [], 0xe00003ff, .const 0x64, .unit⟩,
   ⟨"CMAP_DST", true, 0x200084, [], 0xffffff, .const 0x0, .unit⟩,
   ⟨"CMAP_JOB", true, 0x200088, [], 0xfff, .const 0x0, .unit⟩,
   ⟨"CMAP_SEQ", true, 0x20008c, [], 0x0, .const 0x0, .unit⟩,
   ⟨"TM_SNAP", true, 0x2007fc, [], 0x0, .const 0x0, .unit⟩,
   ⟨"SHAPER0", true, 0x210000, [(256, 0x80), (8, 0x10)], 0xc0ffffff, .const 0x0, .unit⟩,
   ⟨"SHAPER1", true, 0x210004, [(256, 0x80), (8, 0x10)], 0xfffff, .const 0x218c, .unit⟩,
   ⟨"SHAPER2", true, 0x210008, [(256, 0x80), (8, 0x10)], 0xfffff, .const 0x10c6, .unit⟩,
   ⟨"SHAPER3", true, 0x21000c, [(256, 0x80), (8, 0x10)], 0x0, .const 0x0, .unit⟩]

/-- Rows of the register map, part 4. -/
def regRows4 : List RDef :=
  [⟨"SH_OVH", true, 0x218000, [(256, 0x4)], 0x1ff, .const 0x86, .unit⟩,
   ⟨"METER0", true, 0x220000, [(1024, 0x40)], 0x4fffffff, .const 0xfffffff, .unit⟩,
   ⟨"METER1", true, 0x220004, [(1024, 0x40)], 0xfffffff, .const 0x0, .unit⟩,
   ⟨"METER2", true, 0x220008, [(1024, 0x40)], 0xffffff, .const 0x10000, .unit⟩,
   ⟨"METER3", true, 0x22000c, [(1024, 0x40)], 0xffffff, .const 0x10000, .unit⟩,
   ⟨"METER4", true, 0x220010, [(1024, 0x40)], 0xff, .const 0x0, .unit⟩,
   ⟨"METER_TC", true, 0x220014, [(1024, 0x40)], 0x0, .const 0x10000, .unit⟩,
   ⟨"METER_TE", true, 0x220018, [(1024, 0x40)], 0x0, .const 0x10000, .unit⟩,
   ⟨"JOB_MTR", true, 0x230000, [(4096, 0x4)], 0x800000ff, .const 0x0, .unit⟩,
   ⟨"XB_ARB_CFG", true, 0x240000, [(3, 0x200)], 0x80ffffff, .const 0x4000, .unit⟩,
   ⟨"XB_ARB_SEED", true, 0x240004, [(3, 0x200)], 0x0, .const 0x0, .unit⟩,
   ⟨"XB_ARB_LFSR", true, 0x240008, [(3, 0x200)], 0x0, .const 0xace12357, .unit⟩,
   ⟨"XB_ARB_STATUS", true, 0x24000c, [(3, 0x200)], 0x0, .const 0x80000000, .unit⟩,
   ⟨"XB_ARB_STARVE", true, 0x240010, [(3, 0x200)], 0x0, .const 0x0, .unit⟩,
   ⟨"XB_ARB_TICKETS", true, 0x240020, [(3, 0x200)], 0xffffff, .const 0x101010, .unit⟩,
   ⟨"XB_ARB_CAL", true, 0x240100, [(3, 0x200), (64, 0x4)], 0xffffffff, .xbCal, .unit⟩,
   ⟨"IG_ARB_CFG", true, 0x240800, [(3, 0x200)], 0x80ffffff, .const 0x4000, .unit⟩,
   ⟨"IG_ARB_SEED", true, 0x240804, [(3, 0x200)], 0x0, .const 0x0, .unit⟩,
   ⟨"IG_ARB_LFSR", true, 0x240808, [(3, 0x200)], 0x0, .const 0xace12357, .unit⟩,
   ⟨"IG_ARB_STATUS", true, 0x24080c, [(3, 0x200)], 0x0, .const 0x80000000, .unit⟩,
   ⟨"IG_ARB_STARVE", true, 0x240810, [(3, 0x200)], 0x0, .const 0x0, .unit⟩,
   ⟨"IG_ARB_TICKETS0", true, 0x240820, [(3, 0x200)], 0xffffffff, .const 0x20404040, .unit⟩,
   ⟨"IG_ARB_TICKETS1", true, 0x240824, [(3, 0x200)], 0xff, .const 0x10, .unit⟩,
   ⟨"IG_ARB_CAL", true, 0x240900, [(3, 0x200), (64, 0x4)], 0xffffffff, .const 0xffffffff, .unit⟩,
   ⟨"AP_ARB_CFG", true, 0x241000, [], 0x80ffffff, .const 0x4000, .unit⟩,
   ⟨"AP_ARB_SEED", true, 0x241004, [], 0x0, .const 0x0, .unit⟩,
   ⟨"AP_ARB_LFSR", true, 0x241008, [], 0x0, .const 0xace12357, .unit⟩,
   ⟨"AP_ARB_STATUS", true, 0x24100c, [], 0x0, .const 0x80000000, .unit⟩,
   ⟨"AP_ARB_STARVE", true, 0x241010, [], 0x0, .const 0x0, .unit⟩,
   ⟨"AP_ARB_TICKETS", true, 0x241020, [(2, 0x4)], 0xffffffff, .const 0x8080808, .unit⟩,
   ⟨"AP_ARB_CAL", true, 0x241100, [(64, 0x4)], 0xffffffff, .const 0xffffffff, .unit⟩,
   ⟨"ALY_SNAP", true, 0x4407fc, [], 0x0, .const 0x0, .unit⟩,
   ⟨"CE_CFG", true, 0x480000, [], 0x80000fff, .const 0x80000000, .unit⟩,
   ⟨"CE_SPILL_BASE_LO", true, 0x480008, [], 0xfffff000, .const 0x0, .unit⟩,
   ⟨"CE_SPILL_BASE_HI", true, 0x48000c, [], 0x1ff, .const 0x0, .unit⟩,
   ⟨"CE_TIMEOUT", true, 0x480010, [], 0xffffff, .const 0x2710, .unit⟩,
   ⟨"CE_BEACON", true, 0x480014, [], 0xffffff, .const 0x3e80, .unit⟩,
   ⟨"CE_STATUS", true, 0x480020, [], 0x0, .const 0x0, .unit⟩,
   ⟨"CE_FREE", true, 0x480024, [], 0x0, .const 0x400, .unit⟩,
   ⟨"CE_OWED", true, 0x480028, [], 0x0, .const 0x0, .unit⟩]

/-- Rows of the register map, part 5. -/
def regRows5 : List RDef :=
  [⟨"CE_CR_PI", true, 0x480030, [], 0x0, .const 0x0, .unit⟩,
   ⟨"CE_CR_CI", true, 0x480034, [], 0x1fff, .const 0x0, .unit⟩,
   ⟨"CE_CR_THRESH", true, 0x480038, [], 0x1fff, .const 0x800, .unit⟩,
   ⟨"CE_SNAP", true, 0x4807fc, [], 0x0, .const 0x0, .unit⟩,
   ⟨"CE_SLOT", true, 0x490000, [(4096, 0x10), (4, 0x4)], 0x0, .const 0x0, .unit⟩,
   ⟨"CE_HIST", true, 0x780000, [(4096, 0x80), (32, 0x4)], 0x0, .const 0x0, .unit⟩,
   ⟨"FI_STATUS", true, 0x4c0000, [], 0x0, .const 0x0, .unit⟩,
   ⟨"FI_SNAP", true, 0x4c07fc, [], 0x0, .const 0x0, .unit⟩,
   ⟨"FI_REC", true, 0x4c1000, [(256, 0x20), (8, 0x4)], 0x0, .const 0x0, .unit⟩,
   ⟨"LX_CFG", true, 0x500000, [], 0x8000ffff, .const 0x4000, .unit⟩,
   ⟨"LX_STATUS", true, 0x500004, [], 0x0, .const 0x0, .unit⟩,
   ⟨"CS_RANGE0", true, 0x500100, [(16, 0x40)], 0x80000000, .const 0x0, .unit⟩,
   ⟨"CS_RANGE1", true, 0x500104, [(16, 0x40)], 0x3ffff, .const 0x0, .unit⟩,
   ⟨"CS_RANGE2", true, 0x500108, [(16, 0x40)], 0x7ffff, .const 0x0, .unit⟩,
   ⟨"CS_DIGEST", true, 0x500110, [(16, 0x40), (8, 0x4)], 0x0, .const 0x0, .unit⟩,
   ⟨"LX_SNAP", true, 0x5007fc, [], 0x0, .const 0x0, .unit⟩,
   ⟨"LE_CTRL", true, 0x510000, [(64, 0x800)], 0x1, .const 0x0, .unit⟩,
   ⟨"LE_STATUS", true, 0x510004, [(64, 0x800)], 0x0, .const 0x80000000, .unit⟩,
   ⟨"LE_CFG", true, 0x510008, [(64, 0x800)], 0x8fff0fff, .const 0x4000000, .unit⟩,
   ⟨"LE_TASK", true, 0x51000c, [(64, 0x800)], 0xffffffff, .const 0x0, .unit⟩,
   ⟨"WK_CTRL", true, 0x510100, [(64, 0x800), (32, 0x20)], 0x0, .const 0x0, .unit⟩,
   ⟨"WK_STATE", true, 0x510104, [(64, 0x800), (32, 0x20)], 0x0, .const 0x0, .unit⟩,
   ⟨"WK_ARG_LO", true, 0x510108, [(64, 0x800), (32, 0x20)], 0xffffffff, .const 0x0, .unit⟩,
   ⟨"WK_ARG_HI", true, 0x51010c, [(64, 0x800), (32, 0x20)], 0xffffffff, .const 0x0, .unit⟩,
   ⟨"WK_FAULT", true, 0x510110, [(64, 0x800), (32, 0x20)], 0x0, .const 0x0, .unit⟩,
   ⟨"WK_TRAP", true, 0x510114, [(64, 0x800), (32, 0x20)], 0x0, .const 0x0, .unit⟩,
   ⟨"WK_FADDR_LO", true, 0x510118, [(64, 0x800), (32, 0x20)], 0x0, .const 0x0, .unit⟩,
   ⟨"WK_FADDR_HI", true, 0x51011c, [(64, 0x800), (32, 0x20)], 0x0, .const 0x0, .unit⟩,
   ⟨"TQ_TX", true, 0x540000, [(4, 0x4)], 0x0, .const 0x0, .unit⟩,
   ⟨"TQ_TX_CTL", true, 0x540010, [], 0x0, .const 0x0, .unit⟩,
   ⟨"TQ_STATUS", true, 0x540014, [], 0x0, .const 0x0, .unit⟩,
   ⟨"TSQ_PI", true, 0x540020, [], 0x0, .const 0x0, .unit⟩,
   ⟨"TSQ_CI", true, 0x540024, [], 0x7f, .const 0x0, .unit⟩,
   ⟨"TRX_PI", true, 0x540028, [], 0x0, .const 0x0, .unit⟩,
   ⟨"TRX_CI", true, 0x54002c, [], 0x7f, .const 0x0, .unit⟩,
   ⟨"TQ_SNAP", true, 0x5407fc, [], 0x0, .const 0x0, .unit⟩,
   ⟨"MS_CFG", true, 0x580000, [], 0x800001ff, .const 0x80000040, .unit⟩,
   ⟨"MS_TAGS", true, 0x580004, [], 0xffff, .const 0x8000, .unit⟩,
   ⟨"MS_STATUS", true, 0x580008, [], 0x0, .const 0x0, .unit⟩,
   ⟨"MS_SNAP", true, 0x5807fc, [], 0x0, .const 0x0, .unit⟩]

/-- Rows of the register map, part 6. -/
def regRows6 : List RDef :=
  [⟨"IG_CTRL", true, 0x5c0000, [(3, 0x10000)], 0xc01f0000, .const 0x40000000, .unit⟩,
   ⟨"IG_STATUS", true, 0x5c0004, [(3, 0x10000)], 0x0, .const 0x800, .unit⟩,
   ⟨"IG_ECC_CFG", true, 0x5c0008, [(3, 0x10000)], 0xffffffff, .const 0x18040008, .unit⟩,
   ⟨"IG_RETIRE", true, 0x5c000c, [(3, 0x10000)], 0x0, .const 0x0, .unit⟩,
   ⟨"IG_LAST_RETIRED", true, 0x5c0010, [(3, 0x10000)], 0x0, .const 0x0, .unit⟩,
   ⟨"IG_SNAP", true, 0x5c07fc, [(3, 0x10000)], 0x0, .const 0x0, .unit⟩,
   ⟨"LP_CMD", true, 0x600000, [], 0x0, .const 0x0, .unit⟩,
   ⟨"LP_CFG", true, 0x600004, [], 0x1, .const 0x0, .unit⟩,
   ⟨"LP_AT_LO", true, 0x600008, [], 0xffffffff, .const 0x0, .unit⟩,
   ⟨"LP_AT_HI", true, 0x60000c, [], 0xffffffff, .const 0x0, .unit⟩,
   ⟨"LP_STATUS", true, 0x600010, [], 0x0, .const 0x0, .unit⟩,
   ⟨"LP_INSTANT_LO", true, 0x600018, [], 0x0, .const 0x0, .unit⟩,
   ⟨"LP_INSTANT_HI", true, 0x60001c, [], 0x0, .const 0x0, .unit⟩,
   ⟨"LP_SNAP", true, 0x6000fc, [], 0x0, .const 0x0, .unit⟩,
   ⟨"ROUTE0", true, 0x610000, [(1024, 0x20)], 0xe70f001f, .const 0x0, .unit⟩,
   ⟨"ROUTE_OUT", true, 0x610004, [(1024, 0x20), (4, 0x4)], 0x1fff1fff, .const 0x0, .unit⟩,
   ⟨"ROUTE5", true, 0x610014, [(1024, 0x20)], 0x0, .const 0x0, .unit⟩,
   ⟨"PE_CFG", true, 0x700000, [(4, 0x4000)], 0x8000ffff, .const 0x8000961e, .unit⟩,
   ⟨"PE_THERM", true, 0x700010, [(4, 0x4000)], 0x0, .const 0x0, .unit⟩,
   ⟨"PE_MATE", true, 0x700020, [(4, 0x4000)], 0x0, .const 0x0, .unit⟩,
   ⟨"PE_RING", true, 0x700100, [(4, 0x4000), (8, 0x48), (9, 0x8), (2, 0x4)], 0x0, .const 0xf000000, .unit⟩,
   ⟨"PMC_CTL", true, 0x640000, [(48, 0x100)], 0x80000000, .const 0x0, .unit⟩,
   ⟨"PMC_SEL", true, 0x640010, [(48, 0x100), (8, 0x4)], 0x800fffff, .const 0xff000, .unit⟩,
   ⟨"PMC_LO", true, 0x640040, [(48, 0x100), (8, 0x8)], 0xffffffff, .const 0x0, .unit⟩,
   ⟨"PMC_HI", true, 0x640044, [(48, 0x100), (8, 0x8)], 0xffff, .const 0x0, .unit⟩,
   ⟨"MON_CFG", true, 0x680000, [(16, 0x200)], 0xffffffff, .const 0x0, .unit⟩,
   ⟨"MON_BASE", true, 0x680004, [(16, 0x200)], 0xffffffff, .const 0x0, .unit⟩,
   ⟨"MON_WIDTH", true, 0x680008, [(16, 0x200)], 0xffffffff, .const 0x1, .unit⟩,
   ⟨"MON_PERIOD", true, 0x68000c, [(16, 0x200)], 0xffff, .const 0xa, .unit⟩,
   ⟨"MON_SNAP", true, 0x680010, [(16, 0x200)], 0x0, .const 0x0, .unit⟩,
   ⟨"DMA_CTL", true, 0x400000, [(8, 0x100)], 0x8000000f, .const 0x4, .hif⟩,
   ⟨"DMA_STATUS", true, 0x400004, [(8, 0x100)], 0x0, .const 0x0, .hif⟩,
   ⟨"DMA_RING_LO", true, 0x400008, [(8, 0x100)], 0xfffff000, .const 0x0, .hif⟩,
   ⟨"DMA_RING_HI", true, 0x40000c, [(8, 0x100)], 0xffffffff, .const 0x0, .hif⟩,
   ⟨"DMA_TAIL", true, 0x400010, [(8, 0x100)], 0x1ffff, .const 0x0, .hif⟩,
   ⟨"DMA_HEAD", true, 0x400014, [(8, 0x100)], 0x0, .const 0x0, .hif⟩,
   ⟨"DMA_SNAP", true, 0x40007c, [(8, 0x100)], 0x0, .const 0x0, .hif⟩]

/-- Every register of the spec (SNAP and the counters apart, which `Ctr` names). -/
def regRows : List RDef :=
  regRows0 ++ regRows1 ++ regRows2 ++ regRows3 ++ regRows4 ++ regRows5 ++ regRows6


/-- Matches an offset relative to a family's base against its strides; answers the indices. -/
def matchDims : List (Nat × Nat) → Nat → Option (List Nat)
  | [], 0 => some []
  | [], _ + 1 => none
  | (c, st) :: ds, r =>
    if r / st < c then (matchDims ds (r % st)).map (r / st :: ·) else none

/-- The offset of `a` within the scope of a row: absolute, or within a quadrant block. -/
def RDef.relative (d : RDef) (a : Nat) : Option Nat :=
  if d.quad then
    if 0x1000000 ≤ a ∧ a < 0x3000000 ∧ d.off ≤ a % 0x800000 then some (a % 0x800000 - d.off) else none
  else if d.off ≤ a then some (a - d.off) else none

/-- The indices of `a` as an instance of row `d`, where it is one. -/
def RDef.indices (d : RDef) (a : Nat) : Option (List Nat) := (d.relative a).bind (matchDims d.dims)

/-- Does row `d` define the register at `a`? -/
def RDef.covers (d : RDef) (a : Nat) : Bool := (d.indices a).isSome

/-- The row that defines the register at BAR0 offset `a` (R19: none where no register is defined). -/
def regDef (a : Nat) : Option RDef := regRows.find? (·.covers a)

/-- Reset value of UNIT_STATE{u}: quadrant dies, photonic engines, clusters and tiles SERVICE, stacks INIT
(R462 gives only "by CAP_UNITS"; DESIGN CHOICE, log entry 4). -/
def unitStateReset (u : Nat) : Word := if 20 ≤ u ∧ u < 32 then 0x30000000 else 0x40000000

/-- The value a reset rule gives for the instance with indices `ix`. -/
def ResetRule.value (r : ResetRule) (ix : List Nat) : Word :=
  match r with
  | .const w => w
  | .capUnits => 0x1FFFF1C1
  | .secFuse => 0
  | .unitState => unitStateReset (ix.headD 0)
  | .tcMap => BitVec.ofNat 32 ((ix.headD 0 + 1) * 585)
  | .xbCal => if (ix.getD 1 0) % 2 = 0 then 0x01000000 else 0x02000000

/-- What the register at `a` holds at reset: the value its field table gives, zero where no register is defined. -/
def resetAt (a : Nat) : Word :=
  match regDef a with
  | none => 0
  | some d => d.reset.value ((d.indices a).getD [])

/-- The bits of the register at `a` that a plain write changes (type RW). -/
def rwMaskAt (a : Nat) : Word :=
  match regDef a with
  | none => 0
  | some d => d.rw

end Sys2Proof
end

