-- ==== Sys2Proof/Machine/State.lean ====
section
/-!
DEFINITION. The state of the EMK1024 as plain data, and the state after reset.
-/
namespace Sys2Proof.Machine

/-- Reasons to stop with a fault.  No meaning of this model ends in one (NOTES.md, Stops): the type is closed and has one
constructor, raised by nothing. -/
inductive Fault where
  /-- Raised by no command; kept so that the type is inhabited. Safe. -/
  | none
  deriving DecidableEq, Repr

/-- Reasons to refuse a command. -/
inductive Refusal where
  /-- Raised by `exec`'s arm of a command that has no meaning yet, with its mnemonic. Safe: nothing can be proved of it. -/
  | notModelled (mnemonic : String)
  deriving DecidableEq, Repr

/-- The machine: the waiting commands and every piece of state the spec gives the device. -/
structure State where
  /-- Commands waiting, first in first out (the block's own queue). -/
  pending : List Instr
  /-- Every register of the register map at its BAR0 offset; an unlisted one reads its reset value. -/
  regs : Tbl Word
  /-- Staged values of R511, by register offset; an unlisted one equals the applied value. -/
  staged : Tbl Word
  /-- Live statistics counters by BAR0 offset (R427). -/
  ctr : Tbl Count48
  /-- Holding registers of the statistics counters (R427). -/
  hold : Tbl Count48
  time : TimeSt
  /-- Software time ports by quadrant (R407). -/
  tq : Tbl TqSt
  log : LogSt
  /-- Monitors by 16q + m (R475). -/
  mons : Tbl MonSt
  /-- Table repairs in progress (R487): table number, entry, quadrant. -/
  repairs : List (Nat × Nat × Nat)
  host : HostSt
  fuses : Fuses
  power : PowerSt
  boot : BootSt
  sec : SecSt
  unit : UnitSt
  /-- Links by LK number. -/
  links : Tbl LinkSt
  /-- Fabric fibers by F number. -/
  fibers : Tbl FiberSt
  /-- Rings by ring number: 18·8·PE + 18f + 2s + d for an engine's rings, 2304 + 8192q + 8e + n for matrix rings. -/
  rings : Tbl RingSt
  /-- Temperature histories by quadrant. -/
  therm : Tbl ThermSt
  /-- Lightpath blocks by quadrant. -/
  lp : Tbl LpSt
  cal : CalSt
  /-- Forwarding tables by quadrant (R181). -/
  fwd : Tbl FwdSt
  /-- Switch cores by quadrant (chapter 05). -/
  sw : Tbl SwSt
  /-- Arbiters by number: 3q + p bridges, 12 + 3q + s stacks, 24 + q Alloy ports, 28 DMA (R208). -/
  arbs : Tbl ArbSt
  /-- Bytes of Ingot memory by the 41-bit address of R363; unlisted ones read zero (log entry 7). -/
  mem : Tbl Byte
  /-- Ingot stacks by number. -/
  igStacks : Tbl StackSt
  /-- Memory-semantic services by quadrant. -/
  ms : Tbl MemSt
  /-- Collective engines by quadrant. -/
  ce : Tbl CeSt
  /-- Fused-instruction units by quadrant. -/
  fi : Tbl FiSt
  /-- Lantern clusters by quadrant. -/
  lx : Tbl LxSt
  /-- PEER_WRs awaiting their acknowledgement, by quadrant. -/
  peers : Tbl PeerSt
  /-- Valid descriptors of a communicator entry: bit 0 DESC0, bit 1 DESC1 (R252). -/
  descs : Tbl Nat
  /-- Accesses and long operations numbered so far (the model's own field). -/
  accCtr : Nat
  /-- Packets numbered so far (the model's own field). -/
  pktCtr : Nat
  /-- What the device has sent out of its pins, newest first (the model's own field). -/
  out : List Emit
  /-- Number of free values taken so far (the model's own field, log entry 2). -/
  freeCtr : Nat
  deriving DecidableEq, Repr

/-- SHA3-256 of the empty string, the digest of the empty calibration body of `State.reset` (log entry 6). -/
def emptyDigest : List Byte :=
  [0xa7, 0xff, 0xc6, 0xf8, 0xbf, 0x1e, 0xd7, 0x66, 0x51, 0xc1, 0x47, 0x56, 0xa0, 0x61, 0xd6, 0x62,
   0xf5, 0x80, 0xff, 0x4d, 0xe4, 0x3b, 0x49, 0xfa, 0x82, 0xd8, 0x0a, 0x4b, 0x80, 0xf8, 0x43, 0x4a]

/-- A calibration set with an empty body and a correct header. -/
def CalSet.factory : CalSet := ⟨0xA31C0CA1, 1, 0, 0, 0, 0, emptyDigest, []⟩

/-- The time unit after reset (R393, R403). -/
def TimeSt.init : TimeSt := ⟨0, none, 0, 0, 0, 0, [], 0, 0, none, 0⟩

/-- The Ember log after power-on (R479). -/
def LogSt.init : LogSt := ⟨[], [[], [], [], [], []], [0, 0, 0, 0, 0], 0, 0, [], false⟩

/-- The host interface after reset: the sideband shows nothing yet and PERST_N counts as 0 (R414, R415). -/
def HostSt.init : HostSt :=
  ⟨[(false, 0), (false, 0), (false, 0)], [false, false, false], 0, 0, false, false, [0, 0, 0], [], [], []⟩

/-- The fuses of an EMK1024-F at stepping A1, no keys enrolled (log entry 5). -/
def Fuses.init : Fuses :=
  ⟨0x1FFFF1C1, 0, 0, List.replicate 64 0, List.replicate 64 0, false, 0, [], []⟩

/-- The machine right after reset: every register at its reset value. -/
def State.reset : State where
  pending := []
  regs := []
  staged := []
  ctr := []
  hold := []
  time := TimeSt.init
  tq := []
  log := LogSt.init
  mons := []
  repairs := []
  host := HostSt.init
  fuses := Fuses.init
  power := ⟨false, 0, false⟩
  boot := ⟨[], [], 0, none, none, none, 0x00001400, false, 0⟩
  sec := ⟨none, []⟩
  unit := ⟨none, [], []⟩
  links := []
  fibers := []
  rings := []
  therm := []
  lp := []
  cal := ⟨CalSet.factory, CalSet.factory, [], [], none, none, false, false⟩
  fwd := []
  sw := []
  arbs := []
  mem := []
  igStacks := []
  ms := []
  ce := []
  fi := []
  lx := []
  peers := []
  descs := []
  accCtr := 0
  pktCtr := 0
  out := []
  freeCtr := 0

end Sys2Proof.Machine
end

