-- ==== Sys2Proof/Machine/Ops.lean ====
section
/-!
DEFINITION. The named operations every meaning is written with: registers, counters, free values, device time, the Ember
log's entry point, interrupts, the device's outputs, and the per-unit tables.
-/
namespace Sys2Proof.Machine

/-! ### Registers and counters -/

/-- The register at BAR0 offset `a`. -/
def reg (s : State) (a : Nat) : Word := Tbl.get (resetAt a) s.regs a

/-- Sets the register at `a`. -/
def setReg (a : Nat) (v : Word) (s : State) : State := { s with regs := Tbl.set (resetAt a) s.regs a v }

/-- The field `[hi:lo]` of the register at `a`. -/
def rf (s : State) (a hi lo : Nat) : Nat := fld (reg s a) hi lo

/-- Bit `b` of the register at `a`. -/
def rb (s : State) (a b : Nat) : Bool := flag (reg s a) b

/-- Sets the field `[hi:lo]` of the register at `a`. -/
def setRf (a hi lo v : Nat) (s : State) : State := setReg a (setFld (reg s a) hi lo v) s

/-- Sets bit `b` of the register at `a`. -/
def setRb (a b : Nat) (v : Bool) (s : State) : State := setRf a b b (b2n v) s

/-- A 64-bit value held in a low and a high register. -/
def reg64 (s : State) (lo hi : Nat) : Nat := (reg s lo).toNat + (reg s hi).toNat * 2 ^ 32

/-- Sets a 64-bit value held in a low and a high register. -/
def setReg64 (lo hi v : Nat) (s : State) : State :=
  setReg hi (BitVec.ofNat 32 (v / 2 ^ 32)) (setReg lo (BitVec.ofNat 32 v) s)

/-- Writes the software-writable bits of the register at `a` and keeps the others (types RW and RO of R18). -/
def writeRw (a : Nat) (v : Word) (s : State) : State :=
  setReg a ((reg s a &&& ~~~ rwMaskAt a) ||| (v &&& rwMaskAt a)) s

/-- The staged value of a staged word (R511). -/
def stagedReg (s : State) (a : Nat) : Word := Tbl.get (reg s a) s.staged a

/-- The live statistics counter at `a`. -/
def ctr (s : State) (a : Nat) : Count48 := Tbl.get 0 s.ctr a

/-- Adds `n` to a statistics counter, which saturates at its maximum (R427 and the lane counters' rules). -/
def count (a n : Nat) (s : State) : State :=
  { s with ctr := Tbl.set 0 s.ctr a (BitVec.ofNat 48 (min ((ctr s a).toNat + n) (2 ^ 48 - 1))) }

/-- Adds one to a statistics counter. -/
def count1 (a : Nat) (s : State) : State := count a 1 s

/-- Records an event in an SQ flag: sets bit `b` and increments the sequence in bits [23:16] (R426). -/
def sqEvent (a b : Nat) (s : State) : State :=
  setRb a b true (setRf a 23 16 (rf s a 23 16 + 1) s)

/-- Resets every register, staged word, counter and holding register whose BAR0 offset satisfies `p`. -/
def resetRegs (p : Nat → Bool) (s : State) : State :=
  { s with regs := Tbl.keep (fun a => !p a) s.regs, staged := Tbl.keep (fun a => !p a) s.staged,
           ctr := Tbl.keep (fun a => !p a) s.ctr, hold := Tbl.keep (fun a => !p a) s.hold }

/-! ### Free values -/

/-- A free choice (log entry 2). -/
def freeBool (s : State) : Bool × State := (Config.freeBool s.freeCtr, { s with freeCtr := s.freeCtr + 1 })

/-- A free 64-bit value (log entry 2). -/
def freeWord (s : State) : DWord × State := (Config.freeWord s.freeCtr, { s with freeCtr := s.freeCtr + 1 })

/-- `n` free bytes (log entry 2). -/
def freeBytes (n : Nat) (s : State) : List Byte × State :=
  ((List.range n).map (fun i => Config.freeByte (s.freeCtr + i)), { s with freeCtr := s.freeCtr + n })

/-! ### Device time (R393, R394) -/

/-- Device time at counter value `l`, in 1/65,536 tick modulo 2^80 (R394). -/
def devTimeAt (t : TimeSt) (l : Nat) : Nat :=
  ofSigned 80 ((l : Int) * 65536 + t.offset.toNat + (t.rate.toInt * ((l : Int) - t.lref)) / 2 ^ 32)

/-- Device time now, in 1/65,536 tick. -/
def devTime (s : State) : Nat := devTimeAt s.time s.time.l

/-- Device time now in integer ticks. -/
def devTicks (s : State) : Nat := devTime s / 65536

/-! ### Outputs and interrupts -/

/-- Appends to the device's outputs. -/
def emit (e : Emit) (s : State) : State := { s with out := e :: s.out }

/-- Sends the MSI-X message of a vector, or sets its PBA bit while the vector is masked (R436). -/
def sendMsix (v : Nat) (s : State) : State :=
  if rb s (Reg.msixCtrl v) 0 then setRb (Reg.msixPba (v / 32)) (v % 32) true s
  else emit (.msix v (BitVec.ofNat 64 (reg64 s (Reg.msixAddrLo v) (Reg.msixAddrHi v))) (reg s (Reg.msixData v))) s

/-- Is PERST_N in force at 1?  While it is 0 the host interface unit is held in reset (R414, R415). -/
def perstHigh (s : State) : Bool := rb s Reg.hifStatus 29

/-- Raises one event of interrupt source `n` (R436); the unit held in reset counts and sends none (R415). -/
def raise (n : Nat) (s : State) : State :=
  if !perstHigh s then s else
  let s := setRf (Reg.intMap n) 23 16 (rf s (Reg.intMap n) 23 16 + 1) s
  if rb s (Reg.intMap n) 31 then sendMsix (rf s (Reg.intMap n) 10 0) s else s

/-! ### Ember log entries (R480, R481, R484) -/

/-- Classes of an entry (R480). -/
def clsInfo : Nat := 0
def clsCorrected : Nat := 1
def clsPacket : Nat := 2
def clsCollective : Nat := 3
def clsUnit : Nat := 4
def clsDevice : Nat := 5

/-- Layout G of R484. -/
def dataG (a b : Nat) : List Byte := leBytes 8 a ++ leBytes 8 b

/-- Layout L of R484. -/
def dataL (link fiber slot cause ringKind ringIx value : Nat) : List Byte :=
  leBytes 2 link ++ leBytes 1 fiber ++ leBytes 1 slot ++ leBytes 1 cause ++ leBytes 1 ringKind ++ leBytes 2 ringIx ++
    leBytes 4 value ++ zeroBytes 4

/-- Layout K of R484. -/
def dataK (job comm seq chunk status extra : Nat) : List Byte :=
  leBytes 2 job ++ leBytes 2 comm ++ leBytes 4 seq ++ leBytes 4 chunk ++ leBytes 1 status ++ zeroBytes 1 ++ leBytes 2 extra

/-- Layout S of R484. -/
def dataS (sig chunk comm links lowest : Nat) : List Byte :=
  leBytes 4 sig ++ leBytes 4 chunk ++ leBytes 2 comm ++ leBytes 2 links ++ leBytes 2 lowest ++ zeroBytes 2

/-- Layout W of R484; `tail` is FADDR, or CHUNK and SEQ. -/
def dataW (engine wick code fpc tail : Nat) : List Byte :=
  leBytes 1 engine ++ leBytes 1 wick ++ leBytes 1 code ++ zeroBytes 1 ++ leBytes 4 fpc ++ leBytes 8 tail

/-- Layout M of R484. -/
def dataM (addr stack die state cause : Nat) : List Byte :=
  leBytes 8 addr ++ leBytes 1 stack ++ leBytes 1 die ++ leBytes 1 state ++ leBytes 1 cause ++ zeroBytes 4

/-- Layout T of R484. -/
def dataT (theta : Int) (epid state : Nat) : List Byte :=
  leBytes 8 (ofSigned 64 theta) ++ leBytes 3 epid ++ leBytes 1 state ++ zeroBytes 4

/-- Hands an event to the Ember log: quadrant queues hold 64, and an event that finds its queue full is lost and counted
(R481). -/
def logEvent (origin code cls kind unit : Nat) (data : List Byte) (s : State) : State :=
  let ev : LogEv := ⟨BitVec.ofNat 64 (devTicks s), code, origin, cls, kind, unit, data⟩
  let q := s.log.queues.getD origin []
  if origin < 4 && 64 ≤ q.length then
    count1 Ctr.logQdrop { s with log := { s.log with lost := listPut 5 0 s.log.lost origin (s.log.lost.getD origin 0 + 1) } }
  else { s with log := { s.log with queues := listPut 5 [] s.log.queues origin (q ++ [ev]) } }

/-- An entry of the service die with layout G. -/
def logSd (code cls unit a b : Nat) (s : State) : State := logEvent 4 code cls 9 unit (dataG a b) s

/-! ### Per-unit tables -/

/-- Hidden state of link `k`. -/
def link (s : State) (k : Nat) : LinkSt := Tbl.get LinkSt.init s.links k
def setLink (k : Nat) (v : LinkSt) (s : State) : State := { s with links := Tbl.set LinkSt.init s.links k v }
/-- Hidden state of fiber `f`. -/
def fiber (s : State) (f : Nat) : FiberSt := Tbl.get FiberSt.init s.fibers f
def setFiber (f : Nat) (v : FiberSt) (s : State) : State := { s with fibers := Tbl.set FiberSt.init s.fibers f v }
/-- Hidden state of a ring by its number. -/
def ring (s : State) (r : Nat) : RingSt := Tbl.get RingSt.init s.rings r
def setRing (r : Nat) (v : RingSt) (s : State) : State := { s with rings := Tbl.set RingSt.init s.rings r v }
/-- Temperature history of a quadrant. -/
def therm (s : State) (q : Nat) : ThermSt := Tbl.get ThermSt.init s.therm q
def setTherm (q : Nat) (v : ThermSt) (s : State) : State := { s with therm := Tbl.set ThermSt.init s.therm q v }
/-- Lightpath block of a quadrant. -/
def lp (s : State) (q : Nat) : LpSt := Tbl.get LpSt.init s.lp q
def setLp (q : Nat) (v : LpSt) (s : State) : State := { s with lp := Tbl.set LpSt.init s.lp q v }
/-- Forwarding table of a quadrant. -/
def fwd (s : State) (q : Nat) : FwdSt := Tbl.get FwdSt.init s.fwd q
def setFwd (q : Nat) (v : FwdSt) (s : State) : State := { s with fwd := Tbl.set FwdSt.init s.fwd q v }
/-- Switch core of a quadrant. -/
def sw (s : State) (q : Nat) : SwSt := Tbl.get SwSt.init s.sw q
def setSw (q : Nat) (v : SwSt) (s : State) : State := { s with sw := Tbl.set SwSt.init s.sw q v }
/-- An arbiter by its number. -/
def arb (s : State) (i : Nat) : ArbSt := Tbl.get ArbSt.init s.arbs i
def setArb (i : Nat) (v : ArbSt) (s : State) : State := { s with arbs := Tbl.set ArbSt.init s.arbs i v }
/-- A monitor by 16q + m. -/
def mon (s : State) (i : Nat) : MonSt := Tbl.get MonSt.init s.mons i
def setMon (i : Nat) (v : MonSt) (s : State) : State := { s with mons := Tbl.set MonSt.init s.mons i v }
/-- Software time ports of a quadrant. -/
def tq (s : State) (q : Nat) : TqSt := Tbl.get TqSt.init s.tq q
def setTq (q : Nat) (v : TqSt) (s : State) : State := { s with tq := Tbl.set TqSt.init s.tq q v }
/-- A result slot. -/
def rslot (s : State) (i : Nat) : RsSlot := Tbl.get RsSlot.init s.host.slots i
def setRslot (i : Nat) (v : RsSlot) (s : State) : State :=
  { s with host := { s.host with slots := Tbl.set RsSlot.init s.host.slots i v } }
/-- A DMA engine by 8q + e. -/
def dma (s : State) (i : Nat) : DmaSt := Tbl.get DmaSt.init s.host.dma i
def setDma (i : Nat) (v : DmaSt) (s : State) : State :=
  { s with host := { s.host with dma := Tbl.set DmaSt.init s.host.dma i v } }

/-- An Ingot stack. -/
def stack (s : State) (n : Nat) : StackSt := Tbl.get StackSt.init s.igStacks n
def setStack (n : Nat) (v : StackSt) (s : State) : State := { s with igStacks := Tbl.set StackSt.init s.igStacks n v }
/-- The memory-semantic service of a quadrant. -/
def ms (s : State) (q : Nat) : MemSt := Tbl.get MemSt.init s.ms q
def setMs (q : Nat) (v : MemSt) (s : State) : State := { s with ms := Tbl.set MemSt.init s.ms q v }
/-- The collective engine of a quadrant. -/
def ce (s : State) (q : Nat) : CeSt := Tbl.get CeSt.init s.ce q
def setCe (q : Nat) (v : CeSt) (s : State) : State := { s with ce := Tbl.set CeSt.init s.ce q v }
/-- The fused-instruction unit of a quadrant. -/
def fi (s : State) (q : Nat) : FiSt := Tbl.get FiSt.init s.fi q
def setFi (q : Nat) (v : FiSt) (s : State) : State := { s with fi := Tbl.set FiSt.init s.fi q v }
/-- The Lantern cluster of a quadrant. -/
def lx (s : State) (q : Nat) : LxSt := Tbl.get LxSt.init s.lx q
def setLx (q : Nat) (v : LxSt) (s : State) : State := { s with lx := Tbl.set LxSt.init s.lx q v }
/-- The PEER_WRs of a quadrant. -/
def peers (s : State) (q : Nat) : PeerSt := Tbl.get PeerSt.init s.peers q
def setPeers (q : Nat) (v : PeerSt) (s : State) : State := { s with peers := Tbl.set PeerSt.init s.peers q v }
/-- A byte of Ingot memory. -/
def memByte (s : State) (a : Nat) : Byte := Tbl.get 0 s.mem a
def setMemByte (a : Nat) (b : Byte) (s : State) : State := { s with mem := Tbl.set 0 s.mem a b }

/-! ### Personality, parts and unit states (R9, R30 to R32, R462) -/

/-- Is ACTIVE FUSED? -/
def fused (s : State) : Bool := rf s Reg.sdPersonality 17 16 == 1

/-- CAP_UNITS.PART_CODE: 1 F, 2 M, 3 S (R9). -/
def partCode (s : State) : Nat := fld s.fuses.cap 31 28

/-- Is stack IGn fitted and enabled (R9)? -/
def stackPresent (s : State) (n : Nat) : Bool := flag s.fuses.cap (16 + n)

/-- Is the Lantern cluster of QDq fitted (R9)? -/
def clusterPresent (s : State) (q : Nat) : Bool := flag s.fuses.cap (12 + q)

/-- UNIT_STATE of unit u (R462). -/
def unitState (s : State) (u : Nat) : Nat := rf s (Reg.unitState u) 31 28

/-- Is quadrant q in SERVICE (R466)? -/
def quadInService (s : State) (q : Nat) : Bool := unitState s q == 4

/-- Applies `f` for each index below `n`, in ascending order. -/
def forRange (n : Nat) (f : Nat → State → State) (s : State) : State :=
  (List.range n).foldl (fun s i => f i s) s

/-- Applies `f` for each element of a list, in order. -/
def forEach {α : Type} (xs : List α) (f : α → State → State) (s : State) : State :=
  xs.foldl (fun s x => f x s) s

end Sys2Proof.Machine
end

