-- ==== Sys2Proof/Machine/Access.lean ====
section
/-!
DEFINITION. Which registers answer: registers of absent, gated and unit-reset units read zero and ignore writes (R14, R32,
R465), and the performance event and monitor hooks (R469, R475) that meanings of every chapter call.
-/
namespace Sys2Proof.Machine

/-- The quadrant of a BAR0 offset within a quadrant block. -/
def quadOf (a : Nat) : Nat := (a - 0x1000000) / 0x800000

/-- Does the offset lie in a quadrant block (R420)? -/
def inQuad (a : Nat) : Bool := 0x1000000 ≤ a && a < 0x3000000

/-- Are quadrant q's registers out of reach: it is in RESET, INIT or HELD (R465), or unpowered (R446)? -/
def quadShut (s : State) (q : Nat) : Bool :=
  let st := unitState s q
  st == 2 || st == 3 || st == 5 || st == 7

/-- Is the Lantern cluster of q absent or gated (R31)? -/
def clusterGone (s : State) (q : Nat) : Bool := !(fused s && clusterPresent s q)

/-- Is stack n absent or gated (R31)? -/
def stackGone (s : State) (n : Nat) : Bool := !(fused s && stackPresent s n)

/-- Is unit u of R462 fitted, and powered by the personality? -/
def unitPresent (s : State) (u : Nat) : Bool := unitState s u != 0 && unitState s u != 1

/-- Does the register at `a` read zero and ignore writes because its unit is absent, gated or in reset? -/
def regGated (s : State) (a : Nat) : Bool :=
  if inQuad a then
    let q := quadOf a
    let o := a % 0x800000
    quadShut s q
      || (0x4C0000 ≤ o && o < 0x540000 && clusterGone s q)
      || (0x5C0000 ≤ o && o < 0x5F0000 && stackGone s (3 * q + (o - 0x5C0000) / 0x10000))
      || (0x240800 ≤ o && o < 0x240E00 && stackGone s (3 * q + (o - 0x240800) / 0x200))
      || (0x642C00 ≤ o && o < 0x642D00 && clusterGone s q)
      || (0x642D00 ≤ o && o < 0x643000 && stackGone s (3 * q + (o - 0x642D00) / 0x100))
      || (0x500000 ≤ o && o < 0x540000 && unitState s (32 + q) == 7)
      || (0x5C0000 ≤ o && o < 0x5F0000 && unitState s (20 + 3 * q + (o - 0x5C0000) / 0x10000) == 7)
  else 0x21000 ≤ a && a < 0x21100 && (!fused s || partCode s == 3)

/-- Runs `f` unless the register at `a` is out of reach, in which case the write is ignored. -/
def guardReg (a : Nat) (f : State → State) (s : State) : State := if regGated s a then s else f s

/-- A unit's state changes (R462, R468): entry UNIT_STATE, laid out in B as the register lays STATE and CAUSE, and source
258.  CAUSE: 0 boot, 1 command, 2 rail, 3 initialisation failure, 4 quadrant. -/
def setUnitState (u st cause : Nat) (s : State) : State :=
  if unitState s u = st then s
  else
    let s := setRf (Reg.unitState u) 23 16 cause (setRf (Reg.unitState u) 31 28 st s)
    raise 258 (logSd 0x0903 clsInfo u u (st * 2 ^ 28 + cause * 2 ^ 16) s)

/-- Is entry `e` of table `t` (0 COMM, 1 JOB_EPOCH, 2 RGN, 3 RGN_MEM) in repair in quadrant q's copy?  What needs it waits
(R487). -/
def repairing (s : State) (q t e : Nat) : Bool := s.repairs.contains (t, e, q)

/-- Is a DEVICE fault in force (R490)? -/
def devFault (s : State) : Bool := rb s Reg.faultStatus 31

/-- The unit command ends with a result, or without one (R463, R467, R492). -/
def urEnd (result : Option Nat) (s : State) : State :=
  let s := setRb Reg.urStatus 31 false { s with unit := { s.unit with cmd := none } }
  match result with
  | some r => setRf Reg.urStatus 3 0 r s
  | none => s

/-! ### Performance counters (R469 to R472) -/

/-- The performance page of unit x of quadrant q counts (RUN and GRUN, R469). -/
def pmcOn (s : State) (q x : Nat) : Bool := rb s (Reg.pmcCtl q x) 31 && rb s Reg.pmcGlobal 0

/-- The value of performance counter i of unit x. -/
def pmcVal (s : State) (q x i : Nat) : Nat := (reg s (Reg.pmcLo q x i)).toNat + rf s (Reg.pmcHi q x i) 15 0 * 2 ^ 32

/-- Sets performance counter i of unit x, modulo 2^48 (R470). -/
def setPmc (q x i v : Nat) (s : State) : State :=
  setRf (Reg.pmcHi q x i) 15 0 (v / 2 ^ 32) (setReg (Reg.pmcLo q x i) (BitVec.ofNat 32 v) s)

/-- Adds `n` to counter i and carries into counter i + 1 where that one is chained (R470). -/
def pmcAdd (q x i n : Nat) (s : State) : State :=
  let v := pmcVal s q x i + n
  let s := setPmc q x i v s
  if v ≥ 2 ^ 48 && i % 2 == 0 && rb s (Reg.pmcSel q x (i + 1)) 31 then
    setPmc q x (i + 1) (pmcVal s q x (i + 1) + v / 2 ^ 48) s
  else s

/-- The instance of an event that R474 gives none: INST does not narrow it. -/
def noInst : Nat := 0xFF

/-- Does counter i of unit x select event `ev` with instance `inst` (R469, R474)?  An odd counter with CHAIN counts no event of
its own. -/
def pmcSelects (s : State) (q x ev inst i : Nat) : Bool :=
  let sel := reg s (Reg.pmcSel q x i)
  fld sel 11 0 == ev && !(i % 2 == 1 && flag sel 31) &&
    (fld sel 19 12 == 0xFF || inst == noInst || fld sel 19 12 == inst)

/-- `n` occurrences of event `ev` with instance `inst` in unit x of quadrant q: every counter that selects it adds them
(R469, R474). -/
def pmcEvent (q x ev inst n : Nat) (s : State) : State :=
  if pmcOn s q x then forRange 8 (fun i s => if pmcSelects s q x ev inst i then pmcAdd q x i n s else s) s
  else s

/-! ### Monitors (R475, R477) -/

/-- The bucket of value v (R477). -/
def monBucket (cfg base width : Word) (v : Nat) : Nat :=
  if v < base.toNat then 0
  else if flag cfg 30 then min 31 (1 + bitLength ((v - base.toNat) >>> fld cfg 28 24))
  else min 31 (1 + (v - base.toNat) / max 1 width.toNat)

/-- A monitor takes value `v` (R475). -/
def MonVals.take (m : MonVals) (bucket v : Nat) : MonVals where
  min := if v < m.min.toNat || m.count == 0 then BitVec.ofNat 32 v else m.min
  max := if m.max.toNat < v then BitVec.ofNat 32 v else m.max
  count := if m.count.toNat + 1 < 2 ^ 48 then m.count + 1 else m.count
  sum := m.sum + BitVec.ofNat 64 v
  buckets := listPut 32 0 m.buckets bucket
    (if (m.buckets.getD bucket 0).toNat + 1 < 2 ^ 32 then m.buckets.getD bucket 0 + 1 else m.buckets.getD bucket 0)

/-- Monitor m of quadrant q takes value `v`. -/
def monTake (q m v : Nat) (s : State) : State :=
  let b := monBucket (reg s (Reg.monCfg q m)) (reg s (Reg.monBase q m)) (reg s (Reg.monWidth q m)) v
  setMon (16 * q + m) { mon s (16 * q + m) with live := (mon s (16 * q + m)).live.take b v } s

/-- An event source gives value `v`: every enabled monitor of that KIND whose INST satisfies `p` takes it (R476). -/
def monEvent (q kind : Nat) (p : Nat → Bool) (v : Nat) (s : State) : State :=
  forRange 16 (fun m s =>
    let cfg := reg s (Reg.monCfg q m)
    if flag cfg 31 && fld cfg 23 16 == kind && p (fld cfg 15 0) then monTake q m v s else s) s

end Sys2Proof.Machine
end

