-- ==== Sys2Proof/Machine/Forwarding.lean ====
section
/-!
DEFINITION. Forwarding tables: hashing, the command interface, learning, the notice ring and aging (R174 to R195, R516).
-/
namespace Sys2Proof.Machine

/-- NOW16: bits [35:20] of the free-running counter (R180). -/
def now16 (s : State) : Nat := (s.time.l / 2 ^ 20) % 2 ^ 16

/-- HASH_K of quadrant q (R181). -/
def hashK (s : State) (q : Nat) : Nat := rf s (Reg.fwdHash q) 23 0

/-- The bucket of a destination (R181). -/
def fwdBucket (k d : Nat) : Nat := ((d * k) % 2 ^ 24) / 2 ^ 7

/-- The entry at a location. -/
def fwdAt (s : State) (q loc : Nat) : Option FwdEntry := Tbl.get none (fwd s q).table loc

/-- The location of a destination: in its bucket, else in the overflow store (R181). -/
def fwdFind (s : State) (q d : Nat) : Option Nat :=
  let b := 4 * fwdBucket (hashK s q) d
  let hit := fun loc => (fwdAt s q loc).any (fun e => e.dst == d)
  match (List.range 4).find? (fun w => hit (b + w)) with
  | some w => some (b + w)
  | none => ((fwd s q).table.find? (fun e => 0x80000 ≤ e.1 && e.2.any (fun x => x.dst == d))).map (·.1)

/-- The lowest-numbered free overflow entry, where one is free. -/
def ovfFree (t : Tbl (Option FwdEntry)) : Option Nat :=
  let used := (t.filter (fun e => 0x80000 ≤ e.1)).map (·.1)
  let free := used.foldl (fun n loc => if loc = 0x80000 + n then n + 1 else n) 0
  if free < 8192 then some (0x80000 + free) else none

/-- The place INSERT gives a new entry (R182). -/
def fwdPlace (s : State) (q d : Nat) : Option Nat :=
  let b := 4 * fwdBucket (hashK s q) d
  match (List.range 4).find? (fun w => (fwdAt s q (b + w)).isNone) with
  | some w => some (b + w)
  | none => ovfFree (fwd s q).table

/-- Writes a location and keeps FWD_USED, FWD_OVF_USED and OVF_FULL. -/
def fwdPut (q loc : Nat) (e : Option FwdEntry) (s : State) : State :=
  let old := fwdAt s q loc
  let s := setFwd q { fwd s q with table := Tbl.set none (fwd s q).table loc e } s
  let a := if loc < 0x80000 then Reg.fwdUsed q else Reg.fwdOvfUsed q
  let n := (reg s a).toNat + b2n e.isSome - b2n old.isSome
  setRb (Reg.fwdStatus q) 0 (rf (setReg a (BitVec.ofNat 32 n) s) (Reg.fwdOvfUsed q) 13 0 == 8192)
    (setReg a (BitVec.ofNat 32 n) s)

/-- The FWD_DATA image of an entry (R183). -/
def FwdEntry.data (e : FwdEntry) : Word :=
  BitVec.ofNat 32 (b2n e.pin * 2 ^ 31 + b2n e.mc * 2 ^ 30 + b2n e.aged * 2 ^ 29 + e.target * 2 ^ 16 + e.ts)

/-- An entry refreshed by a hit: TS := NOW16, AGED := 0 (R180). -/
def FwdEntry.touch (e : FwdEntry) (now : Nat) : FwdEntry := { e with ts := now, aged := false }

/-! ### The notice ring (R187 to R190) -/

/-- Entries in the notice ring, PI − CI modulo 8,192. -/
def nrFill (s : State) (q : Nat) : Nat := (rf s (Reg.fwdNrPi q) 12 0 + 8192 - rf s (Reg.fwdNrCi q) 12 0) % 8192

/-- NOTICE_PENDING and NOTICE_OVF follow the indices; the change of NOTICE_OVF from 0 to 1 is logged (R516). -/
def nrStatus (q : Nat) (s : State) : State :=
  let was := rb s (Reg.fwdStatus q) 2
  let full := nrFill s q == 4096
  let s := setRb (Reg.fwdStatus q) 2 full (setRb (Reg.fwdStatus q) 1 (0 < nrFill s q) s)
  if full && !was then logEvent q 0x0305 clsInfo 0 q (dataG (rf s (Reg.fwdNrPi q) 12 0) 0) s else s

/-- The interrupt of R190: raised at NR_THRESH, or at the first notice with NR_THRESH 0, and re-armed below it. -/
def nrInterrupt (q : Nat) (s : State) : State :=
  let t := max 1 (rf s (Reg.fwdNrThresh q) 12 0)
  if t ≤ nrFill s q then
    if (fwd s q).fired then s else raise (64 * q + 32) (setFwd q { fwd s q with fired := true } s)
  else setFwd q { fwd s q with fired := false } s

/-- The 16 bytes of a notice (R189). -/
def noticeBytes (ep type link job vc loc target time : Nat) : List Byte :=
  leBytes 3 ep ++ leBytes 1 type ++ leBytes 2 link ++ leBytes 2 (job + vc * 4096) ++ leBytes 4 (loc + target * 2 ^ 20) ++
    leBytes 4 time

/-- Puts a notice into the ring; answers whether it was lost to a full ring (R188). -/
def noticePost (q : Nat) (bytes : List Byte) (s : State) : Bool × State :=
  if nrFill s q == 4096 then (false, count1 (Ctr.noticeDrop q) s)
  else
    let pi := rf s (Reg.fwdNrPi q) 12 0
    let s := setFwd q { fwd s q with ring := Tbl.set (zeroBytes 16) (fwd s q).ring (pi % 4096) bytes } s
    (true, nrInterrupt q (nrStatus q (setRf (Reg.fwdNrPi q) 12 0 (pi + 1) s)))

/-- Bits [39:8] of device time (R189). -/
def noticeTime (s : State) : Nat := (devTicks s / 256) % 2 ^ 32

/-- A LEARN or MOVE notice through the filter of recent notices, least recently used replaced (R187): a use of the filter's
entry is a match; only a notice that was posted enters it. -/
def learnNotice (q ep type link job vc loc target : Nat) (s : State) : State :=
  let old := (fwd s q).filter
  let rest := old.filter (fun f => f.1 != ep)
  match old.find? (fun f => f.1 == ep && s.time.l < f.2 + rf s (Reg.fwdLearn q) 15 0 * 2 ^ 20) with
  | some f => count1 (Ctr.learnSuppress q) (setFwd q { fwd s q with filter := f :: rest } s)
  | none =>
    match noticePost q (noticeBytes ep type link job vc loc target (noticeTime s)) s with
    | (false, s) => s
    | (true, s) =>
      count1 (Ctr.learnPosted q) (setFwd q { fwd s q with filter := ((ep, s.time.l) :: rest).take 256 } s)

/-! ### Link sets (R184) -/

/-- The link of position n of a set, where the position holds one. -/
def lsetLink (s : State) (q set n : Nat) : Option Nat :=
  let w := reg s (Reg.lsetLink q set (n / 2))
  if flag w (16 * (n % 2) + 15) then none else some (fld w (16 * (n % 2) + 9) (16 * (n % 2)))

/-- The links of a set in list order, positions that hold no link skipped. -/
def lsetLinks (s : State) (q set : Nat) : List Nat :=
  (List.range (min 16 (rf s (Reg.lset0 q set) 4 0))).filterMap (lsetLink s q set)

/-- A set that lookups may use: VALID, and at least one position below COUNT holds a link (R176, R184). -/
def lsetOk (s : State) (q set : Nat) : Bool := rb s (Reg.lset0 q set) 31 && (lsetLinks s q set) ≠ []

/-! ### The command interface (R185) -/

/-- Completes a command: RESULT, and BUSY until the next tick of the model (log entry 8). -/
def fwdDone (q result : Nat) (s : State) : State :=
  setRb (Reg.fwdCmdStatus q) 31 true (setRf (Reg.fwdCmdStatus q) 3 0 result s)

/-- A command write: ignored with CMD_OVERRUN set while BUSY (R185, R516); `f` is the command. -/
def fwdCommand (q : Nat) (f : State → State) (s : State) : State :=
  guardReg (Reg.fwdCmd q) (fun s =>
    if rb s (Reg.fwdCmdStatus q) 31 then logEvent q 0x0304 clsInfo 0 q (dataG 0 0) (sqEvent (Reg.fwdCmdStatus q) 30 s)
    else f s) s

/-- FWD_KEY's DST. -/
def fwdKey (s : State) (q : Nat) : Nat := rf s (Reg.fwdKey q) 23 0

/-- INSERT (R182, R185). -/
def fwdInsert (q : Nat) (s : State) : State :=
  let d := fwdKey s q
  let w := reg s (Reg.fwdData q)
  match fwdFind s q d with
  | some loc => fwdDone q 2 (setRf (Reg.fwdLoc q) 19 0 loc s)
  | none =>
    match fwdPlace s q d with
    | none => fwdDone q 3 (logEvent q 0x0306 clsInfo 0 q (dataG d 0) (count1 (Ctr.fwdInsertFail q) s))
    | some loc =>
      fwdDone q 0 (setRf (Reg.fwdLoc q) 19 0 loc
        (fwdPut q loc (some ⟨d, flag w 31, flag w 30, false, fld w 27 16, now16 s⟩) s))

/-- UPDATE (R185). -/
def fwdUpdate (q : Nat) (s : State) : State :=
  let w := reg s (Reg.fwdData q)
  match fwdFind s q (fwdKey s q) with
  | none => fwdDone q 1 s
  | some loc =>
    fwdDone q 0 (setRf (Reg.fwdLoc q) 19 0 loc
      (fwdPut q loc (some ⟨fwdKey s q, flag w 31, flag w 30, false, fld w 27 16, now16 s⟩) s))

/-- DELETE (R185). -/
def fwdDelete (q : Nat) (s : State) : State :=
  match fwdFind s q (fwdKey s q) with
  | none => fwdDone q 1 s
  | some loc => fwdDone q 0 (setRf (Reg.fwdLoc q) 19 0 loc (fwdPut q loc none s))

/-- Shows the entry at `loc` in FWD_KEY and FWD_DATA (R183). -/
def fwdShow (q loc : Nat) (s : State) : State :=
  let s := setFwd q { fwd s q with touched := some ⟨loc, s.time.l, none⟩ } s
  match fwdAt s q loc with
  | none => setReg (Reg.fwdData q) 0 (setReg (Reg.fwdKey q) 0 s)
  | some e => setReg (Reg.fwdData q) e.data (setReg (Reg.fwdKey q) (BitVec.ofNat 32 (2 ^ 31 + e.dst)) s)

/-- A hit refreshes the entry at `loc` (R180). -/
def fwdHit (q loc : Nat) (e : FwdEntry) (s : State) : State :=
  fwdPut q loc (some (e.touch (now16 s))) (setFwd q { fwd s q with touched := some ⟨loc, s.time.l, some e⟩ } s)

/-- LOOKUP (R185). -/
def fwdLookup (q : Nat) (s : State) : State :=
  match fwdFind s q (fwdKey s q) with
  | none => fwdDone q 1 s
  | some loc => fwdDone q 0 (setRf (Reg.fwdLoc q) 19 0 loc (fwdShow q loc s))

/-- READ_LOC (R185): a free location reads as zero, and so does a location above 0x8_1FFF, with NOT_FOUND. -/
def fwdReadLoc (q : Nat) (s : State) : State :=
  let loc := rf s (Reg.fwdLoc q) 19 0
  if 0x81FFF < loc then fwdDone q 1 (setReg (Reg.fwdData q) 0 (setReg (Reg.fwdKey q) 0 s))
  else fwdDone q 0 (fwdShow q loc s)

/-- FWD_INSERT. -/
def execFwdInsert (q : Quad) (s : State) : Host.Outcome State Fault Refusal := .next (fwdCommand q (fwdInsert q) s)
/-- FWD_UPDATE. -/
def execFwdUpdate (q : Quad) (s : State) : Host.Outcome State Fault Refusal := .next (fwdCommand q (fwdUpdate q) s)
/-- FWD_DELETE. -/
def execFwdDelete (q : Quad) (s : State) : Host.Outcome State Fault Refusal := .next (fwdCommand q (fwdDelete q) s)
/-- FWD_LOOKUP. -/
def execFwdLookup (q : Quad) (s : State) : Host.Outcome State Fault Refusal := .next (fwdCommand q (fwdLookup q) s)
/-- FWD_READ_LOC. -/
def execFwdReadLoc (q : Quad) (s : State) : Host.Outcome State Fault Refusal := .next (fwdCommand q (fwdReadLoc q) s)

/-- A command write by its OP (R185): an OP outside the table completes with BAD_OP and changes nothing. -/
def fwdOp (q op : Nat) (s : State) : State :=
  fwdCommand q (fun s =>
    if op == 1 then fwdInsert q s else if op == 2 then fwdUpdate q s else if op == 3 then fwdDelete q s
    else if op == 4 then fwdLookup q s else if op == 5 then fwdReadLoc q s else fwdDone q 4 s) s

/-- FWD_BAD_OP: a write of FWD_CMD with the given OP. -/
def execFwdBadOp (q : Quad) (op : BitVec 4) (s : State) : Host.Outcome State Fault Refusal :=
  .next (fwdOp q op.toNat s)

/-! ### Aging (R191) -/

/-- Would a sweep act on the entry (R191)? -/
def ageDue (s : State) (q : Nat) (e : FwdEntry) : Bool :=
  !e.pin && !e.aged && max 1 (rf s (Reg.fwdCfg q) 14 0) ≤ (now16 s + 65536 - e.ts) % 65536

/-- The sweep removes the entry (R191, R192). -/
def ageRemove (q loc : Nat) (e : FwdEntry) (s : State) : State :=
  let s := count1 (Ctr.agedRemoved q) (fwdPut q loc none s)
  (noticePost q (noticeBytes e.dst 4 0 0 0 loc e.target (noticeTime s)) s).2

/-- The sweep acts on an entry that is due (R191). -/
def ageAct (q loc : Nat) (e : FwdEntry) (s : State) : State :=
  if rb s (Reg.fwdCfg q) 29 then ageRemove q loc e s
  else
    let s := count1 (Ctr.agedRpt q) (fwdPut q loc (some { e with aged := true }) s)
    (noticePost q (noticeBytes e.dst 3 0 0 0 loc e.target (noticeTime s)) s).2

/-- The last use of the entry at `loc`, where it fell in this tick. -/
def touchedNow (s : State) (q loc : Nat) : Option FwdTouch :=
  (fwd s q).touched.filter (fun t => t.loc == loc && t.tick == s.time.l)

/-- One visit of the sweep to a location (R191).  A use of the entry in the same tick may have been in the same cycle, which a
free choice decides; the commands of one cycle stand with the use first (R192, log entry 63): a command makes the sweep pass
over the entry, and a hit on an entry that was due is followed by its removal with AGE_REMOVE set, and stands with it clear. -/
def ageVisit (q loc : Nat) (s : State) : State :=
  match fwdAt s q loc with
  | none => s
  | some e =>
    match (touchedNow s q loc).map (·.before) with
    | some none =>
      if ageDue s q e then
        match freeBool s with
        | (true, s) => s
        | (false, s) => ageAct q loc e s
      else s
    | some (some old) =>
      if ageDue s q old && rb s (Reg.fwdCfg q) 29 then
        match freeBool s with
        | (true, s) => ageRemove q loc e s
        | (false, s) => s
      else s
    | none => if ageDue s q e then ageAct q loc e s else s

/-- AGE_SWEEP_VISIT: with AGE_EN clear the sweep visits nothing. -/
def execAgeSweepVisit (q : Quad) (loc : BitVec 20) (s : State) : Host.Outcome State Fault Refusal :=
  .next (if rb s (Reg.fwdCfg q) 30 then ageVisit q loc.toNat s else s)

/-- A write of FWD_NR_CI (R188): ignored and counted when ahead of PI or more than 4,096 behind it.  The fill it leaves may
reach NR_THRESH, or drop below it and re-arm the interrupt (R190). -/
def fwdNrCiWrite (q : Nat) (v : Word) (s : State) : State :=
  if (rf s (Reg.fwdNrPi q) 12 0 + 8192 - fld v 12 0) % 8192 ≤ 4096 then
    nrInterrupt q (nrStatus q (setRf (Reg.fwdNrCi q) 12 0 (fld v 12 0) s))
  else count1 (Ctr.fwdCiErr q) s

/-- FWD_NR_CI_WRITE. -/
def execFwdNrCiWrite (q : Quad) (v : Word) (s : State) : Host.Outcome State Fault Refusal :=
  .next (guardReg (Reg.fwdNrCi q) (fwdNrCiWrite q v) s)

/-! ### Lookups at the ingress tile (R176, R187) -/

/-- The outcomes of a DST lookup (R176). -/
inductive DstOutcome where
  | set (n : Nat)
  | group (n : Nat)
  | drop
  deriving DecidableEq, Repr

/-- A miss: the flood group, or a drop (R176). -/
def dstMiss (q : Nat) (s : State) : DstOutcome × State :=
  if rb s (Reg.fwdCfg q) 31 then (.group (rf s (Reg.fwdCfg q) 27 16), count1 (Ctr.fwdFlood q) s)
  else (.drop, count1 (Ctr.fwdMissDrop q) s)

/-- The DST lookup up to a miss (R176, R180): `drop` stands for a miss and for a target that cannot be used, a hit of its
own that refreshes the entry. -/
def dstFind (q dst : Nat) (s : State) : DstOutcome × State :=
  let s := count1 (Ctr.fwdLookups q) s
  match (fwdFind s q dst).bind (fun loc => (fwdAt s q loc).map (fun e => (loc, e))) with
  | none => (.drop, s)
  | some (loc, e) =>
    let s := fwdHit q loc e s
    if e.mc then
      if rb s (Reg.mcg0 q e.target) 31 then (.group e.target, count1 (Ctr.fwdHits q) s)
      else (.drop, count1 (Ctr.fwdBadTarget q) s)
    else if lsetOk s q e.target then (.set e.target, count1 (Ctr.fwdHits q) s)
    else (.drop, count1 (Ctr.fwdBadTarget q) s)

/-- The DST lookup (R176). -/
def dstLookup (q dst : Nat) (s : State) : DstOutcome × State :=
  match dstFind q dst s with
  | (.drop, s) => dstMiss q s
  | r => r

/-- The SRC lookup of a packet from link `lk` (R180, R187). -/
def srcLookup (q src lk job vc : Nat) (s : State) : State :=
  match (fwdFind s q src).bind (fun loc => (fwdAt s q loc).map (fun e => (loc, e))) with
  | none => if rb s (Reg.fwdCfg q) 28 then learnNotice q src 1 lk job vc 0 0 s else s
  | some (loc, e) =>
    let s := fwdHit q loc e s
    if rb s (Reg.fwdCfg q) 28 && rb s (Reg.fwdCfg q) 15 && !e.mc && !e.pin && !(lsetLinks s q e.target).contains lk then
      learnNotice q src 2 lk job vc loc e.target s
    else s

end Sys2Proof.Machine
end

