-- ==== Sys2Proof/Machine/Packets.lean ====
section
/-!
DEFINITION. Packet headers, the end-to-end CRC, the link CRC and the CTRL records (R110, R111, R121 to R130).
A HEAD flit is 64 bytes; a payload is PLEN bytes.
-/
namespace Sys2Proof.Machine

/-! ### CRCs -/

/-- One step of a reflected 32-bit CRC register with the given reversed polynomial. -/
def crcBits (poly : Nat) : Nat → Nat → Nat
  | 0, c => c
  | n + 1, c => crcBits poly n (if c % 2 == 1 then (c / 2) ^^^ poly else c / 2)

/-- A reflected 32-bit CRC register run over bytes. -/
def crcRun (poly : Nat) (init : Nat) (bs : List Byte) : Nat :=
  bs.foldl (fun c b => crcBits poly 8 (c ^^^ b.toNat)) init

/-- CRC-32 of R128: polynomial 0x04C1_1DB7 reflected. -/
def crc32 (bs : List Byte) : Nat := crcRun 0xEDB88320 0xFFFFFFFF bs ^^^ 0xFFFFFFFF

/-- CRC-32C of R111: polynomial 0x1EDC_6F41 reflected. -/
def crc32c (bs : List Byte) : Nat := crcRun 0x82F63B78 0xFFFFFFFF bs ^^^ 0xFFFFFFFF

/-- One byte of the sideband's CRC-8 (R413). -/
def crc8Bits : Nat → Nat → Nat
  | 0, c => c
  | n + 1, c => crc8Bits n (if 128 ≤ c then ((2 * c) % 256) ^^^ 7 else 2 * c)

/-- CRC-8 of R413: polynomial 0x07, initial value 0, not reflected. -/
def crc8 (bs : List Byte) : Nat := bs.foldl (fun c b => crc8Bits 8 (c ^^^ b.toNat)) 0

/-! ### The common header (R124) -/

def hDst (h : List Byte) : Nat := leAt h 0 3
def hSrc (h : List Byte) : Nat := leAt h 3 3
def hVc (h : List Byte) : Nat := bitsOf (byteAt h 6) 2 0
def hPri (h : List Byte) : Nat := bitsOf (byteAt h 6) 4 3
def hKind (h : List Byte) : Nat := bitsOf (byteAt h 6) 7 5
def hJob (h : List Byte) : Nat := leAt h 7 2 % 4096
def hEpoch (h : List Byte) : Nat := leAt h 9 2
def hPsn (h : List Byte) : Nat := leAt h 11 4
def hPlen (h : List Byte) : Nat := leAt h 15 2 % 8192
def hLast (h : List Byte) : Bool := bitsOf (byteAt h 17) 0 0 == 1
def hStomp (h : List Byte) : Bool := bitsOf (byteAt h 17) 1 1 == 1
def hEcn (h : List Byte) : Bool := bitsOf (byteAt h 17) 2 2 == 1
def hRetry (h : List Byte) : Bool := bitsOf (byteAt h 17) 3 3 == 1
def hCombine (h : List Byte) : Bool := bitsOf (byteAt h 17) 4 4 == 1
def hCrc (h : List Byte) : Nat := leAt h 60 4

/-- Flits of a packet: its HEAD and ⌈PLEN/64⌉ BODY flits (R113). -/
def hFlits (h : List Byte) : Nat := 1 + (hPlen h + 63) / 64

/-- Byte 17 with bits STOMP and ECN taken as zero (R128). -/
def crcHead (h : List Byte) : List Byte :=
  putBytes (h.take 60) 17 [BitVec.ofNat 8 (byteAt h 17 - 2 * b2n (hStomp h) - 4 * b2n (hEcn h))]

/-- The end-to-end CRC a packet must carry (R128). -/
def packetCrc (h payload : List Byte) : Nat := crc32 (crcHead h ++ payload.take (hPlen h))

/-- A header with its CRC written (R128). -/
def sealHead (h payload : List Byte) : List Byte :=
  putBytes (padTo 64 h) 60 (leBytes 4 (packetCrc (padTo 64 h) payload))

/-- A header with ECN set (R130, R206): the CRC takes the bit as zero. -/
def setEcn (h : List Byte) : List Byte :=
  if hEcn h then h else putBytes h 17 [BitVec.ofNat 8 (byteAt h 17 + 4)]

/-- A header turned from VC5 to VC6, with its CRC adjusted by XOR over a message of 60 + PLEN bytes (R145). -/
def turnVc6 (h : List Byte) : List Byte :=
  let new := BitVec.ofNat 8 (byteAt h 6 - hVc h + 6)
  let delta := zeroBytes 6 ++ [h.getD 6 0 ^^^ new] ++ zeroBytes (53 + hPlen h)
  let diff := crcRun 0xEDB88320 0 delta
  putBytes (putBytes h 6 [new]) 60 (leBytes 4 (hCrc h ^^^ diff))

/-- The common part of a header (R124): bytes 0 to 23. -/
def commonHead (dst src vc pri kind job epoch psn plen flags : Nat) : List Byte :=
  leBytes 3 dst ++ leBytes 3 src ++ leBytes 1 (vc + 8 * pri + 32 * kind) ++ leBytes 2 job ++ leBytes 2 epoch ++
    leBytes 4 psn ++ leBytes 2 plen ++ leBytes 1 flags ++ zeroBytes 6

/-! ### Class parts -/

/-- Fields of KIND 3 (R126). -/
def cComm (h : List Byte) : Nat := leAt h 24 2
def cSeq (h : List Byte) : Nat := leAt h 26 4
def cChunk (h : List Byte) : Nat := leAt h 30 4
def cNcontrib (h : List Byte) : Nat := leAt h 34 3
def cPktIdx (h : List Byte) : Nat := byteAt h 38
def cPktTotal (h : List Byte) : Nat := byteAt h 39
def cVcount (h : List Byte) : Nat := leAt h 40 2
def cOp (h : List Byte) : Nat := byteAt h 42 % 16
def cFmt (h : List Byte) : Nat := byteAt h 42 / 16
def cAcc64 (h : List Byte) : Bool := bitsOf (byteAt h 43) 0 0 == 1
def cPolicy (h : List Byte) : Nat := bitsOf (byteAt h 43) 2 1
def cScoutExp (h : List Byte) : Bool := bitsOf (byteAt h 43) 3 3 == 1
def cRmode (h : List Byte) : Nat := bitsOf (byteAt h 43) 5 4
def cRepair (h : List Byte) : Bool := bitsOf (byteAt h 43) 6 6 == 1
def cSat (h : List Byte) : Bool := bitsOf (byteAt h 43) 7 7 == 1
def cAnchor (h : List Byte) : Nat := leAt h 44 2
def cMember (h : List Byte) : Nat := leAt h 46 2
def cSig (h : List Byte) : Nat := leAt h 48 4
def cStatus (h : List Byte) : Nat := byteAt h 52

/-- The class part of KIND 3 (R126), bytes 24 to 59; `b42` and `b43` are bytes 42 and 43. -/
def collClass (comm seq chunk ncontrib idx total vcount b42 b43 anchor member sig status : Nat) : List Byte :=
  leBytes 2 comm ++ leBytes 4 seq ++ leBytes 4 chunk ++ leBytes 3 ncontrib ++ zeroBytes 1 ++ leBytes 1 idx ++
    leBytes 1 total ++ leBytes 2 vcount ++ leBytes 1 b42 ++ leBytes 1 b43 ++ leBytes 2 anchor ++ leBytes 2 member ++
    leBytes 4 sig ++ leBytes 1 status ++ zeroBytes 7

/-- Fields of KINDs 1, 2, 5 and 6 (R127). -/
def mAddr (h : List Byte) : Nat := leAt h 24 8
def mOpcode (h : List Byte) : Nat := byteAt h 32
def mAsize (h : List Byte) : Nat := bitsOf (byteAt h 33) 1 0
def mSigned (h : List Byte) : Bool := bitsOf (byteAt h 33) 2 2 == 1
def mAfmt (h : List Byte) : Nat := bitsOf (byteAt h 33) 7 4
def mRlen (h : List Byte) : Nat := leAt h 34 2 % 8192
def mRtag (h : List Byte) : Nat := leAt h 36 2
def mAanchor (h : List Byte) : Nat := leAt h 38 2
def mOpa (h : List Byte) : Nat := leAt h 40 8
def mOpb (h : List Byte) : Nat := leAt h 48 8
def mStatus (h : List Byte) : Nat := byteAt h 56

/-- The class part of KINDs 1, 2, 5 and 6 (R127), bytes 24 to 59; `b33` is byte 33. -/
def memClass (addr opcode b33 rlen rtag aanchor opa opb status : Nat) : List Byte :=
  leBytes 8 addr ++ leBytes 1 opcode ++ leBytes 1 b33 ++ leBytes 2 rlen ++ leBytes 2 rtag ++ leBytes 2 aanchor ++
    leBytes 8 opa ++ leBytes 8 opb ++ leBytes 1 status ++ zeroBytes 3

/-! ### Answers -/

/-- A RETRY answer to a CUP packet (R259). -/
def retryHead (epid : Nat) (h : List Byte) (cstatus : Nat) : List Byte :=
  sealHead (commonHead (hSrc h) epid 4 0 3 (hJob h) (hEpoch h) 0 0 8 ++
    collClass (cComm h) (cSeq h) (cChunk h) 0 (cPktIdx h) 0 0 0 0 0 (cMember h) (cSig h) cstatus) []

/-- A MEM_RSP (R373): the request's PRI, JOB, EPOCH and PSN, the echoed class fields of R127; reserved
bits are zero (R124). -/
def memRspHead (epid : Nat) (h : List Byte) (status rlen opa : Nat) (ecn combine : Bool) (payload : List Byte) : List Byte :=
  sealHead (commonHead (hSrc h) epid 2 (hPri h) 2 (hJob h) (hEpoch h) (hPsn h) payload.length
      (4 * b2n ecn + 16 * b2n combine) ++
    memClass (mAddr h % 2 ^ 41) (mOpcode h) (byteAt h 33 / 16 * 16 + byteAt h 33 % 8) rlen (mRtag h) 0 opa 0 status) payload

/-- A PEER_ACK (R138, R386): it echoes ADDR, OPCODE and RTAG and carries STATUS (R127). -/
def peerAckHead (epid : Nat) (h : List Byte) (status : Nat) : List Byte :=
  sealHead (commonHead (hSrc h) epid 2 (hPri h) 6 (hJob h) (hEpoch h) (hPsn h) 0 0 ++
    memClass (mAddr h % 2 ^ 41) (mOpcode h) 0 0 (mRtag h) 0 0 0 status) []

/-- KIND and VC pairs allowed on a link (R125), with the direction up from the leaf; `peer` for a PEER fiber. -/
def kindVcOk (peer : Bool) (kind vc : Nat) : Bool :=
  if peer then (kind == 5 && vc == 1) || (kind == 6 && vc == 2)
  else (kind == 1 && vc == 1) || (kind == 3 && vc == 3) || (kind == 0 && vc == 5) || (kind == 4 && vc == 7)

/-! ### CTRL records (R121, R122) -/

/-- A 16-byte record: its code and the bytes that follow. -/
def ctrlRec (code : Nat) (rest : List Byte) : List Byte := padTo 16 (leBytes 1 code ++ rest)

/-- CRD and CRD_INIT: one count per VC, VC1 to VC7 (R122). -/
def recCredits (code : Nat) (c : List Nat) : List Byte := ctrlRec code ((c.map (leBytes 2)).flatten)
def recMask (mask : Nat) : List Byte := ctrlRec 0x10 (leBytes 2 mask)
def recDup (pos slot period : Nat) : List Byte := ctrlRec 0x11 (leBytes 1 pos ++ leBytes 1 slot ++ leBytes 4 period)
def recReady (pos slot : Nat) : List Byte := ctrlRec 0x12 (leBytes 1 pos ++ leBytes 1 slot)
def recSwitch (id : Nat) (map : Word) : List Byte := ctrlRec 0x13 (leBytes 1 id ++ zeroBytes 2 ++ leBytes 4 map.toNat)
def recLend (on : Bool) : List Byte := ctrlRec 0x14 (leBytes 1 (b2n on))
def recCal (slot : Nat) (on : Bool) : List Byte := ctrlRec 0x15 (leBytes 1 slot ++ leBytes 1 (b2n on))
def recGap (instant period : Nat) : List Byte := ctrlRec 0x20 (leBytes 8 instant ++ leBytes 4 period)

/-- A CTRL flit holding one record (R121). -/
def ctrlFlit (r : List Byte) : Flit := ⟨.ctrl, padTo 64 r, false⟩

/-- The flits of a packet: HEAD, then the payload in 64-byte BODY flits, the final flit stomped where asked (R113, R133). -/
def packetFlits (h payload : List Byte) (stomp : Bool) : List Flit :=
  let body := (chunksOf 64 64 (payload.take (hPlen h))).map (fun b => (⟨.body, padTo 64 b, false⟩ : Flit))
  let all := (⟨.head, padTo 64 h, false⟩ : Flit) :: body
  if stomp then all.dropLast ++ (all.getLast?.map (fun f => { f with stomp := true })).toList else all

/-! ### Group trailers (R110, R111) -/

/-- The two-bit TYPEMAP code of a flit kind (R110). -/
def FlitKind.code : FlitKind → Nat
  | .idle => 0
  | .head => 1
  | .body => 2
  | .ctrl => 3

/-- The TYPEMAP of a group's flits. -/
def typeMap : List Flit → Nat
  | [] => 0
  | f :: fs => f.kind.code + 4 * typeMap fs

/-- The STOMPMAP of a group's flits. -/
def stompMap : List Flit → Nat
  | [] => 0
  | f :: fs => b2n f.stomp + 2 * stompMap fs

/-- Trailer bytes 0 to 59 (R110). -/
def trailerHead (gseq ack : Nat) (ackValid nak : Bool) (fs : List Flit) : List Byte :=
  leBytes 2 gseq ++ leBytes 2 (ack + 4096 * b2n ackValid + 8192 * b2n nak) ++ leBytes 8 (typeMap fs) ++
    leBytes 4 (stompMap fs) ++ zeroBytes 44

/-- The 2,048 bytes of a group on the wire: 31 stream flits and the trailer with its LCRC (R109 to R111). -/
def groupBytes (gseq ack : Nat) (ackValid nak : Bool) (fs : List Flit) : List Byte :=
  let body := (fs.map (fun f => padTo 64 f.bytes)).flatten
  let cover := padTo 1984 body ++ trailerHead gseq ack ackValid nak fs
  cover ++ leBytes 4 (crc32c cover)

/-- Fields of a received trailer (R110). -/
def tGseq (t : List Byte) : Nat := leAt t 0 2 % 4096
def tAck (t : List Byte) : Nat := leAt t 2 2 % 4096
def tAckValid (t : List Byte) : Bool := bitsOf (leAt t 2 2) 12 12 == 1
def tNak (t : List Byte) : Bool := bitsOf (leAt t 2 2) 13 13 == 1
def tKind (t : List Byte) (n : Nat) : Nat := bitsOf (leAt t 4 8) (2 * n + 1) (2 * n)
def tLcrc (t : List Byte) : Nat := leAt t 60 4

end Sys2Proof.Machine
end

