-- ==== Sys2Proof/Machine/LinkOps.lean ====
section
/-!
DEFINITION. The named operations over fibers and links: identity, lane maps, link states, sending flits in groups, replay,
credits and switch rows (R52 to R60, R109 to R120, R135 to R137).
-/
namespace Sys2Proof.Machine

/-! ### Numbering (R22, R52) -/

/-- Quadrant of link k. -/
def linkQuad (k : Nat) : Nat := k / 256
/-- Tile of link k within its quadrant. -/
def linkTile (k : Nat) : Nat := k / 8 % 32
/-- Index of link k within its tile's page. -/
def linkIx (k : Nat) : Nat := k % 8
/-- Fiber of link k. -/
def linkFiber (k : Nat) : Nat := k / 8
/-- Quadrant and tile of fiber f. -/
def fiberQuad (f : Nat) : Nat := f / 32
def fiberTile (f : Nat) : Nat := f % 32

/-- FT_CFG of fiber f. -/
def ftCfg (s : State) (f : Nat) : Word := reg s (Reg.ftCfg (fiberQuad f) (fiberTile f))
/-- Address of FT_STATUS, FT_LANE of fiber f and FT_LINK, FT_MAP, LL_STATUS of link k. -/
def aStatus (f : Nat) : Nat := Reg.ftStatus (fiberQuad f) (fiberTile f)
def aLane (f : Nat) : Nat := Reg.ftLane (fiberQuad f) (fiberTile f)
def aLink (k : Nat) : Nat := Reg.ftLink (linkQuad k) (linkTile k) (linkIx k)
def aMap (k : Nat) : Nat := Reg.ftMap (linkQuad k) (linkTile k) (linkIx k)
def aLl (k : Nat) : Nat := Reg.llStatus (linkQuad k) (linkTile k) (linkIx k)
def aCred (k v : Nat) : Nat := Reg.llCred (linkQuad k) (linkTile k) (linkIx k) v

/-- FT_CFG fields of fiber f (R75). -/
def fiberEn (s : State) (f : Nat) : Bool := flag (ftCfg s f) 31
def fiberMode (s : State) (f : Nat) : Nat := fld (ftCfg s f) 27 26
def fiberWidthCode (s : State) (f : Nat) : Nat := fld (ftCfg s f) 25 24
/-- Lanes per link at the fiber's width. -/
def fiberWidth (s : State) (f : Nat) : Nat := 8 / 2 ^ fiberWidthCode s f
/-- Fiber modes (R35). -/
def modeDark : Nat := 0
def modeTerm : Nat := 1
def modeThru : Nat := 2
def modePeer : Nat := 3
def isPeer (s : State) (f : Nat) : Bool := fiberMode s f == modePeer
/-- Does the fiber terminate links: TERM or PEER? -/
def isTerminated (s : State) (f : Nat) : Bool := fiberMode s f == modeTerm || isPeer s f

/-- MIN_LANES in force: 1 to the width (R75). -/
def minLanes (s : State) (f : Nat) : Nat := max 1 (min (fld (ftCfg s f) 23 20) (fiberWidth s f))

/-- Is link k active at its fiber's width (R52)? -/
def linkActive (s : State) (k : Nat) : Bool := k % 8 % fiberWidth s (linkFiber k) == 0

/-- The active links of fiber f, ascending (R52). -/
def fiberLinks (s : State) (f : Nat) : List Nat :=
  (List.range (8 / fiberWidth s f)).map (fun b => 8 * f + fiberWidth s f * b)

/-- The own slots of link k: W0 to W7 by branch below ×8 (R52), and W0 to W8 at ×8. -/
def linkSlots (s : State) (k : Nat) : List Nat :=
  let w := fiberWidth s (linkFiber k)
  if w == 8 then List.range 9 else (List.range w).map (fun i => k % 8 + i)

/-- The link whose own slots hold slot c, below ×8; the fiber's link at ×8. -/
def slotLink (s : State) (f c : Nat) : Nat :=
  let w := fiberWidth s f
  if w == 8 then 8 * f else 8 * f + c / w * w

/-! ### Link states (R57, R77) -/

def LinkState.code : LinkState → Nat
  | .disabled => 0
  | .light => 1
  | .lock => 2
  | .train => 3
  | .align => 4
  | .partner => 5
  | .up => 6

/-- STATE of link k. -/
def linkState (s : State) (k : Nat) : Nat := rf s (aLink k) 31 29
def linkIs (s : State) (k : Nat) (st : LinkState) : Bool := linkState s k == st.code
def linkUp (s : State) (k : Nat) : Bool := linkIs s k .up

/-- Raises the event interrupt of fiber f's tile (R77, R139). -/
def tileInt (f : Nat) (s : State) : State := raise (64 * fiberQuad f + fiberTile f) s

/-- An Ember entry of fiber f's tile with layout L, and the tile's event interrupt (R77, R139, R484). -/
def tileLog (code cls k f slot cause ringKind ringIx value : Nat) (s : State) : State :=
  tileInt f (logEvent (fiberQuad f) code cls 1 (fiberTile f) (dataL k f slot cause ringKind ringIx value) s)

/-- Sets STATE of link k; a change is logged and raises the tile's interrupt (R77). -/
def setLinkState (k : Nat) (st : LinkState) (s : State) : State :=
  if linkState s k == st.code then s
  else tileLog 0x0101 clsInfo k (linkFiber k) 0xF st.code 0xFF 0 0 (setRf (aLink k) 31 29 st.code s)

/-! ### Lane maps (R60, FT_MAP) -/

/-- The slot of lane position p in a map; 15 when the lane is not active. -/
def mapSlot (m : Word) (p : Nat) : Nat := fld m (4 * p + 3) (4 * p)
def mapSet (m : Word) (p slot : Nat) : Word := setFld m (4 * p + 3) (4 * p) slot
/-- Active lane positions of a map. -/
def mapLanes (m : Word) : Nat := ((List.range 8).filter (fun p => mapSlot m p != 15)).length
/-- The lane position that a slot carries. -/
def mapPos (m : Word) (slot : Nat) : Option Nat := (List.range 8).find? (fun p => mapSlot m p == slot)
/-- The slots a map uses. -/
def mapSlots (m : Word) : List Nat := ((List.range 8).map (mapSlot m)).filter (· != 15)
/-- The lowest active lane position's slot (R398). -/
def mapLowest (m : Word) : Option Nat := (mapSlots m).head?
/-- A map whose positions 0, 1, … lie on the given slots. -/
def mapOf (slots : List Nat) : Word := (slots.zipIdx).foldl (fun m e => mapSet m e.2 e.1) 0xFFFFFFFF

/-- FT_MAP of link k: the transmit lane map. -/
def txMap (s : State) (k : Nat) : Word := reg s (aMap k)

/-- Puts a lane map in force: FT_MAP, LANES and NARROW change together. -/
def setMap (k : Nat) (m : Word) (s : State) : State :=
  let n := mapLanes m
  let s := setRf (aLink k) 28 25 n (setReg (aMap k) m s)
  setRb (aLink k) 24 (linkUp s k && n < fiberWidth s (linkFiber k)) s

/-- SLOT_STATE of slot c of fiber f: 0 DOWN, 1 ACTIVE, 2 CAL, 3 HOLD. -/
def slotState (s : State) (f c : Nat) : Nat := rf s (aLane f) (2 * c + 1) (2 * c)
def setSlotState (f c v : Nat) (s : State) : State := setRf (aLane f) (2 * c + 1) (2 * c) v s
/-- FAILED marking of slot c of fiber f (R71). -/
def slotFailed (s : State) (f c : Nat) : Bool := rb s (aLane f) (18 + c)
/-- FT_STATUS.DARK_SLOT. -/
def darkSlot (s : State) (f : Nat) : Nat := rf s (aStatus f) 31 28

/-! ### The group stream (R109, R110, R117, R118) -/

def txGseq (s : State) (k : Nat) : Nat := rf s (aLl k) 31 20
def rxGseq (s : State) (k : Nat) : Nat := rf s (aLl k) 19 8

/-- Groups that link k's share of the 1 MiB replay buffer holds (R118): 512 groups shared by the fiber's active links. -/
def replayShare (s : State) (k : Nat) : Nat := 512 / (8 / fiberWidth s (linkFiber k))

/-- Is the fiber's own modulator muted because another one feeds it (EG_MUTED, R92, R162)? -/
def txMuted (s : State) (k : Nat) : Bool := rb s (Reg.scLinkstat (linkQuad k) (k % 256)) 31

/-- Does the transmitter of link k hold its flits back: it is muted, or a commit is in progress (R99, R100)? -/
def txHolds (s : State) (k : Nat) : Bool := txMuted s k || (link s k).quiet

/-- The place in its stripe row after `n` more flits over `lanes` lanes (R54). -/
def rowAfter (pos n lanes : Nat) : Nat := if lanes = 0 then 0 else (pos + n) % lanes

/-- Sends one group: the trailer acknowledges the reverse direction and carries a due NAK (R110, R116), also where the group
is resent: R116 acknowledges in every group sent, R117 resends a group unchanged, and the model takes that for its GSEQ and
its stream flits (DESIGN CHOICE, log entry 60).  Its 32 flits are striped by the map in force (R54, R119). -/
def emitGroup (k gseq : Nat) (fs : List Flit) (s : State) : State :=
  let l := link s k
  let slots := mapSlots (txMap s k)
  let s := if l.nakDue then count1 (Ctr.nakTx (linkQuad k) (linkTile k) (linkIx k)) s else s
  emit (.group k gseq ((rxGseq s k + 4095) % 4096) l.rxAny l.nakDue fs (stripe slots l.rowPos 32))
    (setLink k { l with nakDue := false, rowPos := rowAfter l.rowPos 32 slots.length } s)

/-- Fills a group up to 31 stream flits with IDLE flits (R109, R113). -/
def fillGroup (fs : List Flit) : List Flit := fs ++ List.replicate (31 - fs.length) ⟨.idle, [], false⟩

/-- Counts a new group's HEAD and BODY flits and the packets begun (LL counters). -/
def countTx (k : Nat) (fs : List Flit) (s : State) : State :=
  let heads := (fs.filter (fun f => f.kind == .head)).length
  let bodies := (fs.filter (fun f => f.kind == .body)).length
  let stomps := (fs.filter (·.stomp)).length
  let q := linkQuad k
  let t := linkTile k
  let j := linkIx k
  let s := if heads + bodies = 0 then s
    else pmcEvent q t 0x012 j (heads + bodies) (count (Ctr.txFlits q t j) (heads + bodies) s)
  let s := if heads = 0 then s else count (Ctr.txPkts q t j) heads s
  if stomps = 0 then s else count (Ctr.stompTx q t j) stomps s

/-- Sends a new group and keeps it for replay (R109, R117). -/
def sendGroup (k : Nat) (fs : List Flit) (s : State) : State :=
  let g := txGseq s k
  let full := fillGroup fs
  let l := link s k
  let s := setLink k { l with replay := l.replay ++ [⟨g, full⟩] } s
  emitGroup k g full (setRf (aLl k) 31 20 (g + 1) (countTx k fs s))

/-- Sends waiting flits in groups while the link's replay share has room and its transmitter may send (R99, R118, R162). -/
def flushTx (k : Nat) : Nat → State → State
  | 0, s => s
  | n + 1, s =>
    let l := link s k
    if l.txWait.isEmpty || replayShare s k ≤ l.replay.length || txHolds s k then s
    else flushTx k n (sendGroup k (l.txWait.take 31) (setLink k { l with txWait := l.txWait.drop 31 } s))

/-- Hands stream flits to a link's transmitter; a link that is not UP sends nothing (R513). -/
def txFlits (k : Nat) (fs : List Flit) (s : State) : State :=
  if linkUp s k then
    let l := link s k
    let l := { l with txWait := l.txWait ++ fs }
    flushTx k (l.txWait.length / 31 + 1) (setLink k l s)
  else s

/-- Sends one link message on VC0 (R121). -/
def txCtrl (k : Nat) (r : List Byte) (s : State) : State := txFlits k [ctrlFlit r] s

/-- A due NAK with nothing to send goes in a group of IDLE flits (R116). -/
def sendNak (k : Nat) (s : State) : State :=
  if (link s k).nakDue && (link s k).replay.length < replayShare s k && !txHolds s k then sendGroup k [] s else s

/-- Resends every buffered group from the oldest, in order and unchanged; one more replay from that group (R117, R119,
R120). -/
def replayAll (k : Nat) (s : State) : State :=
  match (link s k).replay with
  | [] => s
  | g :: _ =>
    if txHolds s k then setLink k { link s k with replayDue := true } s
    else
    let groups := (link s k).replay
    let s := setLink k { link s k with
      lastReplay := some (g.gseq, s.time.l), replayCount := (link s k).replayCount + 1, replayDue := false } s
    let s := setRb (aLl k) 7 true s
    let s := forEach groups (fun g s => emitGroup k g.gseq g.flits s) s
    let s := pmcEvent (linkQuad k) (linkTile k) 0x014 (linkIx k) groups.length s
    setRb (aLl k) 7 false (count (Ctr.replayGrp (linkQuad k) (linkTile k) (linkIx k)) groups.length s)

/-- The transmitter may send again: a replay that fell due goes first, then what waits (R99, R117, R162). -/
def resumeTx (k : Nat) (s : State) : State :=
  if txHolds s k || !linkUp s k then s
  else
    let s := if (link s k).replayDue then replayAll k s else s
    sendNak k (flushTx k ((link s k).txWait.length / 31 + 1) s)

/-! ### Credits (R135 to R137) -/

/-- Transmit credit of link k on VC v. -/
def txCred (s : State) (k v : Nat) : Nat := rf s (aCred k v) 31 16

/-- Sets the transmit credit; CRED_LOW follows it while the link is UP. -/
def setTxCred (k v n : Nat) (s : State) : State :=
  let s := setRf (aCred k v) 31 16 n s
  setRb (aLl k) (v - 1) (linkUp s k && n < 65) s

/-- The credit a receiver advertises on VC v at the next UP (R136). -/
def advOf (s : State) (k v : Nat) : Nat := max 65 (rf s (aCred k v) 15 0)

/-- A list of seven counts with `n` at VC v and 0 elsewhere. -/
def oneCredit (v n : Nat) : List Nat := (List.range 7).map (fun i => if i + 1 = v then n else 0)

/-- Returns credit for flits that left the receive buffer of link k (R135). -/
def returnCredit (k v n : Nat) (s : State) : State := txCtrl k (recCredits 0x01 (oneCredit v n)) s

/-- A CRD record: each credit grows, capped at the value the partner advertised (R137). -/
def takeCredits (k : Nat) (cs : List Nat) (s : State) : State :=
  forRange 7 (fun i s =>
    let n := txCred s k (i + 1) + cs.getD i 0
    let top := (link s k).peerAdv.getD i 0
    if top < n then count1 (Ctr.credErr (linkQuad k) (linkTile k) (linkIx k)) (setTxCred k (i + 1) top s)
    else setTxCred k (i + 1) n s) s

/-! ### Switch rows (R60, R114, R115) -/

/-- The insert flits of a map change: row-fill flits on what is left of the old row, a switch flit on each lane of the new
map (R60, R114). -/
def switchFlits (old new : Word) (pos : Nat) (id : Byte) : List (Nat × List Byte) :=
  let lanes := mapSlots old
  let fill := if pos = 0 then [] else lanes.drop pos
  fill.map (fun c => (c, rowFillFlit)) ++ (mapSlots new).map (fun c => (c, switchFlitOf id new))

/-- Sends a switch row with a new map, which is in force from the next row; a row that takes lanes away is counted and
logged with the slot that goes and the cause of R68 (R60, R77).  A muted fiber sends no light (R92). -/
def switchRowTx (k : Nat) (m : Word) (cause : Nat) (s : State) : State :=
  let old := txMap s k
  let l := link s k
  let id := l.switchTx + 1
  let flits := switchFlits old m l.rowPos id
  let s := setLink k { l with switchTx := id, rowPos := 0 } s
  let s := setMap k m (if txMuted s k then s else emit (.switchRow k id.toNat m flits) s)
  if mapLanes m < mapLanes old then
    let gone := ((mapSlots old).find? (fun c => (mapPos m c).isNone)).getD 0xF
    tileLog 0x0103 clsUnit k (linkFiber k) gone cause 0xFF 0 (mapLanes m)
      (count1 (Ctr.narrowEvt (linkQuad k) (linkTile k)) s)
  else s

/-! ### Leaving UP -/

/-- The link layer of a link that leaves UP: its replay buffer, waiting flits, credits and time exchange go (R120, R135). -/
def linkLayerDown (k : Nat) (s : State) : State :=
  let s := setLink k { link s k with
    replay := [], txWait := [], lastReplay := none, replayCount := 0, credInit := false, peerAdv := [],
    rxAny := false, rxAwait := false, nakDue := false, rxOpen := none, gap := none, txStamps := [], rxStamps := [],
    exch := none, reqWait := [], rttValid := false, exchAge := 0, switchTx := 0, switchRx := 0, dup := none,
    rowPos := 0, quiet := false, replayDue := false } s
  let s := forRange 7 (fun i s => setTxCred k (i + 1) 0 s) s
  setReg (aLl k) 0 s

/-! ### Codewords (R46, R68) -/

/-- A codeword received on slot c of fiber f: CORR_SYM and UNCORR_CW count what the decoder corrects and what it cannot. -/
def takeCodeword (f c : Nat) (w : List Nat) (s : State) : State :=
  match rsDecode w with
  | none => count1 (Ctr.uncorrCw (fiberQuad f) (fiberTile f) c) s
  | some (_, 0) => s
  | some (_, n) => count (Ctr.corrSym (fiberQuad f) (fiberTile f) c) n s

end Sys2Proof.Machine
end

