-- ==== Sys2Proof/Machine/Traffic.lean ====
section
/-!
DEFINITION. Traffic classes, the class selector, shapers, meters, ECN and the calendar-and-lottery arbiters (R196 to R215).
-/
namespace Sys2Proof.Machine

/-! ### Traffic classes and shapers (R196 to R201) -/

/-- The places of `CmapSt.use` (R217): bytes received by a tile, cycles of a crossbar port, charged bytes of a link, flits on a
bridge from its own crossbar and in transit, cycles a bridge had a packet ready and no credit, grants of a stack's port. -/
def useIngest (t : Nat) : Nat := t
def usePort (out port : Nat) : Nat := 100 + 16 * out + port
def useLink (i : Nat) : Nat := 1000 + i
def useLocal (p : Nat) : Nat := 2000 + p
def useTransit (p : Nat) : Nat := 2010 + p
def useNoCredit (p : Nat) : Nat := 2020 + p
def useStack (i : Nat) : Nat := 2030 + i

/-- Adds `n` to what a resource has carried since the last congestion map (R217). -/
def cmapUse (q key n : Nat) (s : State) : State :=
  let w := sw s q
  setSw q { w with cmap := { w.cmap with use := Tbl.set 0 w.cmap.use key (Tbl.get 0 w.cmap.use key + n) } } s

/-- The traffic class of a packet with the given VC and PRI in quadrant q (R196). -/
def trafficClass (s : State) (q vc pri : Nat) : Nat :=
  fld (reg s (Reg.tcMap q (vc - 1))) (3 * pri + 2) (3 * pri)

/-- The charged length of a packet of `flits` flits on link k (R199). -/
def chargedLength (s : State) (k flits : Nat) : Nat := 64 * flits + rf s (Reg.shOvh (linkQuad k) (k % 256)) 8 0

/-- Is the shaper of local link i and class c enabled? -/
def shaperOn (s : State) (q i c : Nat) : Bool := rb s (Reg.shaper0 q i c) 31

/-- The credit of a shaper, in 1/65,536 byte. -/
def shaperCredit (s : State) (q i c : Nat) : Int := Tbl.get 0 (sw s q).credits (8 * i + c)

/-- Sets a shaper's credit; CREDIT shows it in 1/16 byte. -/
def setShaperCredit (q i c : Nat) (v : Int) (s : State) : State :=
  let s := setSw q { sw s q with credits := Tbl.set 0 (sw s q).credits (8 * i + c) v } s
  setReg (Reg.shaper3 q i c) (BitVec.ofInt 32 (v / 4096)) s

/-- RATE with 0 acting as 1 (R201). -/
def shaperRate (s : State) (q i c : Nat) : Nat := max 1 (rf s (Reg.shaper0 q i c) 23 0)

/-- One cycle of R198 for an enabled shaper, before any grant; `queued` says whether the class has a packet queued. -/
def shaperCycle (burst rate : Nat) (queued : Bool) (credit : Int) : Int :=
  let c := if queued || credit < 0 then min (credit + rate) (burst * 65536) else credit
  if !queued && 0 < c then 0 else c

/-- The enabled shapers of quadrant q, as 8i + c. -/
def enabledShapers (s : State) (q : Nat) : List Nat :=
  let base := Reg.shaper0 q 0 0
  s.regs.filterMap (fun e =>
    if base ≤ e.1 && e.1 < base + 0x8000 && e.1 % 16 == 0 && flag e.2 31 then some ((e.1 - base) / 16) else none)

/-- SHAPER_UPDATE: the credits of every enabled shaper after one cycle (R198). -/
def shaperUpdate (q : Nat) (queued : Nat → Nat → Bool) (s : State) : State :=
  forEach (enabledShapers s q) (fun n s =>
    let i := n / 8
    let c := n % 8
    setShaperCredit q i c (shaperCycle (rf s (Reg.shaper1 q i c) 19 0) (shaperRate s q i c) (queued i c)
      (shaperCredit s q i c)) s) s

/-- Is the class held (R197, R198)? -/
def classHeld (s : State) (q i c : Nat) : Bool := shaperOn s q i c && shaperCredit s q i c < 0

/-- Is the class served as a strict class (R197)? -/
def classStrict (s : State) (q i c : Nat) : Bool := rb s (Reg.tmDrr q c) 31 && shaperOn s q i c

/-- Charges a grant of `len` bytes to the shaper of (i, c) (R198). -/
def shaperCharge (q i c len : Nat) (s : State) : State :=
  if shaperOn s q i c then
    let floor : Int := -((rf s (Reg.shaper2 q i c) 19 0 * 65536 : Nat) : Int)
    setShaperCredit q i c (max (shaperCredit s q i c - (len * 65536 : Nat)) floor) s
  else s

/-- A class's deficit, in bytes. -/
def deficit (s : State) (q i c : Nat) : Int := Tbl.get 0 (sw s q).deficits (8 * i + c)
def setDeficit (q i c : Nat) (v : Int) (s : State) : State :=
  setSw q { sw s q with deficits := Tbl.set 0 (sw s q).deficits (8 * i + c) v } s

/-- The class whose turn it is at link i, as class + 1; 0 when none has had a turn. -/
def drrTurn (s : State) (q i : Nat) : Nat := Tbl.get 0 (sw s q).turn i
def setDrrTurn (q i v : Nat) (s : State) : State := setSw q { sw s q with turn := Tbl.set 0 (sw s q).turn i v } s

/-- The class visited after class c in descending order; the first visited is class 7. -/
def nextClass (turn : Nat) : Nat := if turn ≤ 1 then 7 else turn - 2

/-- A class with nothing queued has its deficit set to zero (R197). -/
def idleDeficits (q : Nat) (queued : Nat → Nat → Bool) (s : State) : State :=
  setSw q { sw s q with deficits := Tbl.keep (fun n => queued (n / 8) (n % 8)) (sw s q).deficits } s

/-- Deficit round robin (R197, item 3): `len c` is the charged length of the class's next packet, none when it has nothing
to offer; a visit adds QUANTUM × 64, and a class with nothing queued has its deficit set to zero. -/
def drrSelect (q i : Nat) (len : Nat → Option Nat) (queued : Nat → Bool) : Nat → State → Option Nat × State
  | 0, s => (none, s)
  | fuel + 1, s =>
    let turn := drrTurn s q i
    let stay := if turn = 0 then none else
      (len (turn - 1)).bind (fun n => if (n : Int) ≤ deficit s q i (turn - 1) then some (turn - 1) else none)
    match stay with
    | some c => (some c, s)
    | none =>
      let c := nextClass turn
      let s := setDrrTurn q i (c + 1) s
      let s :=
        if !queued c then setDeficit q i c 0 s
        else if (len c).isSome then setDeficit q i c (deficit s q i c + 64 * max 1 (rf s (Reg.tmDrr q c) 7 0)) s
        else s
      drrSelect q i len queued fuel s

/-- The order in which an egress link offers its classes (R197): the strict classes first, then the class of the deficit
round robin and the others after it in descending order.  Held classes offer nothing. -/
def classOrder (q i : Nat) (len : Nat → Option Nat) (queued : Nat → Bool) (s : State) : List Nat × State :=
  let offer := (List.range 8).reverse.filter (fun c => (len c).isSome && !classHeld s q i c)
  let strict := offer.filter (classStrict s q i)
  let rest := offer.filter (fun c => !classStrict s q i c)
  if rest.isEmpty then (strict, s)
  else
    let (c, s) := drrSelect q i (fun c => if rest.contains c then len c else none) queued 1200 s
    let c := c.getD 0
    (strict ++ rest.filter (· == c) ++ rest.filter (· < c) ++ rest.filter (c < ·), s)

/-- Charges a granted packet to its own class's shaper and, for a class of the round robin, to its deficit (R197, R198). -/
def chargeGrant (q i c len : Nat) (s : State) : State :=
  let s := if classStrict s q i c then s else setDeficit q i c (deficit s q i c - len) s
  shaperCharge q i c len (cmapUse q (useLink i) len s)

/-- The address of word w of a shaper. -/
def shaperAddr (q i c w : Nat) : Nat := Reg.shaper0 q i c + 4 * w

/-- A write of a shaper word (R200); word 3 is read-only. -/
def shaperWrite (q i c w : Nat) (v : Word) (s : State) : State :=
  if w < 3 then
    let s := writeRw (shaperAddr q i c w) v s
    let full : Int := if rb s (Reg.shaper0 q i c) 30 then (rf s (Reg.shaper1 q i c) 19 0 * 65536 : Nat) else 0
    setDeficit q i c 0 (setShaperCredit q i c (if shaperOn s q i c then full else 0) s)
  else s

/-- SHAPER_WRITE. -/
def execShaperWrite (q : Quad) (k : Fin 256) (c : Fin 8) (w : Fin 4) (v : Word) (s : State) :
    Host.Outcome State Fault Refusal :=
  .next (guardReg (shaperAddr q k c w) (shaperWrite q k c w v) s)

/-! ### Ingress meters (R202 to R205) -/

/-- The colours of R203. -/
inductive Colour where
  | green | yellow | red
  deriving DecidableEq, Repr

/-- Bytes in bucket Tc (`excess` false) or Te of meter m, in 1/65,536 byte. -/
def meterBucket (s : State) (q m : Nat) (excess : Bool) : Nat :=
  if excess then rf s (Reg.meter3 q m) 23 0 * 65536 - Tbl.get 0 (sw s q).te m
  else rf s (Reg.meter2 q m) 23 0 * 65536 - Tbl.get 0 (sw s q).tc m

/-- TC_NOW and TE_NOW follow the buckets. -/
def showMeter (q m : Nat) (s : State) : State :=
  setReg (Reg.meterTe q m) (BitVec.ofNat 32 (meterBucket s q m true / 65536))
    (setReg (Reg.meterTc q m) (BitVec.ofNat 32 (meterBucket s q m false / 65536)) s)

/-- Does the rate of a bucket count as unlimited (R203)? -/
def meterUnlimited (s : State) (q m : Nat) (excess : Bool) : Bool :=
  rf s (if excess then Reg.meter1 q m else Reg.meter0 q m) 27 0 == 0xFFFFFFF

/-- Takes `b` bytes from a bucket where it holds them (R203). -/
def meterTry (q m b : Nat) (excess : Bool) (s : State) : Bool × State :=
  if meterUnlimited s q m excess then (true, s)
  else if b * 65536 ≤ meterBucket s q m excess then
    let w := sw s q
    let w := if excess then { w with te := Tbl.set 0 w.te m (Tbl.get 0 w.te m + b * 65536) }
      else { w with tc := Tbl.set 0 w.tc m (Tbl.get 0 w.tc m + b * 65536) }
    (true, showMeter q m (setSw q w s))
  else (false, s)

/-- The pre-colour: the PRECOL field that PRI selects (R203). -/
def preColour (s : State) (q m pri : Nat) : Colour :=
  let p := fld (reg s (Reg.meter4 q m)) (2 * pri + 1) (2 * pri)
  if p == 0 then .green else if p == 1 then .yellow else .red

/-- Colours a packet of `b` bytes at meter m (R203). -/
def meterColour (q m b pri : Nat) (s : State) : Colour × State :=
  let pre := if rb s (Reg.meter0 q m) 30 then preColour s q m pri else .green
  match pre with
  | .red => (.red, s)
  | .yellow =>
    match meterTry q m b true s with
    | (true, s) => (.yellow, s)
    | (false, s) => (.red, s)
  | .green =>
    match meterTry q m b false s with
    | (true, s) => (.green, s)
    | (false, s) =>
      match meterTry q m b true s with
      | (true, s) => (.yellow, s)
      | (false, s) => (.red, s)

/-- The meter of a packet, where it is metered (R202). -/
def meterOf (s : State) (q job vc : Nat) : Option Nat :=
  if rb s (Reg.jobMtr q job) 31 && vc % 2 == 1 then some (4 * rf s (Reg.jobMtr q job) 7 0 + vc / 2) else none

/-- METER_COLOUR: colours and counts a packet received on a TERM link (R202, R203). -/
def colourPacket (q job vc pri flits : Nat) (s : State) : Colour × State :=
  match meterOf s q job vc with
  | none => (.green, s)
  | some m =>
    let (c, s) := meterColour q m (64 * flits) pri s
    (c, count1 (match c with
      | .green => Ctr.greenPkts q m
      | .yellow => Ctr.yellowPkts q m
      | .red => Ctr.redPkts q m) s)

/-- Is a forwarded bulk packet of this colour dropped at a queue of `depth` flits (R205)? -/
def colourDrops (s : State) (q : Nat) (c : Colour) (depth : Nat) : Bool :=
  match c with
  | .green => false
  | .yellow =>
    let y := rf s (Reg.tmCfg q) 31 16
    y != 0xFFFF && y * 64 ≤ depth
  | .red => rf s (Reg.tmCfg q) 15 0 * 64 ≤ depth

/-- Counts a colour drop (R205). -/
def countColourDrop (q job vc : Nat) (c : Colour) (s : State) : State :=
  let s := match meterOf s q job vc with
    | none => s
    | some m => count1 (Ctr.colourDrop q m) s
  match c with
  | .green => s
  | .yellow => count1 (Ctr.dropYellow q) s
  | .red => count1 (Ctr.dropRed q) s

/-- Is a packet that joins a VOQ of `depth` flits on the given VC marked (R206)? -/
def ecnMarks (s : State) (q vc depth : Nat) : Bool :=
  let t := rf s (Reg.ecnThresh q (vc - 1)) 21 0
  t != 0 && t < depth

/-- The address of word w of a meter. -/
def meterAddr (q m w : Nat) : Nat := Reg.meter0 q m + 4 * w

/-- A write of a meter word fills both buckets (R204). -/
def meterWrite (q m w : Nat) (v : Word) (s : State) : State :=
  let s := writeRw (meterAddr q m w) v s
  showMeter q m (setSw q { sw s q with tc := Tbl.set 0 (sw s q).tc m 0, te := Tbl.set 0 (sw s q).te m 0 } s)

/-- METER_WRITE. -/
def execMeterWrite (q : Quad) (m : Fin 1024) (w : Fin 5) (v : Word) (s : State) : Host.Outcome State Fault Refusal :=
  .next (guardReg (meterAddr q m w) (meterWrite q m w v) s)

/-- Fills the buckets of quadrant q for `n` CLK_CORE cycles (R203). -/
def meterFill (q n : Nat) (s : State) : State :=
  let w := sw s q
  let tc := w.tc
  let te := w.te
  let s := forEach tc (fun e s =>
    let w := sw s q
    showMeter q e.1 (setSw q { w with tc := Tbl.set 0 w.tc e.1 (e.2 - n * rf s (Reg.meter0 q e.1) 27 0) } s)) s
  forEach te (fun e s =>
    let w := sw s q
    showMeter q e.1 (setSw q { w with te := Tbl.set 0 w.te e.1 (e.2 - n * rf s (Reg.meter1 q e.1) 27 0) } s)) s

/-! ### Calendar-and-lottery arbiters (R208 to R215) -/

/-- The page of an arbiter (register section of chapter 07). -/
def arbPage : ArbRef → Nat
  | .xb q p => Reg.xbArbCfg q p
  | .ig q n => Reg.igArbCfg q n
  | .ap q => Reg.apArbCfg q
  | .dma => Reg.dmaArbCfg

/-- Requesters of an arbiter (R208). -/
def arbRequesters : ArbRef → Nat
  | .xb _ _ => 3
  | .ig _ _ => 5
  | .ap _ => 8
  | .dma => 32

/-- An arbiter's place in the state's table. -/
def arbIx : ArbRef → Nat
  | .xb q p => 3 * q + p
  | .ig q n => 12 + 3 * q + n
  | .ap q => 24 + q
  | .dma => 28

/-- The quadrant an arbiter's events come from; the service die for DMA_ARB. -/
def arbOrigin : ArbRef → Nat
  | .xb q _ => q
  | .ig q _ => q
  | .ap q => q
  | .dma => 4

/-- The quadrant of a starvation event: the arbiter's, or that of the DMA engine which is the requester (R208, R215). -/
def starveQuad (a : ArbRef) (r : Nat) : Nat :=
  match a with
  | .dma => r / 8
  | _ => arbOrigin a

/-- TICKETS of requester r and OWNER of calendar slot i. -/
def arbTickets (s : State) (a : ArbRef) (r : Nat) : Nat :=
  rf s (arbPage a + 0x20 + 4 * (r / 4)) (8 * (r % 4) + 7) (8 * (r % 4))
def arbOwner (s : State) (a : ArbRef) (i : Nat) : Nat :=
  rf s (arbPage a + 0x100 + 4 * (i / 4)) (8 * (i % 4) + 7) (8 * (i % 4))

/-- One step of the LFSR, x^32 + x^22 + x^2 + x + 1 (R210). -/
def lfsrStep (w : Word) : Word :=
  let new := b2n (flag w 31) ^^^ b2n (flag w 21) ^^^ b2n (flag w 1) ^^^ b2n (flag w 0)
  BitVec.ofNat 32 (2 * w.toNat + new)

/-- The requester that holds ticket number `pick`, counting the listed requesters' tickets in ascending order (R210). -/
def lotteryPick (tickets : Nat → Nat) : List Nat → Nat → Option Nat
  | [], _ => none
  | r :: rs, pick => if pick < tickets r then some r else lotteryPick tickets rs (pick - tickets r)

/-- The lottery's winner for an LFSR value among the requesters with tickets (R210). -/
def lotteryWinner (tickets : Nat → Nat) (lfsr : Nat) (rs : List Nat) : Option Nat :=
  let total := (rs.map tickets).sum
  if total = 0 then none else lotteryPick tickets rs (((lfsr / 65536) * total) / 65536)

/-- ARB_CFG.FREEZE. -/
def arbFrozen (s : State) (a : ArbRef) : Bool := rb s (arbPage a) 31

/-- ARB_STATUS.DRAINED follows FREEZE-independent use: 1 while no granted use is in progress (R214). -/
def arbUses (a : ArbRef) (n : Nat) (s : State) : State :=
  setRb (arbPage a + 0xC) 31 (n == 0) (setArb (arbIx a) { arb s (arbIx a) with uses := n } s)

/-- STARVE bits follow the counters; each change from 0 to 1 is counted, raised and logged (R215). -/
def starveBits (a : ArbRef) (s : State) : State :=
  let limit := max 1 (rf s (arbPage a) 23 0)
  forRange (arbRequesters a) (fun r s =>
    let past := limit < (arb s (arbIx a)).starve.getD r 0
    let was := rb s (arbPage a + 0x10) r
    let s := setRb (arbPage a + 0x10) r past s
    if past && !was then
      let s := count1 (arbPage a + 0x60) s
      logEvent (starveQuad a r) 0x0307 clsInfo 5 (arbIx a) (dataG (arbIx a) r) (raise (64 * starveQuad a r + 33) s)
    else s) s

/-- Runs the starvation counters for `n` cycles in which the requests in `now` stand and `granted` was served (R215). -/
def starveRun (a : ArbRef) (now : List Nat) (granted : Option Nat) (n : Nat) (s : State) : State :=
  if arbFrozen s a then s
  else
    let st := arb s (arbIx a)
    if now.isEmpty && st.starve.all (· == 0) then setArb (arbIx a) { st with starve := [] } s
    else
      setArb (arbIx a) { st with starve := (List.range (arbRequesters a)).map (fun r =>
        if now.contains r && granted != some r then st.starve.getD r 0 + n else 0) } s

/-- A lost grant is counted, a bridge's also by its performance page (R211, R474). -/
def arbLost (a : ArbRef) (s : State) : State :=
  let s := count1 (arbPage a + 0x50) s
  match a with
  | .xb q p => pmcEvent q (33 + p) 0x034 noInst 1 s
  | _ => s

/-- One decision (R209 to R211): from the sampled requests; a grant to a requester that no longer requests is lost. -/
def arbDecide (a : ArbRef) (sampled now : List Nat) (s : State) : Option Nat × State :=
  if arbFrozen s a then (none, s)
  else
    let page := arbPage a
    let slot := (rf s (page + 0xC) 7 0 + 1) % 256
    let s := setRf (page + 0xC) 7 0 slot s
    let owner := arbOwner s a slot
    let (g, s) :=
      if owner < arbRequesters a && sampled.contains owner then (some owner, count1 (page + 0x40) s)
      else
        let ticketed := ((List.range (arbRequesters a)).filter (sampled.contains ·)).filter (0 < arbTickets s a ·)
        let lfsr := reg s (page + 8)
        match lotteryWinner (arbTickets s a) lfsr.toNat ticketed with
        | none => (none, count1 (page + 0x58) s)
        | some r => (some r, count1 (page + 0x48) (setReg (page + 8) (lfsrStep lfsr) s))
    match g with
    | none => (none, starveBits a (starveRun a now none 1 s))
    | some r =>
      if now.contains r then (some r, starveBits a (starveRun a now (some r) 1 s))
      else (none, starveBits a (starveRun a now none 1 (arbLost a s)))

/-- The guard of an arbiter's page. -/
def guardArb (a : ArbRef) (f : State → State) (s : State) : State := guardReg (arbPage a) f s

/-- A write of ARB_SEED (R210). -/
def arbSeedWrite (a : ArbRef) (v : Word) (s : State) : State := setReg (arbPage a + 8) (if v = 0 then 1 else v) s

/-- ARB_SEED_WRITE. -/
def execArbSeedWrite (a : ArbRef) (v : Word) (s : State) : Host.Outcome State Fault Refusal :=
  .next (guardArb a (arbSeedWrite a v) s)

/-- ARB_FREEZE: no new grant from now on (R214). -/
def execArbFreeze (a : ArbRef) (s : State) : Host.Outcome State Fault Refusal :=
  .next (guardArb a (setRb (arbPage a) 31 true) s)

/-- ARB_UNFREEZE: requests kept their place (R214). -/
def execArbUnfreeze (a : ArbRef) (s : State) : Host.Outcome State Fault Refusal :=
  .next (guardArb a (setRb (arbPage a) 31 false) s)

end Sys2Proof.Machine
end

