-- ==== Sys2Proof/Machine/SwitchCore.lean ====
section
/-!
DEFINITION. The switch core: buffers and commitments, queues, spraying and paths, origination, the scheduler, bridges,
multicast, and links that leave service (R140 to R178, R466, R515).
-/
namespace Sys2Proof.Machine

/-! ### Numbering -/

/-- The place of quadrant p among the others of quadrant q, ascending (R140). -/
def bridgeIx (q p : Nat) : Nat := if p < q then p else p - 1
/-- The i-th other quadrant of q. -/
def otherQuad (q i : Nat) : Nat := if i < q then i else i + 1

/-- The quadrant a destination lies in. -/
def Dest.quad? : Dest → Nat
  | .link k => linkQuad k
  | .unit q _ => q
  | .quad q _ => q

/-- The next quadrant of a packet: its transit quadrant, or the quadrant of its destination. -/
def QPkt.next (p : QPkt) : Nat := p.via.getD p.dest.quad?

/-- Output groups of the crossbar (R140): 0 to 31 tiles, 32 to 34 bridges, 35 collective engine, 36 memory service and Ingot
controllers, 37 Lantern cluster, 38 service link. -/
def outGroup (q : Nat) (p : QPkt) : Nat :=
  if p.next ≠ q then 32 + bridgeIx q p.next
  else match p.dest with
    | .link k => linkTile k
    | .unit _ .ce => 35
    | .unit _ .lx => 37
    | .unit _ .sv => 38
    | _ => 36

/-- Ports of an output group (R140). -/
def outPorts (o : Nat) : Nat := if o < 32 then 1 else if o < 35 then 10 else if o = 35 then 8 else if o < 38 then 4 else 2

/-- The crossbar input port of quadrant q on lane `lane` of the bridge from quadrant a (R140). -/
def bridgeInput (q a lane : Nat) : Nat := 32 + 10 * bridgeIx q a + lane

/-- The lane a packet takes on a bridge: the next free one in rotating order after the last given (R212). -/
def nextLane (q a : Nat) (o : BridgeOut) : Option Nat :=
  ((List.range 10).map (fun i => (o.lane + 1 + i) % 10)).find? (fun n => !(o.wire.any (fun p => p.inp == bridgeInput q a n)))

/-! ### Queued flits (R146, R147, R162) -/

/-- Flits of the waiting packets of quadrant q that satisfy `f`. -/
def queuedFlits (s : State) (q : Nat) (f : QPkt → Bool) : Nat :=
  (((sw s q).pkts.filter (fun p => p.crossing.isNone && f p)).map (·.flits)).sum

/-- Flits queued for link k in quadrant q, all VCs. -/
def linkQueued (s : State) (q k : Nat) : Nat := queuedFlits s q (fun p => p.dest == .link k)

/-- Depth of the VOQ of input `inp` for a destination and VC (R146). -/
def voqDepth (s : State) (q inp : Nat) (d : Dest) (vc : Nat) : Nat :=
  queuedFlits s q (fun p => p.inp == inp && p.dest == d && p.vc == vc)

/-- The largest XB_LINK_CAP excess test of HOT: does some other quadrant hold a cap toward q below `b` (R155)? -/
def linkHot (s : State) (q b : Nat) : Bool :=
  (List.range 3).any (fun i => rf s (Reg.xbCfg (otherQuad q i) (bridgeIx (otherQuad q i) q)) 31 16 < b)

/-- SC_LINKSTAT.BACKLOG and HOT follow the queue; the congestion map keeps the peak (R217). -/
def showBacklog (q k : Nat) (s : State) : State :=
  let b := linkQueued s q k
  let w := sw s q
  let s := setSw q { w with cmap := { w.cmap with peak := Tbl.set 0 w.cmap.peak k (max b (Tbl.get 0 w.cmap.peak k)) } } s
  if linkQuad k = q then
    let a := Reg.scLinkstat q (k % 256)
    setRb a 30 (linkHot s q b) (setRf a 21 0 b s)
  else s

/-- HOT of every link of quadrant q follows the caps that the others hold toward it (R155). -/
def showHot (q : Nat) (s : State) : State :=
  forRange 256 (fun i s =>
    let a := Reg.scLinkstat q i
    setRb a 30 (linkHot s q (rf s a 21 0)) s) s

/-- BACKLOG follows the queue of a destination. -/
def showDest (q : Nat) (d : Dest) (s : State) : State :=
  match d with
  | .link k => showBacklog q k s
  | _ => s

/-- EG_MUTED of link k (R162). -/
def linkMuted (s : State) (k : Nat) : Bool := rb s (Reg.scLinkstat (linkQuad k) (k % 256)) 31

/-- Is link k UP, in a quadrant that is not in RESET, INIT or HELD (R466), and not muted? -/
def linkOk (s : State) (k : Nat) : Bool := linkUp s k && !quadShut s (linkQuad k) && !linkMuted s k

/-- May spraying choose link k: it is usable, and its fiber has not been set to PEER since the set was written (R147, R184)? -/
def setUsable (s : State) (k : Nat) : Bool := linkOk s k && !isPeer s (linkFiber k)

/-! ### Cells (R141 to R143, R160, R515) -/

/-- REF_FULL and REF_BR_FULL follow the reference-count entries in use (R160). -/
def showRefs (q : Nat) (s : State) : State :=
  let live := (sw s q).shared.filterMap (·.2)
  let units := (live.filter (·.ofUnit)).length
  setRb (Reg.scStatus q) 4 (1024 ≤ live.length - units) (setRb (Reg.scStatus q) 0 (3072 ≤ units) s)

/-- ORIGIN_POOL_FULL follows the pool (SC_STATUS). -/
def showOrigin (q : Nat) (s : State) : State :=
  setRb (Reg.scStatus q) 1 ((sw s q).originPool < (sw s q).originUsed + 65) s

/-- MC_POOL_FULL stands while the copier waits for cells (R158). -/
def showMcPool (q : Nat) (s : State) : State :=
  let w := sw s q
  if rb s (Reg.scStatus q) 2 then
    setRb (Reg.scStatus q) 2 (w.copyQ.head?.any (fun j => j.firstDone && w.mcPool < w.mcUsed + j.pkt.flits)) s
  else s

/-- Returns `n` cells of an unshared kind that quadrant q held (R135, R142, R154). -/
def freePlain (q : Nat) (c : Cells) (n born : Nat) (s : State) : State :=
  let w := sw s q
  match c with
  | .rx k v => if linkUp s k && (link s k).upAt ≤ born then returnCredit k v n s else s
  | .mcPool =>
    showMcPool q (setSw q { w with mcUsed := w.mcUsed - n } s)
  | .originPool => showOrigin q (setSw q { w with originUsed := w.originUsed - n } s)
  | .linkReserve k => setSw q { w with linkUsed := Tbl.set 0 w.linkUsed k (Tbl.get 0 w.linkUsed k - n) } s
  | .bridgeReserve b => setSw q { w with bridgeUsed := Tbl.set 0 w.bridgeUsed b (Tbl.get 0 w.bridgeUsed b - n) } s
  | .bridge a v =>
    let r := Reg.xbAdv a (bridgeIx a q) v
    setRf r 31 16 (min 65535 (rf s r 31 16 + n)) s
  | .shared _ => s

/-- Frees a packet's cells; a reference on a shared copy is released, and the last one frees the copy (R159). -/
def freeCells (p : QPkt) (s : State) : State :=
  match p.cells with
  | .shared r =>
    let w := sw s p.cq
    match Tbl.get none w.shared r with
    | none => s
    | some c =>
      if c.refs ≤ 1 then
        showRefs p.cq (freePlain p.cq c.cells c.flits p.born (setSw p.cq { w with shared := Tbl.set none w.shared r none } s))
      else setSw p.cq { w with shared := Tbl.set none w.shared r (some { c with refs := c.refs - 1 }) } s
  | c => freePlain p.cq c p.flits p.born s

/-- Does a packet keep its cells until it has been written at the far end of a bridge (R515)? -/
def Cells.ofOrigin : Cells → Bool
  | .originPool => true
  | .linkReserve _ => true
  | .bridgeReserve _ => true
  | .shared _ => true
  | _ => false

/-! ### Queues -/

/-- Numbers a packet. -/
def newId (s : State) : Nat × State := (s.pktCtr, { s with pktCtr := s.pktCtr + 1 })

/-- Queues a packet in its VOQ (R146). -/
def enqueue (q : Nat) (p : QPkt) (s : State) : State :=
  let s := setSw q { sw s q with pkts := (sw s q).pkts ++ [p] } s
  match p.dest with
  | .link k =>
    let w := sw s q
    let s := setSw q { w with cmap := { w.cmap with enq := Tbl.set 0 w.cmap.enq k (Tbl.get 0 w.cmap.enq k + 1) } } s
    showBacklog q k (count1 (Ctr.fwdPkts q) s)
  | _ => s

/-- The class of a packet bound for a link of quadrant q. -/
def QPkt.cls (s : State) (q : Nat) (p : QPkt) : Nat := trafficClass s q p.vc (hPri p.head)

/-- Has class c of local link i a packet queued? -/
def classQueued (s : State) (q i c : Nat) : Bool :=
  (sw s q).pkts.any (fun p => p.crossing.isNone && p.dest == .link (256 * q + i) && p.cls s q == c)

/-- Takes a packet out of quadrant q's queues. -/
def dequeue (q id : Nat) (s : State) : State :=
  match (sw s q).pkts.find? (·.id == id) with
  | none => s
  | some p =>
    let s := setSw q { sw s q with pkts := eraseFirst (·.id == id) (sw s q).pkts } s
    showDest q p.dest (idleDeficits q (classQueued s q) s)

/-- Drops a queued packet and frees its cells. -/
def dropPkt (q : Nat) (p : QPkt) (s : State) : State := freeCells p (dequeue q p.id s)

/-- Replaces a queued packet by itself changed. -/
def updatePkt (q id : Nat) (f : QPkt → QPkt) (s : State) : State :=
  setSw q { sw s q with pkts := modifyFirst (·.id == id) f (sw s q).pkts } s

/-! ### Spraying and paths (R147, R148, R178) -/

/-- The list turned so that it starts after element `a`. -/
def rotateAfter (a : Nat) (xs : List Nat) : List Nat :=
  match xs.findIdx? (· == a) with
  | none => xs
  | some i => xs.drop (i + 1) ++ xs.take (i + 1)

/-- The first element with the least load. -/
def leastLoaded (load : Nat → Nat) : List Nat → Option Nat
  | [] => none
  | x :: xs =>
    match leastLoaded load xs with
    | none => some x
    | some y => if load x ≤ load y then some x else some y

/-- The load of link k for VC vc as quadrant q sees it (R147). -/
def linkLoad (s : State) (q vc k : Nat) : Nat :=
  queuedFlits s q (fun p => p.dest == .link k && p.vc == vc) +
    (if linkQuad k = q then 0 else Tbl.get 0 (sw s q).reported k)

/-- The least-loaded usable link of a set with the given links; ties go to the next after the last one chosen (R147). -/
def sprayAmong (q set vc : Nat) (all : List Nat) (s : State) : Option Nat × State :=
  let last := Tbl.get 0 (sw s q).spray set
  let order := (if last = 0 then all else rotateAfter (last - 1) all).filter (setUsable s)
  match leastLoaded (linkLoad s q vc) order with
  | none => (none, s)
  | some k => (some k, setSw q { sw s q with spray := Tbl.set 0 (sw s q).spray set (k + 1) } s)

/-- SPRAY_PICK (R147): the set's links as they stand. -/
def sprayPick (q set vc : Nat) (s : State) : Option Nat × State := sprayAmong q set vc (lsetLinks s q set) s

/-- Flits queued in quadrant q for the bridge toward quadrant b. -/
def bridgeLoad (s : State) (q b : Nat) : Nat := queuedFlits s q (fun p => p.next == b)

/-- TRANSIT_PICK (R148, R466): the transit quadrant of a packet from q to b; none for the direct bridge. -/
def pathPick (s : State) (q b : Nat) : Option Nat :=
  if q = b || !rb s (Reg.scCfg q) 31 then none
  else
    let bias := rf s (Reg.scCfg q) 23 16 * 64
    let via := (List.range 4).filter (fun c => c != q && c != b && !quadShut s c)
    match leastLoaded (fun c => bridgeLoad s q c + bias) via with
    | none => none
    | some c => if bridgeLoad s q c + bias < bridgeLoad s q b then some c else none

/-- Sends a waiting packet to another link (R163, R178). -/
def moveTo (q k : Nat) (p : QPkt) (s : State) : State :=
  let s' := dequeue q p.id s
  let w := sw s' q
  showBacklog q k (setSw q { w with pkts :=
    w.pkts ++ [{ p with dest := .link k, via := pathPick s' q (linkQuad k), waiting := false }] } s')

/-- A DOWN_DROP, counted and logged with its link (R163, R173). -/
def noteDrop (q k : Nat) (s : State) : State :=
  logEvent q 0x0302 clsPacket 1 (linkTile k) (dataL k (linkFiber k) 0xF 0 0xFF 0 0) (count1 (Ctr.downDrop q) s)

/-- An MC_DOWN_DROP, counted and logged with its link (R163, R173). -/
def noteMcDrop (q k : Nat) (s : State) : State :=
  logEvent q 0x0303 clsPacket 1 (linkTile k) (dataL k (linkFiber k) 0xF 0 0xFF 0 0) (count1 (Ctr.mcDownDrop q) s)

/-- The drop of a packet whose link did not return (R163, R173). -/
def downDrop (q k : Nat) (p : QPkt) (s : State) : State := noteDrop q k (dropPkt q p s)

/-- LINK_WAIT of quadrant q is 0: packets for a link out of service are dropped at once (SC_CFG). -/
def noWait (s : State) (q : Nat) : Bool := rf s (Reg.scCfg q) 15 8 == 0

/-- LINK_LEAVE_UP_VOQS in quadrant q (R163, R173): a packet that crosses to the egress tile ends stomped, one that crosses to
a bridge goes on; a sprayed packet with no other link takes the first of its set that becomes usable. -/
def leaveVoqs (q k : Nat) (s : State) : State :=
  forEach ((sw s q).pkts.filter (fun p => p.dest == .link k)) (fun p s =>
    match p.crossing, p.set, p.cells with
    | some _, _, _ =>
      if linkQuad k = q then dropPkt q p (count1 (Ctr.stompTx q (linkTile k) (linkIx k)) (emit (.stomp k) s)) else s
    | none, some n, _ =>
      match sprayAmong q n p.vc p.setLinks s with
      | (some k', s) => moveTo q k' p s
      | (none, s) => if noWait s q then downDrop q k p s else updatePkt q p.id (fun p => { p with waiting := true }) s
    | none, none, .shared _ => noteMcDrop q k (dropPkt q p s)
    | none, none, _ => if noWait s q then downDrop q k p s else s) s

/-- Packets that wait because no link of their set was usable take link k, which has become so (R178). -/
def joinVoqs (q k : Nat) (s : State) : State :=
  if !linkOk s k then s
  else
    forEach ((sw s q).pkts.filter (fun p => p.crossing.isNone && p.waiting)) (fun p s =>
      if p.dest == .link k then updatePkt q p.id (fun p => { p with waiting := false }) s
      else if p.setLinks.contains k && !isPeer s (linkFiber k) then moveTo q k p s else s) s

/-- LINK_WAIT_EXPIRY: the packets of quadrant q that wait for link k are dropped (R163, R178). -/
def execLinkWaitExpiry (q : Quad) (k : LinkIx) (s : State) : Host.Outcome State Fault Refusal :=
  .next (forEach ((sw s q).pkts.filter (fun p => p.dest == .link k && p.crossing.isNone)) (fun p s =>
    if linkUp s k && !p.waiting then s
    else match p.cells with
      | .shared _ => s
      | _ => downDrop q k p s) s)

/-! ### Commitments (R142, R143) -/

/-- COMMITTED of quadrant q. -/
def committed (s : State) (q : Nat) : Nat := rf s (Reg.scBudget q) 21 0
def setCommitted (q n : Nat) (s : State) : State := setRf (Reg.scBudget q) 21 0 n s

/-- BUDGET_CUT follows the links that run on a cut budget. -/
def showCut (q : Nat) (s : State) : State :=
  setRb (Reg.scStatus q) 3 (s.links.any (fun e => linkQuad e.1 == q && e.2.cut && linkUp s e.1)) s

/-- The entry of a BUDGET_CUT (R143, R173). -/
def logBudget (k : Nat) (s : State) : State :=
  logEvent (linkQuad k) 0x0301 clsInfo 1 (linkTile k) (dataL k (linkFiber k) 0xF 0 0xFF 0 0)
    (count1 (Ctr.budgetCuts (linkQuad k)) s)

/-- Commits a link's credits as it enters UP (R143); answers whether it may enter. -/
def commitLink (k : Nat) (s : State) : Bool × State :=
  let q := linkQuad k
  let adv := (List.range 7).map (fun i => advOf s k (i + 1))
  let now := committed s q
  if now + adv.sum + 65 ≤ 2097152 then
    (true, setCommitted q (now + adv.sum + 65)
      (setLink k { link s k with ownAdv := adv, committed := adv.sum + 65, cut := false } s))
  else if now + 520 ≤ 2097152 then
    (true, logBudget k (setCommitted q (now + 520)
      (setLink k { link s k with ownAdv := List.replicate 7 65, committed := 520, cut := true } s)))
  else (false, logBudget k s)

/-- Removes a link's amounts as it leaves UP (R143). -/
def uncommitLink (k : Nat) (s : State) : State :=
  let q := linkQuad k
  let s := setCommitted q (committed s q - (link s k).committed) s
  showCut q (setLink k { link s k with committed := 0, cut := false } s)

/-- What a quadrant commits besides its links: its pools, its bridge origin reserves and the ADV in force of its incoming
bridges (R142). -/
def baseCommit (s : State) (q : Nat) : Nat :=
  (sw s q).mcPool + (sw s q).originPool + 195 + ((sw s q).xbAdv.map (·.2)).sum

/-- Applies SC_POOL values to the pools that hold no cells (R171). -/
def poolApply (q : Nat) (s : State) : State :=
  let newMc := rf s (Reg.scPool q) 31 16 * 1024
  let newOr := rf s (Reg.scPool q) 15 0 * 1024
  let w := sw s q
  let s := if w.mcUsed = 0 && w.mcPool ≠ newMc then
      setCommitted q (committed s q + newMc - w.mcPool) (setSw q { w with mcPool := newMc } s) else s
  let w := sw s q
  showOrigin q (if w.originUsed = 0 && w.originPool ≠ newOr then
      setCommitted q (committed s q + newOr - w.originPool) (setSw q { w with originPool := newOr } s) else s)

/-- SC_POOL_APPLY (R171). -/
def execScPoolApply (q : Quad) (s : State) : Host.Outcome State Fault Refusal := .next (poolApply q s)

/-! ### Groups (R157, R159, R172) -/

/-- The set bits of a word, ascending. -/
def wordBits (w : Word) : List Nat := (List.range 32).filter (flag w)

/-- The target links of group g in quadrant q's table, ascending. -/
def groupLinks (s : State) (q g : Nat) : List Nat :=
  ((List.range 32).map (fun i => (wordBits (reg s (Reg.mcgLinks q g i))).map (32 * i + ·))).flatten

/-- VALID and SHARED of a group. -/
def groupValid (s : State) (q g : Nat) : Bool := rb s (Reg.mcg0 q g) 31
def groupShared (s : State) (q g : Nat) : Bool := g < 64 && rb s (Reg.mcg0 q g) 30 && groupValid s q g

/-- The quadrants other than q that hold one of the links, ascending. -/
def otherQuads (q : Nat) (ks : List Nat) : List Nat :=
  (List.range 4).filter (fun b => b != q && ks.any (fun k => linkQuad k == b))

/-! ### Origination (R159, R515) -/

/-- Cells for a packet of `n` flits that a unit of quadrant q originates toward link k, none while both pool and reserve
lack room (R515). -/
def originCells (s : State) (q n k : Nat) : Option Cells :=
  let w := sw s q
  if w.originUsed + n ≤ w.originPool then some .originPool
  else if linkQuad k = q then
    if linkUp s k && Tbl.get 0 w.linkUsed k + n ≤ 65 then some (.linkReserve k) else none
  else if Tbl.get 0 w.bridgeUsed (linkQuad k) + n ≤ 65 then some (.bridgeReserve (linkQuad k)) else none

/-- Takes `n` origin cells. -/
def takeCells (q n : Nat) (c : Cells) (s : State) : State :=
  let w := sw s q
  match c with
  | .originPool => showOrigin q (setSw q { w with originUsed := w.originUsed + n } s)
  | .linkReserve k => setSw q { w with linkUsed := Tbl.set 0 w.linkUsed k (Tbl.get 0 w.linkUsed k + n) } s
  | .bridgeReserve b => setSw q { w with bridgeUsed := Tbl.set 0 w.bridgeUsed b (Tbl.get 0 w.bridgeUsed b + n) } s
  | _ => s

/-- The packet of an origination request. -/
def OriginReq.packet (r : OriginReq) (id : Nat) (d : Dest) (c : Cells) (q : Nat) : QPkt where
  id := id
  rx := id
  inp := r.inp
  dest := d
  via := none
  vc := hVc r.head
  head := r.head
  payload := r.payload
  flits := hFlits r.head
  tail := if r.bad then .bad else .good
  cells := c
  cq := q
  set := none
  inLink := 1024
  born := r.born
  waiting := false
  crossing := none
  wick := r.wick

/-- The quadrant an originated packet is bound for, and the link whose reserve serves it (R515). -/
def originTarget : Dest → Nat × Nat
  | .link k => (linkQuad k, k)
  | d => (d.quad?, 256 * d.quad?)

/-- Queues an originated packet for a link or another quadrant's unit in the cells given (R515). -/
def originPut (q : Nat) (r : OriginReq) (d : Dest) (c : Cells) (s : State) : State :=
  let (id, s) := newId s
  enqueue q { r.packet id d c q with via := pathPick s q d.quad? } s

/-- Queues an originated packet for a link, or for a unit of another quadrant, once it finds cells (R302, R515). -/
def originTo (q : Nat) (r : OriginReq) (d : Dest) (s : State) : Option State :=
  (originCells s q (hFlits r.head) (originTarget d).2).map (fun c => originPut q r d c (takeCells q (hFlits r.head) c s))

/-- Queues a sprayed packet for link k of a set (R147). -/
def originToSet (q : Nat) (r : OriginReq) (k n : Nat) (links : List Nat) (waiting : Bool) (s : State) : Option State :=
  (originCells s q (hFlits r.head) k).map (fun c =>
    let (id, s) := newId (takeCells q (hFlits r.head) c s)
    enqueue q { r.packet id (.link k) c q with
      set := some n, setLinks := links, waiting := waiting, via := pathPick s q (linkQuad k) } s)

/-- Queues a shared copy: one pointer for each target link of the quadrant and one for each other quadrant (R159). -/
def originShared (q : Nat) (r : OriginReq) (g : Nat) (ks : List Nat) (s : State) : Option State :=
  let units := (((sw s q).shared.filterMap (·.2)).filter (·.ofUnit)).length
  let mine := ks.filter (fun k => linkQuad k == q)
  let quads := otherQuads q ks
  let target := (mine ++ ks).headD 0
  if 3072 ≤ units then none
  else (originCells s q (hFlits r.head) target).map (fun c =>
    let (ref, s) := newId (takeCells q (hFlits r.head) c s)
    let w := sw s q
    let copy : SharedCopy := ⟨mine.length + quads.length, c, hFlits r.head, true⟩
    let s := showRefs q (setSw q { w with shared := Tbl.set none w.shared ref (some copy) } s)
    let s := forEach mine (fun k s =>
      let (id, s) := newId s
      enqueue q { r.packet id (.link k) (.shared ref) q with rx := ref } s) s
    forEach quads (fun b s =>
      let (id, s) := newId s
      enqueue q { r.packet id (.quad b g) (.shared ref) q with rx := ref, via := pathPick s q b } s) s)

/-- Queues a packet for an ordinary group at the copier (R157, R515). -/
def originCopied (q : Nat) (r : OriginReq) (g : Nat) (ks : List Nat) (s : State) : Option State :=
  let target := (ks.filter (fun k => linkQuad k == q) ++ ks).headD 0
  (originCells s q (hFlits r.head) target).map (fun c =>
    let (id, s) := newId (takeCells q (hFlits r.head) c s)
    let job : CopyJob := ⟨r.packet id (.quad q g) c q, [], [], g, false, false⟩
    setSw q { sw s q with copyQ := (sw s q).copyQ ++ [job] } s)

/-- Tries to place a request; none while it must wait for cells (R515).  Only what a unit sends on CDN makes a shared copy;
any other packet for a group is copied (R159, R515). -/
def originTry (q : Nat) (r : OriginReq) (s : State) : Option State :=
  match r.dest with
  | .link k => originTo q r (.link k) s
  | .unit b u => originTo q r (.unit b u) s
  | .set n =>
    let links := lsetLinks s q n
    match sprayPick q n (hVc r.head) s with
    | (some k, s) => originToSet q r k n links false s
    | (none, s) =>
      match links with
      | [] => some s
      | k :: _ => if noWait s q then some (noteDrop q k s) else originToSet q r k n links true s
  | .group g =>
    let ks := if groupValid s q g then groupLinks s q g else []
    if ks.isEmpty then some s
    else if groupShared s q g && hVc r.head == 4 then originShared q r g ks s
    else originCopied q r g ks s
  | .lookup _ => some s

/-- Resolves a request that is forwarded by a DST lookup (R176, R218, R317): `none` once it is dropped.  Congestion maps and
log entries are never flooded: a miss or an unusable target drops them. -/
def originLookup (q : Nat) (r : OriginReq) (s : State) : Option OriginReq × State :=
  let flood := match r.dest with
    | .lookup (some _) => false
    | _ => true
  match r.dest with
  | .lookup _ =>
    match dstFind q (hDst r.head) s with
    | (.set n, s) => (some { r with dest := .set n }, s)
    | (.group g, s) => (some { r with dest := .group g }, s)
    | (.drop, s) =>
      if flood then
        match dstMiss q s with
        | (.group g, s) => (some { r with dest := .group g }, s)
        | (_, s) => (none, s)
      else (none, s)
  | _ => (some r, s)

/-- A unit of quadrant q originates a packet: it takes cells at once, or waits behind its unit's earlier ones (R515).
Answers false only when a lookup drops the packet. -/
def originate (q : Nat) (r : OriginReq) (s : State) : Bool × State :=
  match originLookup q r s with
  | (none, s) => (false, s)
  | (some r, s) =>
    let wait := setSw q { sw s q with originQ := (sw s q).originQ ++ [r] } s
    if (sw s q).originQ.any (fun x => x.unit == r.unit) then (true, wait)
    else (true, (originTry q r s).getD wait)

/-- The oldest waiting request of each unit, in order. -/
def originHeads : List OriginReq → List UnitDest → List OriginReq
  | [], _ => []
  | r :: rs, seen => if seen.contains r.unit then originHeads rs seen else r :: originHeads rs (r.unit :: seen)

/-- The first of the requests that finds cells. -/
def originFirst (q : Nat) (s : State) : List OriginReq → Option (OriginReq × State)
  | [] => none
  | r :: rs =>
    match originTry q r s with
    | some s' => some (r, s')
    | none => originFirst q s rs

/-- ORIGIN_ALLOC: a waiting unit takes cells once they are free (R515). -/
def execOriginAlloc (q : Quad) (s : State) : Host.Outcome State Fault Refusal :=
  .next (match originFirst q s (originHeads (sw s q).originQ []) with
    | none => s
    | some (r, s') => setSw q { sw s' q with originQ := eraseFirst (· == r) (sw s' q).originQ } s')

/-- A request with a prepared packet from the unit's first port. -/
def originReq (u : UnitDest) (inp : Nat) (d : OriginDest) (h payload : List Byte) (s : State) : OriginReq :=
  ⟨u, inp, d, h, payload, s.time.l, none, false⟩

/-! ### The scheduler (R150 to R153) -/

/-- A unit's input queue. -/
def unitQueue (w : SwSt) : UnitDest → List UPkt
  | .ce => w.ceIn
  | .ms => w.msIn
  | .lx => w.lxIn
  | .sv => w.svIn
  | .peerWr => w.peerIn
  | .peerAck => w.ackIn

/-- Entries of a unit's input queue (log entry 9). -/
def unitDepth : Nat := 64

/-- XB credit of quadrant q toward quadrant b on VC v (R154). -/
def xbCred (s : State) (q b v : Nat) : Nat := rf s (Reg.xbAdv q (bridgeIx q b) v) 31 16
def takeXbCred (q b v n : Nat) (s : State) : State :=
  setRf (Reg.xbAdv q (bridgeIx q b) v) 31 16 (xbCred s q b v - n) s

/-- The sender's side of the bridge from q toward b. -/
def bridge (s : State) (q b : Nat) : BridgeOut := Tbl.get BridgeOut.init (sw s q).bridges b
def setBridge (q b : Nat) (v : BridgeOut) (s : State) : State :=
  setSw q { sw s q with bridges := Tbl.set BridgeOut.init (sw s q).bridges b v } s

/-- Is quadrant a the lower-numbered of the two that feed the bridge from c toward b through c's transit FIFOs? -/
def lowerTransit (a c b : Nat) : Bool :=
  ((List.range 4).filter (fun x => x != c && x != b)).head? == some a

/-- Flits that occupy or will occupy the transit FIFO at c from a toward b: held there, on the bridge from a, staged at a or
crossing a's crossbar (R154). -/
def transitHeld (s : State) (a c b : Nat) : Nat :=
  let o := bridge s c b
  let held := if lowerTransit a c b then o.transit1 else o.transit2
  let i := bridge s a c
  let bound := (i.wire ++ i.loc ++ (sw s a).pkts.filter (fun p => p.crossing.isSome)).filter
    (fun p => p.via == some c && p.dest.quad? == b)
  ((held ++ bound).map (·.flits)).sum

/-- Is a VOQ head eligible (R150, R154, R155, R163)? -/
def eligible (s : State) (q : Nat) (p : QPkt) : Bool :=
  let b := p.dest.quad?
  let linkReady := match p.dest with
    | .link k => linkOk s k
    | _ => true
  linkReady &&
  (if b = q then
    match p.dest with
    | .link k => (link s k).credInit && p.flits ≤ txCred s k p.vc
    | .unit _ u =>
      u == .lx || u == .sv ||
        (unitQueue (sw s q) u).length +
          ((sw s q).pkts.filter (fun x => x.crossing.isSome && x.dest == p.dest)).length < unitDepth
    | .quad _ _ => false
  else
    match p.via with
    | some c => transitHeld s q c b + p.flits ≤ 1024 && p.flits ≤ xbCred s c b p.vc && !quadShut s c
    | none =>
      p.flits ≤ xbCred s q b p.vc && !quadShut s b &&
        (match p.dest with
          | .link k => Tbl.get 0 (sw s q).reported k ≤ rf s (Reg.xbCfg q (bridgeIx q b)) 31 16
          | _ => true))

/-- Debits the credit of a granted packet (R150, R154). -/
def debit (q : Nat) (p : QPkt) (s : State) : State :=
  let b := p.dest.quad?
  if b = q then
    match p.dest with
    | .link k => setTxCred k p.vc (txCred s k p.vc - p.flits) s
    | _ => s
  else
    match p.via with
    | some c => takeXbCred c b p.vc p.flits (count1 (Ctr.transitPkts q) s)
    | none => takeXbCred q b p.vc p.flits s

/-- Gives back the bridge credit of a granted packet that never reaches the other quadrant (R154). -/
def undebit (q : Nat) (p : QPkt) (s : State) : State :=
  let b := p.dest.quad?
  if b = q then s
  else
    let r := Reg.xbAdv (p.via.getD q) (bridgeIx (p.via.getD q) b) p.vc
    setRf r 31 16 (min 65535 (rf s r 31 16 + p.flits)) s

/-- Two packets of one VOQ. -/
def sameVoq (a b : QPkt) : Bool := a.inp == b.inp && a.dest == b.dest && a.vc == b.vc

/-- The VOQ heads among the waiting packets, in arrival order (R146). -/
def voqHeads : List QPkt → List QPkt → List QPkt
  | [], _ => []
  | p :: ps, seen =>
    if p.crossing.isSome then voqHeads ps seen
    else if seen.any (sameVoq p) then voqHeads ps seen
    else p :: voqHeads ps (p :: seen)

/-- What an input offers a tile output: links in rotating order after the last served, each with its class order. -/
def tileOffer (inp : Nat) (orders : List (Nat × List Nat)) (cls : QPkt → Nat) (heads : List QPkt) : Option QPkt :=
  orders.findSome? (fun o => o.2.findSome? (fun c =>
    heads.find? (fun p => p.inp == inp && p.dest == .link o.1 && cls p == c)))

/-- What an input offers a bridge or unit output: the heads in rotating VC order (R153). -/
def vcOffer (q inp out last : Nat) (heads : List QPkt) : Option QPkt :=
  ((List.range 8).map (fun i => (last + 1 + i) % 8)).findSome? (fun v =>
    heads.find? (fun p => p.inp == inp && outGroup q p == out && p.vc == v))

/-- The class orders of the links of a tile that have heads to offer (R197). -/
def tileOrders (q t : Nat) (heads : List QPkt) (s : State) : List (Nat × List Nat) × State :=
  let mine := heads.filter (fun p => outGroup q p == t)
  let ks := ((List.range 8).map (fun j => 256 * q + 8 * t + j)).filter (fun k => mine.any (fun p => p.dest == .link k))
  let ks := let last := Tbl.get 0 (sw s q).linkPtr t
    if last = 0 then ks else ks.filter (last - 1 < ·) ++ ks.filter (· ≤ last - 1)
  ks.foldl (fun acc k =>
    let i := k % 256
    let len := fun c => (mine.find? (fun p => p.dest == .link k && p.cls acc.2 q == c)).map (fun p => chargedLength acc.2 k p.flits)
    let queued := fun c => (sw acc.2 q).pkts.any (fun p => p.dest == .link k && p.crossing.isNone && p.cls acc.2 q == c)
    let (o, s) := classOrder q i len queued acc.2
    (acc.1 ++ [(k, o)], s)) ([], s)

/-- Elements of `xs` at or after `ptr`, then the others. -/
def fromPtr (ptr : Nat) (xs : List Nat) : List Nat := xs.filter (ptr ≤ ·) ++ xs.filter (· < ptr)

/-- Accepts the offer of input `inp` to output `out` (R151, R152): the packet starts to cross and its credit is debited; the
congestion map takes the ports of a group as filled from the lowest (log entry 64). -/
def acceptGrant (q inp out : Nat) (first : Bool) (p : QPkt) (s : State) : State :=
  let port := ((sw s q).pkts.filter (fun x => x.crossing == some out)).length % 16
  let s := cmapUse q (usePort out port) ((p.flits + 3) / 4) s
  let s := debit q p (updatePkt q p.id (fun p => { p with crossing := some out }) s)
  let s := showDest q p.dest s
  let s := if out < 32 then
      match p.dest with
      | .link k => setSw q { sw s q with linkPtr := Tbl.set 0 (sw s q).linkPtr out (k + 1) }
          (chargeGrant q (k % 256) (p.cls s q) (chargedLength s k p.flits) s)
      | _ => s
    else setSw q { sw s q with vcPtr := Tbl.set 0 (sw s q).vcPtr (80 * out + inp) p.vc } s
  if first then
    let w := sw s q
    pmcEvent q 32 0x020 noInst 1 (setSw q { w with
      grantPtr := Tbl.set 0 w.grantPtr out ((inp + 1) % 80), acceptPtr := Tbl.set 0 w.acceptPtr inp ((out + 1) % 39) } s)
  else pmcEvent q 32 0x021 noInst 1 s

/-- One iteration of request, grant and accept (R151). -/
def matchIter (q : Nat) (first : Bool) (orders : List (Nat × List (Nat × List Nat))) (s : State) : State :=
  let busy := (sw s q).pkts.filterMap (fun p => p.crossing.map (fun o => (p.inp, o)))
  let heads := (voqHeads (sw s q).pkts []).filter (fun p => !(busy.any (fun b => b.1 == p.inp)) && eligible s q p)
  let outs := (List.range 39).filter (fun o => heads.any (fun p => outGroup q p == o))
  let cls := fun p : QPkt => p.cls s q
  let offer := fun inp out =>
    if out < 32 then tileOffer inp ((orders.find? (·.1 == out)).map (·.2) |>.getD []) cls heads
    else vcOffer q inp out (Tbl.get 0 (sw s q).vcPtr (80 * out + inp)) heads
  let inputs := (List.range 80).filter (fun i => heads.any (fun p => p.inp == i))
  let grants := (outs.map (fun o =>
    let free := outPorts o - (busy.filter (fun b => b.2 == o)).length
    let req := inputs.filter (fun i => (offer i o).isSome)
    ((fromPtr (Tbl.get 0 (sw s q).grantPtr o) req).take free).map (fun i => (i, o)))).flatten
  forEach inputs (fun i s =>
    let mine := (grants.filter (fun g => g.1 == i)).map (·.2)
    match fromPtr (Tbl.get 0 (sw s q).acceptPtr i) mine with
    | [] => s
    | o :: _ =>
      match offer i o with
      | none => s
      | some p => if eligible s q p then acceptGrant q i o first p s else s) s

/-- The cycle's stalls: packets ready that wait for link credit (R139, R474), for bridge credit or for R155's limit. -/
def stallCounts (q : Nat) (heads : List QPkt) (s : State) : State :=
  let poor := heads.filter (fun p => match p.dest with
    | .link k => linkQuad k == q && linkOk s k && txCred s k p.vc < p.flits
    | _ => false)
  let ks := ((poor.map (fun p => match p.dest with | .link k => k | _ => 0)).eraseDups)
  let s := forEach ks (fun k s =>
    pmcEvent q (linkTile k) 0x015 ((poor.find? (fun p => p.dest == .link k)).map (·.vc) |>.getD 0) 1
      (count1 (Ctr.credStall q (linkTile k) (linkIx k)) s)) s
  let dry := (heads.filter (fun p => p.dest.quad? != q && p.via.isNone && xbCred s q p.dest.quad? p.vc < p.flits)).map (·.dest.quad?)
  let s := forEach dry.eraseDups (fun b s => cmapUse q (useNoCredit (bridgeIx q b)) 1 s) s
  forEach (heads.filter (fun p => p.dest.quad? != q && p.via.isNone)) (fun p s =>
    let b := p.dest.quad?
    let i := bridgeIx q b
    if xbCred s q b p.vc < p.flits then pmcEvent q (33 + i) 0x033 p.vc 1 s
    else match p.dest with
      | .link k => if rf s (Reg.xbCfg q i) 31 16 < Tbl.get 0 (sw s q).reported k then pmcEvent q (33 + i) 0x035 noInst 1 s else s
      | _ => s) s

/-- Busy output ports, and inputs with an eligible head that no iteration matched (R474). -/
def portCounts (q : Nat) (s : State) : State :=
  let busy := (sw s q).pkts.filterMap (fun p => p.crossing.map (fun o => (p.inp, o)))
  let s := forEach busy (fun b s => pmcEvent q 32 0x022 b.2 1 s) s
  let heads := (voqHeads (sw s q).pkts []).filter (fun p => !(busy.any (fun b => b.1 == p.inp)) && eligible s q p)
  forEach ((heads.map (·.inp)).eraseDups) (fun i s => pmcEvent q 32 0x023 i 1 s) s

/-- Quadrant q makes a shared copy of packet p, which holds cells of its buffer, for its own target links of group g (R159);
none while no entry is free (R160). -/
def shareHere (q g : Nat) (p : QPkt) (s : State) : Option State :=
  let live := ((sw s q).shared.filterMap (·.2)).filter (fun c => !c.ofUnit)
  let mine := (if groupValid s q g then groupLinks s q g else []).filter (fun k => linkQuad k == q)
  if 1024 ≤ live.length then none
  else if mine.isEmpty then some (freeCells p s)
  else
    let (ref, s) := newId s
    let w := sw s q
    let copy : SharedCopy := ⟨mine.length, p.cells, p.flits, false⟩
    let s := showRefs q (setSw q { w with shared := Tbl.set none w.shared ref (some copy) } s)
    some (forEach mine (fun k s =>
      let (id, s) := newId s
      enqueue q { p with id := id, dest := .link k, cells := .shared ref } s) s)

/-- Shared copies that wait in quadrant q's bridge VOQs take entries as these come free, oldest first (R160). -/
def shareWaiting (q : Nat) (s : State) : State :=
  forEach ((sw s q).pkts.filter (fun p => p.dest.quad? == q && (match p.dest with | .quad _ _ => true | _ => false))) (fun p s =>
    match p.dest with
    | .quad _ g => (shareHere q g p (dequeue q p.id s)).getD s
    | _ => s) s

/-- SHAPER_UPDATE: one CLK_CORE cycle of every enabled shaper of quadrant q (R198). -/
def shaperStep (q : Nat) (s : State) : State := shaperUpdate q (classQueued s q) s

/-- The matching of a cycle (R151, R197). -/
def schedule (q : Nat) (s : State) : State :=
  if (sw s q).pkts.isEmpty then s
  else
    let heads := (voqHeads (sw s q).pkts []).filter (eligible s q)
    let tiles := (List.range 32).filter (fun t => heads.any (fun p => outGroup q p == t))
    let (orders, s) := tiles.foldl (fun acc t =>
      let (o, s) := tileOrders q t heads acc.2
      (acc.1 ++ [(t, o)], s)) (([], s) : List (Nat × List (Nat × List Nat)) × State)
    let s := stallCounts q (voqHeads (sw s q).pkts []) s
    let s := matchIter q false orders (matchIter q false orders (matchIter q true orders s))
    portCounts q (idleDeficits q (classQueued s q) s)

/-- SCHED_MATCH: one cycle of the central scheduler, after the shapers' update (R151, R197, R198). -/
def schedMatch (q : Nat) (s : State) : State :=
  let s := setSw q { sw s q with cycles := (sw s q).cycles + 1 } s
  schedule q (shaperStep q (shareWaiting q s))

/-- SCHED_MATCH. -/
def execSchedMatch (q : Quad) (s : State) : Host.Outcome State Fault Refusal :=
  .next (if quadShut s q then s else schedMatch q s)

/-! ### The end of a transfer (R152, R133, R134) -/

/-- Notes how a long operation of quadrant q has ended; LONG_OP_COMPLETE completes it (R298). -/
def opEnds (q id : Nat) (e : OpEnd) (s : State) : State :=
  let l := lx s q
  setLx q { l with ops := modifyFirst (fun o => o.id == id) (fun o => { o with fin := some e }) l.ops } s

/-- The fault a nonzero STATUS gives a wick (R374): STACK_OFFLINE or DATA_ERROR. -/
def statusFault (st : Nat) : Nat := if st = 0 then 0 else if st = 4 then 0x08 else 0x0A

/-- The answer of another quadrant's memory-semantic service to a Lantern access: its operation ends (R302, R373). -/
def wickAnswer (p : QPkt) (s : State) : State :=
  match p.wick with
  | none => s
  | some (b, id) =>
    let h := p.head
    let data := if mOpcode h = 1 then p.payload else if mOpcode h = 2 then [] else leBytes (if mAsize h = 3 then 8 else 4) (mOpa h)
    opEnds b id ⟨statusFault (mStatus h), mAddr h, data⟩ s

/-- Hands a packet to a unit's input queue; the service link and the Lantern queue drop on overflow (R144, R165). -/
def deliverUnit (q : Nat) (u : UnitDest) (p : QPkt) (s : State) : State :=
  let w := sw s q
  let x : UPkt := ⟨p.inLink, p.head, p.payload, p.born, p.wick, none⟩
  let full := unitDepth ≤ (unitQueue w u).length
  let mark := fun s => if hEcn p.head then count1 (Ctr.ecnUnit q) s else s
  match u with
  | .ce => mark (count1 (Ctr.unitPkts q) (setSw q { w with ceIn := w.ceIn ++ [x] } s))
  | .ms => count1 (Ctr.unitPkts q) (setSw q { w with msIn := w.msIn ++ [x] } s)
  | .peerWr => count1 (Ctr.unitPkts q) (setSw q { w with peerIn := w.peerIn ++ [x] } s)
  | .peerAck => count1 (Ctr.unitPkts q) (setSw q { w with ackIn := w.ackIn ++ [x] } s)
  | .lx =>
    if p.wick.isSome then wickAnswer p s
    else if full then count1 (Ctr.lxMsgDrop q) s
    else mark (count1 (Ctr.unitPkts q) (setSw q { w with lxIn := w.lxIn ++ [x] } s))
  | .sv =>
    if full then count1 (Ctr.svDrop q) s
    else mark (count1 (Ctr.unitPkts q) (setSw q { w with svIn := w.svIn ++ [x] } s))

/-- Sends a packet that has crossed to its egress tile (R133, R476): a bad one with a stomped tail. -/
def sendOnLink (k : Nat) (p : QPkt) (s : State) : State :=
  let s := monEvent (linkQuad k) 1 (· == k % 256) (2 * (s.time.l - p.born)) s
  let s := if p.tail == .bad then emit (.stomp k) s else s
  txFlits k (packetFlits p.head p.payload (p.tail == .bad)) s

/-- The last cell of packet p has crossed quadrant q's crossbar (R152); one that has ended bad goes no further. -/
def transferDone (q : Nat) (p : QPkt) (s : State) : State :=
  let s := setSw q { sw s q with pkts := eraseFirst (·.id == p.id) (sw s q).pkts } s
  if p.dest.quad? = q then
    match p.dest with
    | .link k => freeCells p (sendOnLink k p s)
    | .unit _ u => if p.tail == .bad then freeCells p s else freeCells p (deliverUnit q u p s)
    | .quad _ _ => freeCells p s
  else if p.tail == .bad then freeCells p (undebit q p s)
  else
    let b := p.next
    let s := if p.cells.ofOrigin then s else freeCells p s
    setBridge q b { bridge s q b with loc := (bridge s q b).loc ++ [{ p with crossing := none }] } s

/-- XBAR_TRANSFER_DONE: ignored while the packet's tail is still to come. -/
def execXbarTransferDone (q : Quad) (id : Nat) (s : State) : Host.Outcome State Fault Refusal :=
  .next (match (sw s q).pkts.find? (fun p => p.id == id && p.crossing.isSome) with
    | none => s
    | some p => if p.tail == .waiting then s else transferDone q p s)

/-! ### Bridges (R154, R156, R149) -/

/-- The requesters of the bridge arbiter XB_ARB{p} of quadrant q that have a packet to start (R156): none while every lane
carries a packet (R209, R212). -/
def xbRequests (s : State) (q p : Nat) : List Nat :=
  let b := otherQuad q p
  let o := bridge s q b
  if (nextLane b q o).isNone then []
  else (if o.loc.isEmpty then [] else [0]) ++ (if o.transit1.isEmpty then [] else [1]) ++ (if o.transit2.isEmpty then [] else [2])

/-- A packet starts on the bridge, on the next free lane (R156, R212). -/
def bridgeStart (q p r : Nat) (s : State) : State :=
  let b := otherQuad q p
  let o := bridge s q b
  let lane := (nextLane b q o).getD 0
  let start := fun (x : QPkt) (o : BridgeOut) (s : State) =>
    let s := setBridge q b { o with wire := o.wire ++ [{ x with inp := bridgeInput b q lane }], lane := lane } s
    let s := cmapUse q (if r = 0 then useLocal p else useTransit p) x.flits s
    let s := pmcEvent q (33 + p) 0x032 r 1 (pmcEvent q (33 + p) 0x030 x.vc x.flits s)
    count (Ctr.xbTxFlits q p) x.flits (arbUses (.xb (Fin.ofNat 4 q) (Fin.ofNat 3 p)) (o.wire.length + 1) s)
  match r with
  | 0 => match o.loc with
    | [] => s
    | x :: xs => start x { o with loc := xs } s
  | 1 => match o.transit1 with
    | [] => s
    | x :: xs => start x { o with transit1 := xs } s
  | _ => match o.transit2 with
    | [] => s
    | x :: xs => start x { o with transit2 := xs } s

/-- Writes an arrived packet into quadrant q's buffer and queues it; `a` is the quadrant that debited the credit (R154).  A
shared copy that finds no entry waits in its VOQ (R160); with LINK_WAIT 0 a packet for a link out of service is dropped. -/
def arrive (q a : Nat) (p : QPkt) (s : State) : State :=
  let here := { p with via := none, cells := Cells.bridge a p.vc, cq := q }
  match p.dest with
  | .quad _ g =>
    match p.cells with
    | .shared _ => (shareHere q g here s).getD (enqueue q here s)
    | _ => setSw q { sw s q with copyQ := (sw s q).copyQ ++ [⟨here, [], [], g, false, false⟩] } s
  | .link k =>
    if !linkUp s k && noWait s q then noteDrop q k (freeCells here s) else enqueue q here s
  | .unit _ _ => enqueue q here s

/-- BRIDGE_PACKET_RX: the oldest packet on the bridge from `src` arrives at `dst` (R154, R515); the cells it kept in the
quadrant it comes from are free once it is written here. -/
def bridgeArrive (src dst : Nat) (s : State) : State :=
  let o := bridge s src dst
  match o.wire with
  | [] => s
  | p :: rest =>
    let s := setBridge src dst { o with wire := rest } s
    let s := arbUses (.xb (Fin.ofNat 4 src) (Fin.ofNat 3 (bridgeIx src dst))) rest.length s
    let s := pmcEvent dst (33 + bridgeIx dst src) 0x031 p.vc p.flits s
    let b := p.dest.quad?
    if b ≠ dst then
      let t := bridge s dst b
      if lowerTransit src dst b then setBridge dst b { t with transit1 := t.transit1 ++ [p] } s
      else setBridge dst b { t with transit2 := t.transit2 ++ [p] } s
    else
      let s := arrive dst src p s
      if p.cells.ofOrigin then freeCells p s else s

/-- BRIDGE_PACKET_RX. -/
def execBridgePacketRx (src dst : Quad) (s : State) : Host.Outcome State Fault Refusal :=
  .next (if src = dst || quadShut s dst then s else bridgeArrive src dst s)

/-- BACKLOG_BROADCAST: the other quadrants take quadrant q's backlog of each of its links (R149). -/
def backlogBroadcast (q : Nat) (s : State) : State :=
  let vec := (List.range 256).map (fun i => (256 * q + i, rf s (Reg.scLinkstat q i) 21 0))
  forEach ((List.range 4).filter (· != q)) (fun b s =>
    let old := Tbl.keep (fun k => linkQuad k != q) (sw s b).reported
    setSw b { sw s b with reported := vec.foldl (fun t e => Tbl.set 0 t e.1 e.2) old } s) s

/-- BACKLOG_BROADCAST. -/
def execBacklogBroadcast (q : Quad) (s : State) : Host.Outcome State Fault Refusal := .next (backlogBroadcast q s)

/-! ### The copier (R157, R158, R177, R206) -/

/-- Marks a packet that joins a VOQ of quadrant q where R206 says so. -/
def ecnJoin (q : Nat) (p : QPkt) (s : State) : QPkt × State :=
  if ecnMarks s q p.vc (voqDepth s q p.inp p.dest p.vc) && !hEcn p.head then
    let w := sw s q
    let s := match p.dest with
      | .link k => setSw q { w with cmap := { w.cmap with marked := Tbl.set 0 w.cmap.marked k (Tbl.get 0 w.cmap.marked k + 1) } } s
      | _ => s
    let s := if p.inp < 32 then pmcEvent q p.inp 0x017 p.vc 1 s else s
    ({ p with head := setEcn p.head }, count1 (Ctr.ecnMarks q) s)
  else (p, s)

/-- Reads a job's targets from the group table (R161, R172, R177): a copy that came over a bridge serves only the links
here. -/
def CopyJob.start (s : State) (q : Nat) (j : CopyJob) : CopyJob :=
  if j.started then j
  else
    let ks := if groupValid s q j.group then groupLinks s q j.group else []
    let fromBridge := 32 ≤ j.pkt.inp && j.pkt.inp < 62
    { j with started := true, links := ks.filter (fun k => linkQuad k == q && k != j.pkt.inLink),
             quads := if fromBridge then [] else otherQuads q (ks.filter (· != j.pkt.inLink)) }

/-- Ends the job at the head of the copier's queue; cells that served no target are freed. -/
def copyEnd (q : Nat) (j : CopyJob) (s : State) : State :=
  let s := setSw q { sw s q with copyQ := (sw s q).copyQ.drop 1 } s
  if j.firstDone then s else freeCells j.pkt s

/-- Makes the next copy of the job at the head of the copier's queue (R157, R158). -/
def mcCopy (q : Nat) (s : State) : State :=
  match (sw s q).copyQ with
  | [] => s
  | j :: rest =>
    let j := j.start s q
    let next := match j.links, j.quads with
      | k :: ks, qs => some (Dest.link k, ks, qs)
      | [], b :: qs => some (Dest.quad b j.group, [], qs)
      | [], [] => none
    match next with
    | none => copyEnd q j s
    | some (d, ks, qs) =>
      if j.firstDone && (sw s q).mcPool < (sw s q).mcUsed + j.pkt.flits then
        count1 (Ctr.mcPoolWait q) (setRb (Reg.scStatus q) 2 true
          (pmcEvent q 32 0x025 noInst 1 (setSw q { sw s q with copyQ := j :: rest } s)))
      else
        let (id, s) := newId s
        let s := if j.firstDone then
            pmcEvent q 32 0x024 noInst 1 (count1 (Ctr.mcCopies q)
              (setSw q { sw s q with mcUsed := (sw s q).mcUsed + j.pkt.flits } (setRb (Reg.scStatus q) 2 false s)))
          else s
        let p := { j.pkt with
          id := id, dest := d, via := pathPick s q d.quad?,
          cells := if j.firstDone then .mcPool else j.pkt.cells, cq := q }
        let (p, s) := if j.pkt.inLink < 1024 then ecnJoin q p s else (p, s)
        let j := { j with firstDone := true, links := ks, quads := qs }
        let left := if ks.isEmpty && qs.isEmpty then rest else j :: rest
        enqueue q p (setSw q { sw s q with copyQ := left } s)

/-- MC_COPY. -/
def execMcCopy (q : Quad) (s : State) : Host.Outcome State Fault Refusal :=
  .next (if quadShut s q then s else mcCopy q s)

/-! ### Tails (R133, R134) -/

/-- A payload of exactly the length its header gives: what is missing of a truncated packet is undefined (R113, R133). -/
def fitPayload (h payload : List Byte) (s : State) : List Byte × State :=
  let (fill, s) := freeBytes (hPlen h - payload.length) s
  ((payload ++ fill).take (hPlen h), s)

/-- Packet `rx` has ended bad in quadrant q: what has not begun to leave is discarded (R132, R134). -/
def dropBad (q rx : Nat) (s : State) : State :=
  let s := forEach ((sw s q).pkts.filter (fun p => p.rx == rx && p.crossing.isNone)) (dropPkt q) s
  let jobs := (sw s q).copyQ.filter (fun j => j.pkt.rx == rx)
  let s := setSw q { sw s q with copyQ := (sw s q).copyQ.filter (fun j => j.pkt.rx != rx) } s
  showMcPool q (forEach jobs (fun j s => if j.firstDone then s else freeCells j.pkt s) s)

/-- Packet `rx` of quadrant q has its payload, and its tail is good or bad. -/
def endPkt (q rx : Nat) (payload : List Byte) (t : TailState) (s : State) : State :=
  let upd := fun p : QPkt => if p.rx == rx then { p with payload := payload, tail := t } else p
  let w := sw s q
  setSw q { w with pkts := w.pkts.map upd, copyQ := w.copyQ.map (fun j => { j with pkt := upd j.pkt }) } s

/-- The packet `rx` received in quadrant q is complete with this payload, or bad: copies that have not begun to leave are
discarded, the others end stomped, at the length their HEAD gives (R113, R134). -/
def markTail (q rx : Nat) (payload : List Byte) (good : Bool) (s : State) : State :=
  if good then endPkt q rx payload .good s
  else
    let s := dropBad q rx s
    match (sw s q).pkts.find? (fun p => p.rx == rx) with
    | none => s
    | some p =>
      let (bytes, s) := fitPayload p.head payload s
      endPkt q rx bytes .bad s

/-- The packet that is arriving on link k ends bad (R120, R131, R163). -/
def truncateRx (k : Nat) (s : State) : State :=
  match (link s k).rxOpen with
  | none => s
  | some o =>
    let s := setLink k { link s k with rxOpen := none } s
    match o.id with
    | none => s
    | some id => markTail (linkQuad k) id [] false s

end Sys2Proof.Machine
end

