-- ==== Sys2Proof/Machine/Time.lean ====
section
/-!
DEFINITION. Time: device time and its apply ticks, time exchanges, the servo, holdover and the software time ports
(R393 to R411).
-/
namespace Sys2Proof.Machine

/-- SYNC_LOG, values above 10 acting as 10. -/
def syncLog (s : State) : Nat := min 10 (rf s Reg.timeCfg 19 16)
/-- Ticks of one exchange interval. -/
def syncTicks (s : State) : Nat := 2 ^ syncLog s * Config.ticksPerPeriod
/-- GM, SERVO_EN, STEP_EN, SERVO_SRC of TIME_CFG. -/
def timeGm (s : State) : Bool := rb s Reg.timeCfg 31
def servoSrc (s : State) : Nat := rf s Reg.timeCfg 9 0
/-- The servo runs: SERVO_EN set and GM clear (R405). -/
def servoRuns (s : State) : Bool := rb s Reg.timeCfg 30 && !timeGm s
/-- Holdover limit in ticks (R406). -/
def holdTicks (s : State) : Nat := max 1 (rf s Reg.timeThresh 31 24) * syncTicks s

/-- Servo states (TIME_STATUS.STATE). -/
def servoFree : Nat := 0
def servoAcquire : Nat := 1
def servoLocked : Nat := 2
def servoHoldover : Nat := 3
def servoState (s : State) : Nat := rf s Reg.timeStatus 29 28

/-- Saturates a signed value to 32 bits. -/
def sat32 (i : Int) : Word := BitVec.ofInt 32 (clampInt (-(2 ^ 31)) (2 ^ 31 - 1) i)

/-- An Ember entry of the time unit, and source 256 (R411). -/
def timeLog (code : Nat) (theta : Int) (s : State) : State :=
  raise 256 (logEvent 4 code clsInfo 9 0 (dataT theta (rf s Reg.masterEpid 23 0) (servoState s)) s)

/-- The last theta, in 1/65,536 tick, from LAST_THETA. -/
def lastTheta (s : State) : Int := (reg s Reg.lastTheta).toInt * 256

/-- Enters a servo state; a change is logged (R411). -/
def setServo (st : Nat) (s : State) : State :=
  if servoState s = st then s
  else
    let s := setRb Reg.timeStatus 31 (st == servoLocked) (setRb Reg.timeStatus 30 (st == servoHoldover)
      (setRf Reg.timeStatus 29 28 st s))
    timeLog 0x0701 (lastTheta s) { s with time := { s.time with good := 0, bad := 0 } }

/-- Enters HOLDOVER where the servo runs (R405, R406). -/
def enterHoldover (s : State) : State :=
  if servoRuns s && servoState s != servoHoldover then setServo servoHoldover (count1 Ctr.holdovers s) else s

/-- The SERVO_SRC link leaves UP, or its SYNC is not VALID (R406). -/
def holdoverOn (k : Nat) (s : State) : State := if k = servoSrc s then enterHoldover s else s

/-- The exchange in progress on link k, if any, is discarded (R401, R410). -/
def dropExch (k : Nat) (s : State) : State :=
  match (link s k).exch with
  | some _ => count1 Ctr.exchDiscard (setLink k { link s k with exch := none } s)
  | none => s

/-- A new EPID in the alignment blocks of link k: a master change on the SERVO_SRC link (R406, R410). -/
def masterEpid (k : Nat) (old : Option (BitVec 24)) (epid : BitVec 24) (s : State) : State :=
  if k ≠ servoSrc s then s
  else
    let s := setRf Reg.masterEpid 23 0 epid.toNat s
    match old with
    | none => s
    | some e =>
      if e = epid then s
      else
        let s := dropExch k s
        enterHoldover (timeLog 0x0704 (lastTheta s) (count1 Ctr.masterChanges s))

/-! ### Apply ticks (R395) -/

/-- RATE × (L − L_REF), rounded toward minus infinity to 1/65,536 tick. -/
def rateDrift (t : TimeSt) (l : Nat) : Int := (t.rate.toInt * ((l : Int) - t.lref)) / 2 ^ 32

/-- One change at its apply tick `la`. -/
def applyChange (la : Nat) (c : TimeChange) (t : TimeSt) : TimeSt :=
  let t := { t with offset := t.offset + BitVec.ofInt 80 (rateDrift t la), lref := la }
  match c with
  | .rate r => { t with rate := r }
  | .step d => { t with offset := t.offset + BitVec.ofInt 80 d }
  | .set v => { t with offset := v - BitVec.ofNat 80 (la * 65536) }

/-- The oldest decided change takes effect; L has reached its apply tick. -/
def timeApply (s : State) : State :=
  match s.time.applies with
  | [] => s
  | (la, c) :: rest =>
    { s with time := { applyChange la c { s.time with applies := rest } with l := max s.time.l la } }

/-- TIME_APPLY. -/
def execTimeApply (s : State) : Host.Outcome State Fault Refusal := .next (timeApply s)

/-- Decides a change: it applies 64 ticks later. -/
def decideChange (c : TimeChange) (s : State) : State :=
  { s with time := { s.time with applies := s.time.applies ++ [(s.time.l + 64, c)] } }

/-- Is a change decided in this tick? -/
def decidedNow (s : State) (e : Nat × TimeChange) : Bool := e.1 == s.time.l + 64

/-- A host TIME_SET or TIME_STEP: a change that the running servo has decided in the same tick is discarded, and the servo enters
ACQUIRE (R405, R410). -/
def hostChange (c : TimeChange) (s : State) : State :=
  if servoRuns s then
    setServo servoAcquire (decideChange c { s with time := { s.time with applies := s.time.applies.filter (fun e => !decidedNow s e) } })
  else decideChange c s

/-- Has the host set or stepped the time in this tick (R410)? -/
def hostDecided (s : State) : Bool :=
  s.time.applies.any (fun e => decidedNow s e && (match e.2 with
    | .rate _ => false
    | _ => true))

/-- A host TIME_SET (R405, R410, R411): the value of SET_FRAC, SET_LO and the written SET_HI. -/
def timeSet (v : Word) (s : State) : State :=
  let s := setReg Reg.setHi v s
  let val := rf s Reg.setFrac 15 0 + (reg s Reg.setLo).toNat * 2 ^ 16 + v.toNat * 2 ^ 48
  hostChange (.set (BitVec.ofNat 80 val)) (timeLog 0x0703 (lastTheta s) s)

/-- A host TIME_STEP (R405, R411). -/
def timeStep (v : Word) (s : State) : State :=
  let s := setReg Reg.tstepHi (v &&& 0xFFFF) s
  let d := toSigned 48 ((reg s Reg.tstepLo).toNat + (v.toNat % 65536) * 2 ^ 32)
  hostChange (.step d) (timeLog 0x0702 d s)

/-- A host TIME_RSET, ignored while the servo runs (R405). -/
def timeRset (v : Word) (s : State) : State :=
  let s := setReg Reg.rsetHi (v &&& 0xFF) s
  if servoRuns s then s
  else decideChange (.rate (BitVec.ofNat 40 ((reg s Reg.rsetLo).toNat + (v.toNat % 256) * 2 ^ 32))) s

/-- TIME_RSET. -/
def execTimeRset (v : Word) (s : State) : Host.Outcome State Fault Refusal := .next (timeRset v s)

/-! ### The servo (R403, R404) -/

/-- Range of RATE: signed 40 bits. -/
def clampRate (i : Int) : Int := clampInt (-(2 ^ 39)) (2 ^ 39 - 1) i

/-- Counts exchanges within and beyond LOCK_THRESH, and moves between ACQUIRE and LOCKED (R404). -/
def servoLockCount (theta : Int) (s : State) : State :=
  let within := theta.natAbs ≤ rf s Reg.timeThresh 15 0 * 256
  let t := s.time
  let s := { s with time := { t with good := if within then t.good + 1 else 0, bad := if within then 0 else t.bad + 1 } }
  if servoState s = servoAcquire && 16 ≤ s.time.good then setServo servoLocked s
  else if servoState s = servoLocked && 4 ≤ s.time.bad then setServo servoAcquire s
  else s

/-- SERVO_UPDATE: one valid exchange with `theta` in 1/65,536 tick, whose t2 was taken at `l2` (R403); its change is discarded
where the host has set or stepped the time in the same tick (R410). -/
def servoUpdate (theta : Int) (l2 : Nat) (s : State) : State :=
  let prev := s.time.prevT2
  let s := { s with time := { s.time with prevT2 := some l2 } }
  if !servoRuns s then s
  else if hostDecided s then setServo servoAcquire s
  else
    let s := if servoState s = servoFree || servoState s = servoHoldover then setServo servoAcquire s else s
    let limit := (reg s Reg.stepThresh).toNat
    if servoState s = servoAcquire && rb s Reg.timeCfg 29 && limit ≠ 0 && limit * 65536 < theta.natAbs then
      servoLockCount theta (timeLog 0x0702 theta (decideChange (.step (-theta)) (count1 Ctr.steps s)))
    else
      let iv := match prev with
        | some p => if p < l2 && l2 - p ≤ 16 * syncTicks s then l2 - p else syncTicks s
        | none => syncTicks s
      let x := theta * 2 ^ 32 / (iv : Int)
      let integ := (s.time.integ * 65536 - (rf s Reg.timeServo 15 0 : Int) * x) / 65536
      let rate := clampRate ((integ * 65536 - (rf s Reg.timeServo 31 16 : Int) * x) / 65536)
      servoLockCount theta (decideChange (.rate (BitVec.ofInt 40 rate)) { s with time := { s.time with integ := integ } })

/-! ### Exchanges (R398 to R402) -/

/-- ROLE of link k, 0b11 acting as NONE. -/
def tpCfg (k : Nat) : Nat := Reg.tpCfg (linkQuad k) (linkTile k) (linkIx k)
def tpSw (s : State) (k : Nat) : Bool := rb s (tpCfg k) 2
def tpMaster (s : State) (k : Nat) : Bool := linkUp s k && !tpSw s k && rf s (tpCfg k) 1 0 == 1
def tpSlave (s : State) (k : Nat) : Bool := linkUp s k && !tpSw s k && rf s (tpCfg k) 1 0 == 2
/-- CORR_RX and CORR_TX, signed in 1/256 tick. -/
def corrRx (s : State) (k : Nat) : Int := toSigned 16 (rf s (tpCfg k + 4) 31 16)
def corrTx (s : State) (k : Nat) : Int := toSigned 16 (rf s (tpCfg k + 4) 15 0)
/-- Sets TP_STATUS.SEQID. -/
def setSeqid (k : Nat) (n : BitVec 16) (s : State) : State := setRf (tpCfg k + 8) 15 0 n.toNat s

/-- RTT_EST of a link in 1/256 tick, as the link layer uses it (R402, R407). -/
def rttEst (s : State) (k : Nat) : Nat :=
  if (link s k).rttValid && !tpSw s k then (reg s (tpCfg k + 0xC)).toNat else rf s Reg.rttDefault 23 0 * 256

/-- A time record: its code, SEQID and the bytes that follow (R399). -/
def recTime (code : Nat) (seqid : BitVec 16) (rest : List Byte) : List Byte := ctrlRec code (leBytes 2 seqid.toNat ++ rest)
def recSync (seqid : BitVec 16) (period : BitVec 32) (flags steps : Nat) : List Byte :=
  recTime 0x30 seqid (leBytes 4 period.toNat ++ leBytes 1 flags ++ leBytes 1 steps)
def recStamp (code : Nat) (seqid : BitVec 16) (t : BitVec 80) (corr : Int) : List Byte :=
  recTime code seqid (leBytes 10 t.toNat ++ leBytes 3 (ofSigned 24 corr))
def recDelayReq (seqid : BitVec 16) (period : BitVec 32) : List Byte := recTime 0x32 seqid (leBytes 4 period.toNat)
def recPath (seqid : BitVec 16) (mpd : Nat) : List Byte := recTime 0x34 seqid (leBytes 4 mpd)

/-- The record a received message came in, by its code. -/
def timeRecord (m : TimeMsg) (code : Nat) : List Byte :=
  if code = 0x30 then recSync m.seqid m.period m.flags.toNat m.steps.toNat
  else if code = 0x32 then recDelayReq m.seqid m.period
  else if code = 0x34 then recPath m.seqid m.mpd.toNat
  else recStamp code m.seqid m.stamp m.corr.toInt

/-- Keeps the last 16 stamps (R398). -/
def keepStamp (x : Stamp) (xs : List Stamp) : List Stamp := (x :: xs).take 16

/-- The stamp of a period, while it is among the last 16. -/
def findStamp (p : BitVec 32) (xs : List Stamp) : Option Stamp := xs.find? (·.period == p)

/-- The next transmit period of link k whose AMP has not left (R400). -/
def nextPeriod (s : State) (k : Nat) : BitVec 32 := (fiber s (linkFiber k)).period + 1

/-- SYNC flags of this device: VALID, HOLDOVER, GM (R399, R400). -/
def syncFlags (s : State) : Nat :=
  b2n (timeGm s || servoState s == servoLocked) + 2 * b2n (servoState s == servoHoldover) + 4 * b2n (timeGm s)

/-- STEPS this device sends (R400). -/
def syncSteps (s : State) : Nat := if timeGm s then 0 else rf s Reg.timeStatus 23 16

/-- SYNC_TX: a master link sends SYNC and FOLLOW_UP for the period that has just left (R400). -/
def syncTx (k : Nat) (x : Stamp) (s : State) : State :=
  if tpMaster s k && x.period.toNat % 2 ^ syncLog s == 0 then
    let n := (link s k).syncSeq + 1
    let s := setSeqid k n (setLink k { link s k with syncSeq := n } s)
    txCtrl k (recStamp 0x31 n x.time (corrTx s k)) (txCtrl k (recSync n x.period (syncFlags s) (syncSteps s)) s)
  else s

/-- Answers a DELAY_REQ with the receive stamp of its period (R400). -/
def delayAnswer (k : Nat) (seqid : BitVec 16) (x : Stamp) (s : State) : State :=
  setSeqid k seqid (txCtrl k (recStamp 0x33 seqid x.time (corrRx s k)) s)

/-- A new receive stamp: it is kept, and answers each DELAY_REQ that names its period. -/
def takeRxStamp (k : Nat) (x : Stamp) (s : State) : State :=
  let l := link s k
  let due := l.reqWait.filter (fun r => r.2 == x.period)
  let s := setLink k { l with rxStamps := keepStamp x l.rxStamps, reqWait := l.reqWait.filter (fun r => r.2 != x.period) } s
  forEach due (fun r s => delayAnswer k r.1 x s) s

/-! ### Software time ports (R407, R408) -/

/-- Entries in a queue of 64 with indices modulo 128. -/
def tqFill (s : State) (pi ci : Nat) : Nat := (rf s pi 6 0 + 128 - rf s ci 6 0) % 128

/-- TSQ_OVF and TRX_OVF read 1 while their queue is full. -/
def tqStatus (q : Nat) (s : State) : State :=
  setRb (Reg.tqStatus q) 1 (tqFill s (Reg.tsqPi q) (Reg.tsqCi q) == 64)
    (setRb (Reg.tqStatus q) 0 (tqFill s (Reg.trxPi q) (Reg.trxCi q) == 64) s)

/-- Puts an entry into the receive ring (`trx`) or the time-stamp queue (R408). -/
def tqPost (q : Nat) (trx : Bool) (e : List Byte) (s : State) : State :=
  let pi := if trx then Reg.trxPi q else Reg.tsqPi q
  let ci := if trx then Reg.trxCi q else Reg.tsqCi q
  let fill := tqFill s pi ci
  if fill = 64 then count1 (if trx then Ctr.trxDrop q else Ctr.tsqDrop q) s
  else
    let i := rf s pi 6 0
    let t := tq s q
    let t := if trx then { t with trx := Tbl.set (zeroBytes 32) t.trx (i % 64) e }
      else { t with tsq := Tbl.set (zeroBytes 32) t.tsq (i % 64) e }
    let s := tqStatus q (setRf pi 6 0 (i + 1) (setTq q t s))
    if fill = 0 then raise (64 * q + 36) s else s

/-- A time record received on an SWMODE link (R407). -/
def swReceive (k code : Nat) (m : TimeMsg) (s : State) : State :=
  let x := if code = 0x30 || code = 0x32 then findStamp m.period (link s k).rxStamps else none
  let tail := match x with
    | some x => leBytes 2 (k + 0x8000) ++ leBytes 2 (x.time.toNat % 65536) ++ leBytes 8 (x.time.toNat / 65536)
    | none => leBytes 2 k ++ zeroBytes 10
  tqPost (linkQuad k) true (padTo 32 (timeRecord m code ++ tail)) s

/-- A hardware or software link takes a time record; links that are not UP take none (R407, R513). -/
def timeRx (k code : Nat) (m : TimeMsg) (f : State → State) (s : State) : State :=
  if !linkUp s k then s else if tpSw s k then swReceive k code m s else f s

/-- SYNC_RX (R400, R406). -/
def syncRx (k : Nat) (m : TimeMsg) (s : State) : State :=
  timeRx k 0x30 m (fun s =>
    if !tpSlave s k then s
    else
      let valid := m.flags.toNat % 2 == 1
      let next := nextPeriod s k
      let t2 := if (link s k).gap.isNone then findStamp m.period (link s k).rxStamps else none
      let e : Exch := ⟨m.seqid, valid, m.steps.toNat, m.period, t2, none, 0, next⟩
      let s := txCtrl k (recDelayReq m.seqid next) (setSeqid k m.seqid (setLink k { link s k with exch := some e } s))
      if k = servoSrc s then
        let s := setRf Reg.timeStatus 23 16 (if timeGm s then 0 else min 255 (m.steps.toNat + 1)) s
        if valid then s else enterHoldover s
      else s) s

/-- SYNC_RX. -/
def execSyncRx (k : LinkIx) (m : TimeMsg) (s : State) : Host.Outcome State Fault Refusal := .next (syncRx k m s)

/-- FOLLOW_UP_RX: t1 and the master's CORR (R401). -/
def execFollowUpRx (k : LinkIx) (m : TimeMsg) (s : State) : Host.Outcome State Fault Refusal :=
  .next (timeRx k 0x31 m (fun s =>
    match (link s k).exch with
    | some e => if tpSlave s k && e.seqid == m.seqid then
        setLink k { link s k with exch := some { e with t1 := some m.stamp, corrF := m.corr.toInt } } s else s
    | none => s) s)

/-- DELAY_REQ_RX: a master answers once it has the stamp of the named period (R400). -/
def execDelayReqRx (k : LinkIx) (m : TimeMsg) (s : State) : Host.Outcome State Fault Refusal :=
  .next (timeRx k 0x32 m (fun s =>
    if !tpMaster s k then s
    else match findStamp m.period (link s k).rxStamps with
      | some x => delayAnswer k m.seqid x s
      | none => setLink k { link s k with reqWait := (link s k).reqWait ++ [(m.seqid, m.period)] } s) s)

/-- The four stamps of an exchange give theta and mpd, in 1/65,536 tick (R401). -/
def exchange (t1 t2 t3 t4 : BitVec 80) (corrF corrD crx ctx : Int) : Int × Int :=
  let dms := (t2 - t1).toInt - corrF * 256 - crx * 256
  let dsm := (t4 - t3).toInt - corrD * 256 - ctx * 256
  ((dms - dsm) / 2, (dms + dsm) / 2)

/-- The lane position of R398 did not change in either direction since the stamps were taken. -/
def lanesHeld (s : State) (k : Nat) (t2 t3 : Stamp) : Bool :=
  mapLowest (link s k).rxMap == some t2.lane && mapLowest (txMap s k) == some t3.lane

/-- The exchange in progress on link k has lost its receive stamp to an LP_GAP and cannot be valid (R410, log entry 58). -/
def gapExch (k : Nat) (s : State) : State :=
  setLink k { link s k with exch := (link s k).exch.map (fun e => { e with t2 := none }) } s

/-- A valid exchange (R401 to R404). -/
def exchangeDone (k : Nat) (seqid : BitVec 16) (theta mpd : Int) (l2 : Nat) (s : State) : State :=
  let m := (mpd / 256).toNat
  let s := setReg (tpCfg k + 0xC) (BitVec.ofNat 32 (2 * m)) s
  let s := setReg (tpCfg k + 0x14) (BitVec.ofNat 32 m) (setReg (tpCfg k + 0x10) (sat32 (theta / 256)) s)
  let s := setSeqid k seqid (setRb (tpCfg k + 8) 31 true s)
  let s := setLink k { link s k with rttValid := true, exchAge := 0, exch := none } s
  let s := count1 Ctr.exchanges (txCtrl k (recPath seqid m) s)
  if k = servoSrc s then
    servoUpdate theta l2 (setReg Reg.lastTheta (sat32 (theta / 256)) { s with time := { s.time with age := 0 } })
  else s

/-- DELAY_RESP_RX: forms the exchange, or discards it (R401). -/
def delayRespRx (k : Nat) (m : TimeMsg) (s : State) : State :=
  timeRx k 0x33 m (fun s =>
    if !tpSlave s k then s
    else match (link s k).exch with
      | none => count1 Ctr.exchDiscard s
      | some e =>
        let discard := count1 Ctr.exchDiscard (setLink k { link s k with exch := none } s)
        match e.t1, e.t2, findStamp e.reqPeriod (link s k).txStamps with
        | some t1, some t2, some t3 =>
          let (theta, mpd) := exchange t1 t2.time t3.time m.stamp e.corrF m.corr.toInt (corrRx s k) (corrTx s k)
          let fresh := (findStamp e.syncPeriod (link s k).rxStamps).isSome
          if e.seqid == m.seqid && e.valid && fresh && lanesHeld s k t2 t3 && 0 ≤ mpd && mpd ≤ 2 ^ 36 then
            exchangeDone k m.seqid theta mpd t2.l s
          else discard
        | _, _, _ => discard) s

/-- DELAY_RESP_RX. -/
def execDelayRespRx (k : LinkIx) (m : TimeMsg) (s : State) : Host.Outcome State Fault Refusal :=
  .next (delayRespRx k m s)

/-- PATH_RX: the master sets RTT_EST to 2 × MPD (R402). -/
def execPathRx (k : LinkIx) (m : TimeMsg) (s : State) : Host.Outcome State Fault Refusal :=
  .next (timeRx k 0x34 m (fun s =>
    if tpMaster s k then setReg (tpCfg k + 0xC) (m.mpd + m.mpd) (setLink k { link s k with rttValid := true } s)
    else s) s)

/-! ### Commands of the time block -/

/-- HOLDOVER_TIMEOUT (R406). -/
def execHoldoverTimeout (s : State) : Host.Outcome State Fault Refusal :=
  .next (if holdTicks s < s.time.age.toNat then enterHoldover s else s)

/-- A write of SERVO_SRC: the exchange in progress is discarded, and the servo enters HOLDOVER (R406, R410). -/
def servoSrcWrite (v : Word) (s : State) : State :=
  let s := dropExch (servoSrc s) s
  let s := setRf Reg.timeCfg 9 0 (fld v 9 0) s
  let s := setRf Reg.masterEpid 23 0 (((link s (servoSrc s)).partner.map (·.epid.toNat)).getD 0) s
  enterHoldover s

/-- SERVO_SRC_WRITE. -/
def execServoSrcWrite (v : Word) (s : State) : Host.Outcome State Fault Refusal := .next (servoSrcWrite v s)

/-- A write of SERVO_EN: setting it loads integ with the current RATE (R403). -/
def servoEnWrite (v : Word) (s : State) : State :=
  let was := rb s Reg.timeCfg 30
  let s := setRb Reg.timeCfg 30 (flag v 30) s
  if flag v 30 && !was then { s with time := { s.time with integ := s.time.rate.toInt } } else s

/-- SERVO_EN_WRITE. -/
def execServoEnWrite (v : Word) (s : State) : Host.Outcome State Fault Refusal := .next (servoEnWrite v s)

/-- TIME_READ_LATCH: D, L, OFFSET and RATE on one tick (R393, R394). -/
def timeReadLatch (s : State) : State :=
  let d := devTime s
  let s := setReg64 Reg.timeReadLo Reg.timeReadHi (d / 65536) (setReg Reg.timeReadFrac (BitVec.ofNat 32 (d % 65536)) s)
  let s := setReg64 Reg.localReadLo Reg.localReadHi s.time.l s
  let o := s.time.offset.toNat
  let s := setReg64 Reg.offsetLo Reg.offsetHi (o / 65536) (setReg Reg.offsetFrac (BitVec.ofNat 32 (o % 65536)) s)
  setReg64 Reg.rateLo Reg.rateHi s.time.rate.toNat s

/-- TIME_READ_LATCH. -/
def execTimeReadLatch (s : State) : Host.Outcome State Fault Refusal := .next (timeReadLatch s)

/-- AGE_READ_LATCH (R406). -/
def execAgeReadLatch (s : State) : Host.Outcome State Fault Refusal :=
  .next (setReg64 Reg.lastValidAgeLo Reg.lastValidAgeHi s.time.age.toNat s)

/-- A write of TQ_TX_CTL: ignored and counted while TX_BUSY (R407, R408). -/
def tqTxSend (q : Nat) (v : Word) (s : State) : State :=
  if rb s (Reg.tqStatus q) 2 then count1 (Ctr.txRej q) s
  else
    let r := ((List.range 4).map (fun i => leBytes 4 (reg s (Reg.tqTx q i)).toNat)).flatten
    setRb (Reg.tqStatus q) 2 true (setTq q { tq s q with tx := some (fld v 31 16, flag v 15, fld v 9 0, r) } s)

/-- TQ_TX_SEND. -/
def execTqTxSend (q : Quad) (v : Word) (s : State) : Host.Outcome State Fault Refusal :=
  .next (guardReg (Reg.tqTxCtl q) (tqTxSend q v) s)

/-- A transmit entry of the time-stamp queue (R408); without a stamp STAMPED and the stamp fields are zero. -/
def tqEntry (k id : Nat) (period : BitVec 32) (x : Option Stamp) : List Byte :=
  padTo 32 (leBytes 2 id ++ leBytes 2 (k + 0x8000 * b2n x.isSome) ++ leBytes 4 period.toNat ++
    (match x with
      | some x => leBytes 2 (x.time.toNat % 65536) ++ zeroBytes 6 ++ leBytes 8 (x.time.toNat / 65536)
      | none => []))

/-- TQ_TX_SENT: the record has left; a stamped SYNC or DELAY_REQ names the next period, whose stamp is awaited (R407).  A record
for a link that is not an UP link of this quadrant goes nowhere, and a stamp asked of it is not taken (DESIGN CHOICE, log entry
58). -/
def tqTxSent (q : Nat) (s : State) : State :=
  match (tq s q).tx with
  | none => s
  | some (id, stamp, k, r) =>
    let s := setRb (Reg.tqStatus q) 2 false (setTq q { tq s q with tx := none } s)
    let code := byteAt r 0
    let stamped := stamp && (code == 0x30 || code == 0x32)
    let p := nextPeriod s k
    if linkQuad k ≠ q || !linkUp s k then (if stamped then tqPost q false (tqEntry k id 0 none) s else s)
    else if stamped then
      txCtrl k (putBytes r 3 (leBytes 4 p.toNat)) (setTq q { tq s q with await := (tq s q).await ++ [(k, id, p)] } s)
    else txCtrl k r s

/-- TQ_TX_SENT. -/
def execTqTxSent (q : Quad) (s : State) : Host.Outcome State Fault Refusal := .next (tqTxSent q s)

/-- The stamps awaited of link k that `p` picks by period go to the time-stamp queue. -/
def tqTake (k : Nat) (p : BitVec 32 → Bool) (x : Option Stamp) (s : State) : State :=
  let q := linkQuad k
  let due := (tq s q).await.filter (fun a => a.1 == k && p a.2.2)
  if due.isEmpty then s
  else
    let s := setTq q { tq s q with await := (tq s q).await.filter (fun a => !(a.1 == k && p a.2.2)) } s
    forEach due (fun a s => tqPost q false (tqEntry k a.2.1 a.2.2 x) s) s

/-- The stamps awaited for a period of link k that has just left go to the time-stamp queue (R407). -/
def tqStamps (k : Nat) (x : Stamp) (s : State) : State := tqTake k (· == x.period) (some x) s

/-- Link k has left UP: no stamp awaited of it can be taken (R408). -/
def tqLost (k : Nat) (s : State) : State := tqTake k (fun _ => true) none s

/-- A write of TSQ_CI or TRX_CI: ignored when ahead of PI or more than 64 behind it; one that moves CI back from PI leaves the
queue not empty, which raises its interrupt (R188, R408). -/
def timeQueueCi (q : Nat) (trx : Bool) (v : Word) (s : State) : State :=
  let pi := if trx then Reg.trxPi q else Reg.tsqPi q
  let ci := if trx then Reg.trxCi q else Reg.tsqCi q
  if (rf s pi 6 0 + 128 - fld v 6 0) % 128 ≤ 64 then
    let was := tqFill s pi ci
    let s := tqStatus q (setRf ci 6 0 (fld v 6 0) s)
    if was = 0 && tqFill s pi ci ≠ 0 then raise (64 * q + 36) s else s
  else s

/-- TIME_QUEUE_CI_WRITE. -/
def execTimeQueueCiWrite (q : Quad) (trx : Bool) (v : Word) (s : State) : Host.Outcome State Fault Refusal :=
  .next (guardReg (if trx then Reg.trxCi q else Reg.tsqCi q) (timeQueueCi q trx v) s)

end Sys2Proof.Machine
end

