-- ==== Sys2Proof/Machine/RingOps.lean ====
section
/-!
DEFINITION. Rings and routes: their numbers, their states, alias declarations, and which routes touch a fiber (R78, R81,
R85, R86, R92, R107).
-/
namespace Sys2Proof.Machine

/-! ### Ring states (R81) -/

def RingState.code : RingState → Nat
  | .parked => 0
  | .prebias => 1
  | .search => 2
  | .track => 3
  | .verify => 4
  | .aliasTrim => 5
  | .locked => 6
  | .hold => 7
  | .failed => 8

/-- The ring state of a PE_RING code. -/
def ringStateOf (n : Nat) : RingState :=
  ([.parked, .prebias, .search, .track, .verify, .aliasTrim, .locked, .hold] : List RingState).getD n .failed

/-- The number of a ring: 144p + 18f + 2s + d for an engine's rings, 2304 + 8192q + 8e + n for matrix rings, 35082 + 2s + d for
those of S0. -/
def ringNum : RingRef → Nat
  | .pe p f c d => 144 * p + 18 * f + 2 * c + b2n d
  | .matrix q e n => 2304 + 8192 * q + 8 * e + n
  | .s0 c d => 35082 + 2 * c + b2n d

/-- The number of the modulator or drop ring of slot c of fiber f. -/
def fiberRing (f c : Nat) (drop : Bool) : Nat := 18 * f + 2 * c + b2n drop

/-- Is a ring number that of an engine's ring? -/
def ringOnEngine (r : Nat) : Bool := r < 2304

/-- The number of the modulator or drop ring of slot c of S0. -/
def s0Ring (c : Nat) (drop : Bool) : Nat := 35082 + 2 * c + b2n drop

/-- Is a ring number that of a ring of S0? -/
def ringOnS0 (r : Nat) : Bool := 35082 ≤ r

/-- Fiber of an engine's ring; slot and kind of a modulator or drop ring. -/
def ringFiber (r : Nat) : Nat := r / 18
def ringSlot (r : Nat) : Nat := r % 18 / 2
def ringDrop (r : Nat) : Bool := r % 2 == 1

/-- Quadrant, route entry and output of a matrix ring. -/
def ringQuad (r : Nat) : Nat := if ringOnEngine r then r / 576 else (r - 2304) / 8192
def ringEntry (r : Nat) : Nat := (r - 2304) % 8192 / 8
def ringOut (r : Nat) : Nat := (r - 2304) % 8

/-- PE_RING of an engine's ring. -/
def aRing (r : Nat) : Nat :=
  let f := ringFiber r
  Reg.peRing (f / 32) (f / 8 % 4) (f % 8) (ringSlot r) (r % 2)

/-- The fields of a route entry. -/
structure Route where
  valid : Bool
  tx : Bool
  slot : Nat
  src : Nat
  outs : List (Nat × Nat)
  deriving DecidableEq, Repr

/-- Route entry e of quadrant q: outputs as (tile, WEIGHT). -/
def route (s : State) (q e : Nat) : Route :=
  let w := reg s (Reg.route0 q e)
  let outs := (List.range (fld w 26 24 + 1)).map (fun n =>
    let o := reg s (Reg.routeOut q e (n / 2))
    (fld o (16 * (n % 2) + 12) (16 * (n % 2) + 8), fld o (16 * (n % 2) + 7) (16 * (n % 2))))
  ⟨flag w 31, flag w 30, fld w 19 16, fld w 4 0, outs⟩

/-- The state of a ring. -/
def ringState (s : State) (r : Nat) : RingState :=
  if ringOnEngine r then ringStateOf (rf s (aRing r) 31 28) else (ring s r).state

def ringLocked (s : State) (r : Nat) : Bool := ringState s r == .locked

/-- The active set of a quadrant: 0 set A, 1 set B.  The sets swap at the commit instant (R96) and LP_STATUS.ACTIVE_SET
flips 6 µs later (R99). -/
def activeSet (s : State) (q : Nat) : Nat :=
  if (lp s q).moving then 1 - rf s (Reg.lpStatus q) 30 30 else rf s (Reg.lpStatus q) 30 30

/-- OUT_LOCKED and OUT_HOLD of a route entry follow its rings; OUT_LOCKED reads 0 in the shadow set. -/
def showRoute (q e : Nat) (s : State) : State :=
  let base := 2304 + 8192 * q + 8 * e
  let bits := fun (st : RingState) => ((List.range 8).map (fun n =>
    if (ring s (base + n)).state == st then 2 ^ n else 0)).sum
  let live := e / 512 == activeSet s q
  setRf (Reg.route5 q e) 15 8 (bits .hold) (setRf (Reg.route5 q e) 7 0 (if live then bits .locked else 0) s)

/-- Tile of the fiber onto which a matrix ring puts its light. -/
def matrixTile (s : State) (r : Nat) : Nat := ((route s (ringQuad r) (ringEntry r)).outs.getD (ringOut r) (0, 0)).1

/-- The fiber a ring serves: its own, or that of its output for a matrix ring (R78); 128 for S0. -/
def ringOwner (s : State) (r : Nat) : Nat :=
  if ringOnEngine r then ringFiber r else if ringOnS0 r then 128 else 32 * ringQuad r + matrixTile s r

/-- The photonic engine a ring lies on: a matrix ring lies on the engine of the fiber it feeds (R78, log entry 61). -/
def ringEngine (s : State) (r : Nat) : Nat := ringOwner s r / 8

/-- The kind and index of a ring in a log entry with layout L (R484). -/
def ringKind (r : Nat) : Nat := if !ringOnEngine r && !ringOnS0 r then 2 else if ringDrop r then 1 else 0
def ringIndex (r : Nat) : Nat := if ringOnEngine r then r % 144 else if ringOnS0 r then r - 35082 else ringEntry r

/-- The slot a ring is meant for. -/
def ringTarget (s : State) (r : Nat) : Nat :=
  if ringOnEngine r || ringOnS0 r then ringSlot r else (route s (ringQuad r) (ringEntry r)).slot

/-- An entry about a ring: it names quadrant, engine, fiber, slot and ring, and the link of an engine's ring (R107); one of S0
has the origin of the service die and no link (log entry 61). -/
def ringLog (code cls r cause value : Nat) (s : State) : State :=
  if ringOnS0 r then logEvent 4 code cls 9 0 (dataL 0x3FF 0 (ringTarget s r) cause (ringKind r) (ringIndex r) value) s else
  let f := ringOwner s r
  let k := if ringOnEngine r then slotLink s f (min 7 (ringSlot r)) else 0x3FF
  logEvent (fiberQuad f) code cls 2 (f / 8 % 4)
    (dataL k f (min 0xF (ringTarget s r)) cause (ringKind r) (ringIndex r) value) s

/-- S0_LANES: the slots of S0 whose ring pair is LOCKED. -/
def showS0 (s : State) : State :=
  setRf Reg.hifStatus 8 0 (((List.range 9).filter (fun c =>
    ringLocked s (s0Ring c false) && ringLocked s (s0Ring c true))).map (2 ^ ·)).sum s

/-- Puts a ring in a state; what it has verified holds only until it moves (R82). -/
def putRing (r : Nat) (st : RingState) (s : State) : State :=
  let h := ring s r
  let h := { h with windows := 0, err := none }
  let h := if st == .locked then h else { h with slotOk := false, matched := false }
  if ringOnEngine r then setRf (aRing r) 31 28 st.code (setRing r h s)
  else if ringOnS0 r then showS0 (setRing r { h with state := st } s)
  else showRoute (ringQuad r) (ringEntry r) (setRing r { h with state := st } s)

/-- Puts a ring in a state; every entry to HOLD and every exit from it is logged (R107). -/
def setRing' (r : Nat) (st : RingState) (s : State) : State :=
  let was := ringState s r
  let s := putRing r st s
  if was == .hold && st != .hold then ringLog 0x0107 clsUnit r 0 0 s
  else if was != .hold && st == .hold then ringLog 0x0107 clsUnit r 1 0 s
  else s

/-- THERMAL_SLEW of the engine that serves fiber f. -/
def engineSlew (s : State) (p : Nat) : Bool := rb s (Reg.peTherm (p / 4) (p % 4)) 31

/-- Does the engine a ring lies on slew (R90)? -/
def ringSlewed (s : State) (r : Nat) : Bool := !ringOnS0 r && engineSlew s (ringEngine s r)

/-- MATED of engine p (R504). -/
def mated (s : State) (p : Nat) : Bool := rb s (Reg.peMate (p / 4) (p % 4)) 0

/-! ### The working calibration set (R80, R88, R103) -/

/-- Places of a body (the model's own layout, log entry 13): laser biases by 9p + slot, ADC offsets by 9f + slot, 4 bytes
each, then a record of 64 bytes per ring: nine biases by slot, 1/eta, k_qd, k_pe, k_lead, the two reference temperatures
and PILOT_THRESH. -/
def calLaserAt (p c : Nat) : Nat := 4 * (9 * p + c)
def calAdcAt (f c : Nat) : Nat := 576 + 4 * (9 * f + c)
def calRingAt (r off : Nat) : Nat := 5184 + 64 * r + off

/-- A byte of the working set's body as the warm reset loaded it. -/
def calByte (s : State) (off : Nat) : Byte := s.cal.working.body.getD off (Config.calOpen off)

/-- `n` bytes of the working set's body, as a number. -/
def calNat (s : State) (off n : Nat) : Nat :=
  leNat ((List.range n).map (fun i => Tbl.get (calByte s (off + i)) s.cal.refit (off + i)))

/-- A signed word of the working set's body. -/
def calInt (s : State) (off : Nat) : Int := toSigned 32 (calNat s off 4)

/-- PILOT_THRESH of a ring (R80). -/
def calThresh (s : State) (r : Nat) : Nat := calNat s (calRingAt r 56) 4

/-- `n` places of the working set's body take newly fitted values (R102). -/
def calRefit (off n : Nat) (s : State) : State :=
  let (bs, s) := freeBytes n s
  let put := fun (t : Tbl Byte) (b : Byte × Nat) => Tbl.set (calByte s (off + b.2)) t (off + b.2) b.1
  { s with cal := { s.cal with refit := bs.zipIdx.foldl put s.cal.refit } }

/-- Bias for slot c, heater efficiency and feedforward coefficients of a ring are fitted again. -/
def calRefitRing (r c : Nat) (s : State) : State := calRefit (calRingAt r 36) 20 (calRefit (calRingAt r (4 * c)) 4 s)

/-- Does a place of a body belong to engine p: its lasers, its fibers' offsets, its rings? -/
def calOfEngine (p off : Nat) : Bool :=
  if off < 576 then off / 36 == p else if off < 5184 then (off - 576) / 36 / 8 == p else (off - 5184) / 64 / 144 == p

/-! ### Starting and stopping rings -/

/-- May a ring not run: its engine is out of service, or it puts light onto a fiber whose array is not mated (R464, R504)? -/
def ringDown (s : State) (r : Nat) : Bool :=
  let p := ringEngine s r
  !ringOnS0 r && (unitState s (4 + p) != 4 || (!(ringOnEngine r && ringDrop r) && !mated s p))

/-- Does a matrix ring's output have WEIGHT 0: it receives no light (R93)? -/
def ringUnlit (s : State) (r : Nat) : Bool :=
  !ringOnEngine r && !ringOnS0 r && ((route s (ringQuad r) (ringEntry r)).outs.getD (ringOut r) (0, 0)).2 == 0

/-- Starts to acquire a ring: from PREBIAS, or held while its engine slews (R81, R90). -/
def ringStart (r : Nat) (s : State) : State :=
  if ringState s r == .failed || ringDown s r || ringUnlit s r then s
  else setRing' r (if ringSlewed s r then .hold else .prebias) s

/-- Parks a ring; a FAILED one stays so until it is reset or recalibrated (R81). -/
def parkRing (r : Nat) (s : State) : State := if ringState s r == .failed then s else setRing' r .parked s

/-- A recalibration takes a FAILED ring to PREBIAS (R81). -/
def recalRing (r : Nat) (s : State) : State :=
  if ringState s r == .failed && !ringDown s r then setRing' r (if ringSlewed s r then .hold else .prebias) (setRing r { ring s r with fails := 0 } s)
  else s

/-- A calibration acquires a ring that is not LOCKED, a FAILED one included (R81, R102). -/
def calRing (r : Nat) (s : State) : State :=
  if ringState s r == .failed then recalRing r s else if ringLocked s r then s else ringStart r s

/-- Starts to acquire every modulator ring of fiber f (R57). -/
def startModulators (f : Nat) (s : State) : State := forRange 9 (fun c s => ringStart (fiberRing f c false) s) s

/-- The rings of S0 acquire from PARKED as the boot ROM starts (R412, R450). -/
def startS0 (s : State) : State :=
  forRange 18 (fun i s => ringStart (35082 + i) (setRing (35082 + i) RingSt.init s)) (setRf Reg.hifStatus 8 0 0 s)

/-- Parks every ring of fiber f. -/
def parkFiber (f : Nat) (s : State) : State := forRange 18 (fun i s => parkRing (18 * f + i) s) s

/-- ALIAS_LOCK (R86, R107): the ring is parked by trim and will be stepped toward the expected slot; on an engine that slews
no acquisition starts, and it is held instead (R90). -/
def aliasDeclare (r detected : Nat) (s : State) : State :=
  let s := if ringOnEngine r then
      setRf (aRing r) 22 16 (min 127 (rf s (aRing r) 22 16 + 1)) (setRb (aRing r) 23 true s)
    else s
  let s := ringLog 0x0106 clsCorrected r 0 detected s
  if ringSlewed s r then setRing' r .hold s
  else
    let s := setRing' r .aliasTrim s
    setRing r { ring s r with aliasTo := detected, sweeping := false } s

/-! ### Route sets (R92) -/

/-- The VALID entries of set x of quadrant q, with their numbers, ascending. -/
def routeSet (s : State) (q x : Nat) : List (Nat × Route) :=
  let base := Reg.route0 q (512 * x)
  (s.regs.filter (fun e => base ≤ e.1 && e.1 < base + 0x4000 && e.1 % 32 == 0 && flag e.2 31)).map (fun e =>
    let n := 512 * x + (e.1 - base) / 32
    (n, route s q n))

/-- Does a route touch tile t? -/
def Route.touches (r : Route) (t : Nat) : Bool := r.src == t || r.outs.any (fun o => o.1 == t)

/-- The share of the source light that output n receives, as WEIGHT over the sum of all (R93). -/
def Route.share (r : Route) (n : Nat) : Nat × Nat := ((r.outs.getD n (0, 0)).2, (r.outs.map (·.2)).sum)

/-- The ratio at which the ring of output n drops the light that reaches it: WEIGHT over the sum from n on (R93). -/
def Route.dropRatio (r : Route) (n : Nat) : Nat × Nat := ((r.outs.getD n (0, 0)).2, ((r.outs.drop n).map (·.2)).sum)

/-- Does the pending commit of fiber f's quadrant change a route that touches it (R66)? -/
def commitTouches (s : State) (f : Nat) : Bool :=
  let q := fiberQuad f
  let a := activeSet s q
  let pick := fun x => ((routeSet s q x).map (·.2)).filter (fun r => r.touches (fiberTile f))
  pick a != pick (1 - a)

end Sys2Proof.Machine
end

