-- ==== Sys2Proof/Machine/Fibers.lean ====
section
/-!
DEFINITION. Fibers and links: enabling, training, alignment blocks, dark-slot rotation and hitless swaps, lane loss and
narrowing (R49 to R77, R143, R456 to R458, R518, R519).
-/
namespace Sys2Proof.Machine

/-! ### Who leads, and what a slot is -/

/-- Writes to EN are ignored: bad calibration set (R104) or a DEVICE fault (R490). -/
def enBlocked (s : State) : Bool := rb s Reg.calStatus 31 || rb s Reg.faultStatus 31

/-- The boot fiber of a device that fetches its image from a peer (R456). -/
def isBootFiber (s : State) (f : Nat) : Bool := s.boot.fetch.isSome && rf s Reg.bootCfg 6 0 == f

/-- Does this spine serve boot links on fiber f (R457)? -/
def bootServed (s : State) (f : Nat) : Bool :=
  (List.range 2).any (fun i => rb s (Reg.bootSrv i) 31 && rf s (Reg.bootSrv i) 6 0 == f) &&
    fiberMode s f == modeTerm && fiberWidth s f == 8 && fiberEn s f

/-- A boot link: its partner is a booting device (R457). -/
def isBootLink (s : State) (k : Nat) : Bool := (link s k).partner.any (fun p => p.role == 3)

/-- Does this end lead link k: the spine of a TERM fiber, the lower EPID of a PEER fiber (R57, R74)? -/
def leads (s : State) (k : Nat) : Bool :=
  let f := linkFiber k
  if isPeer s f then
    match (link s k).partner with
    | none => true
    | some p => s.fuses.epid.toNat < p.epid.toNat
  else !isBootFiber s f

/-- The set of one slot. -/
def oneSlot (c : Nat) : BitVec 9 := BitVec.ofNat 9 (2 ^ c)

/-- Is the drop ring of slot c of fiber f LOCKED? -/
def dropLocked (s : State) (f c : Nat) : Bool := ringLocked s (fiberRing f c true)

/-- Slots of link k whose drop rings are LOCKED, ascending (R57 LOCK). -/
def lockedSlots (s : State) (k : Nat) : List Nat := (linkSlots s k).filter (dropLocked s (linkFiber k))

/-- The set of a list of slots. -/
def slotSet (cs : List Nat) : BitVec 9 := cs.foldl (fun m c => m ||| oneSlot c) 0

/-- Number of slots of a set. -/
def slotCount (m : BitVec 9) : Nat := ((List.range 9).filter m.getLsbD).length

/-- The slot of each lane position of link k when it enters UP, FAILED slots passed over at ×8 (R59, R72). -/
def ownSlots (s : State) (k : Nat) : List Nat :=
  let f := linkFiber k
  if fiberWidth s f == 8 then
    let good := (List.range 9).filter (fun c => !slotFailed s f c)
    if good.length < 9 && rb s (Reg.ftCfg (fiberQuad f) (fiberTile f)) 2 then good.take 7 else good.take 8
  else linkSlots s k

/-- The ×8 dark slot at the start of training (R59), 15 where there is none (R72). -/
def firstDark (s : State) (f : Nat) : Nat :=
  let good := (List.range 9).filter (fun c => !slotFailed s f c)
  if fiberWidth s f < 8 then (if slotFailed s f 8 then 15 else 8)
  else if good.length < 9 && rb s (Reg.ftCfg (fiberQuad f) (fiberTile f)) 2 then good.getD 7 15
  else good.getD 8 15

/-- ROT_STALL; setting it is logged with the slot that brings it, and raises the tile's interrupt (R72, R77). -/
def setStall (f slot : Nat) (s : State) : State :=
  if rb s (aStatus f) 24 then s
  else tileLog 0x0105 clsUnit (8 * f) f slot 0 0xFF 0 0 (setRb (aStatus f) 24 true s)

def setDark (f c : Nat) (s : State) : State := setRf (aStatus f) 31 28 c s
def calReady (s : State) (f : Nat) : Bool := rb s (aStatus f) 27
def setCalReady (f : Nat) (v : Bool) (s : State) : State := setRb (aStatus f) 27 v s
/-- W8_LENT and W8_LINK of fiber f. -/
def lent (s : State) (f : Nat) : Bool := rb s (aStatus f) 23
def lentLink (s : State) (f : Nat) : Nat := 8 * f + rf s (aStatus f) 22 20 * fiberWidth s f

/-- Lends W8 to link k, or withdraws it (R56, R65). -/
def lendW8 (k : Nat) (on : Bool) (s : State) : State :=
  let f := linkFiber k
  let s := setRf (aStatus f) 22 20 (if on then k % 8 / fiberWidth s f else 0) (setRb (aStatus f) 23 on s)
  txCtrl k (recLend on) s

/-! ### Calibration of slots (R62, R71, R90) -/

/-- LC_CAL to the partner, from the end that leads (R61, R74).  Which leaf is asked for W8 below ×8 while W8 is lent to none
the spec does not say: here it is that of the link that owns W7 (DESIGN CHOICE, log entry 58). -/
def calAsk (f c : Nat) (on : Bool) (s : State) : State :=
  let k := if c = 8 && fiberWidth s f < 8 && lent s f then lentLink s f else slotLink s f (min 7 c)
  if leads s k then txCtrl k (recCal c on) s else s

/-- Calibration of slot c begins: its rings are acquired where they are not LOCKED (R82, R102). -/
def calBegin (f c : Nat) (rest : List Nat) (s : State) : State :=
  let s := setFiber f { fiber s f with calSlot := some c, calNext := rest } s
  let s := setSlotState f c 2 (if darkSlot s f = c then setCalReady f false s else s)
  calAsk f c true (calRing (fiberRing f c true) (calRing (fiberRing f c false) s))

/-- Starts the next calibration of fiber f: a lost slot first, then the dark slot; none while its engine slews (R71, R90).
The dark slot is calibrated until it is ready, again where a hold found it ready (R66), and where it is a lost slot also
under ROT_STALL (R71). -/
def startCal (f : Nat) (s : State) : State :=
  let h := fiber s f
  let d := darkSlot s f
  if h.calSlot.isSome || !fiberEn s f || engineSlew s (f / 8) then s
  else
    match h.calNext with
    | c :: cs => calBegin f c cs s
    | [] =>
      let due := !calReady s f || (h.heldReady && !rb s (aStatus f) 25)
      if d ≠ 15 && h.swap.isNone && (h.lost.any (·.1 == d) || (due && !rb s (aStatus f) 24)) then calBegin f d [] s else s

/-! ### Rotation hold and abandoned swaps (R64, R66, R67) -/

/-- Any condition of R66. -/
def rotHeld (s : State) (f : Nat) : Bool :=
  !fiberEn s f || (List.range 9).any (fun c => slotState s f c == 3) || (fiberLinks s f).any (fun k => !linkUp s k) ||
    (rb s (Reg.lpStatus (fiberQuad f)) 31 && commitTouches s f) ||
    (fiber s f).lastCommit.any (fun t => s.time.l < t + 80000)

/-- The swap in progress ends without a change of map (R64): SWAP_BUSY clears and ROT_ABORT is counted. -/
def dropSwap (f : Nat) (s : State) : State :=
  match (fiber s f).swap with
  | none => s
  | some w =>
    let s := setFiber f { fiber s f with swap := none } s
    let s := count1 (Ctr.rotAbort (fiberQuad f) (fiberTile f)) (setRb (aStatus f) 26 false s)
    if lent s f && w.dst == 8 && fiberWidth s f < 8 then lendW8 w.link false s else s

/-- Has a swap reached step 4 in one of its directions (R67)? -/
def Swap.switched (w : Swap) : Bool := w.txReady || w.rxReady

/-- Abandons a swap that has not reached step 4: the map stays and the dark slot is recalibrated (R64, R67). -/
def abandonSwap (f : Nat) (s : State) : State :=
  match (fiber s f).swap with
  | none => s
  | some w => if 2 ≤ w.step && w.switched then s else startCal f (setCalReady f false (dropSwap f s))

/-- ROT_HOLD follows R66; a swap below step 4 is abandoned when a hold arises (R67), and where the hold finds the dark slot
ready, rotation resumes with the next completed calibration, which starts as the hold ends. -/
def showHold (f : Nat) (s : State) : State :=
  let hold := rotHeld s f
  let was := rb s (aStatus f) 25
  let s := setRb (aStatus f) 25 hold s
  if hold then
    let s := if calReady s f && !(fiber s f).heldReady then setFiber f { fiber s f with heldReady := true } s else s
    abandonSwap f s
  else if was && (fiber s f).heldReady then startCal f s
  else s

/-! ### Leaving UP, and training again (R57, R70, R163) -/

/-- Packets whose flits a link's transmitter still holds: each HEAD, and the rest of one whose HEAD has been acknowledged. -/
def inFlight (l : LinkSt) : Nat :=
  let fs := ((l.replay.map (·.flits)).flatten ++ l.txWait).filter (fun x => x.kind == .head || x.kind == .body)
  (fs.filter (fun x => x.kind == .head)).length + b2n (fs.head?.any (fun x => x.kind == .body))

/-- The flits in flight of a link whose EN is cleared are dropped, and their packets counted as packet-class errors (R75). -/
def dropInFlight (k : Nat) (s : State) : State :=
  let n := inFlight (link s k)
  if n = 0 then s
  else
    let s := count (Ctr.downDrop (linkQuad k)) n s
    logEvent (linkQuad k) 0x0302 clsPacket 1 (linkTile k) (dataL k (linkFiber k) 0xF 0 0xFF 0 n) s

/-- A link leaves its state for `st`: a link that was UP drops its link layer and what waits in the core (R120, R163). -/
def linkLeave (k : Nat) (st : LinkState) (s : State) : State :=
  let was := linkUp s k
  let s := setLinkState k st s
  let s := setLink k { link s k with trained := 0, aligned := 0, skewed := 0, w8Tx := false, calTx := 0 } s
  let s := setRb (aLink k) 22 false s
  if was then
    let s := truncateRx k s
    let s := forRange 4 (fun q s => leaveVoqs q k s) s
    let s := if st == .disabled then dropInFlight k s else s
    let s := linkLayerDown k (uncommitLink k s)
    let s := setMap k 0xFFFFFFFF (setLink k { link s k with rxMap := 0xFFFFFFFF } s)
    holdoverOn k (tqLost k s)
  else s

/-- At ×8 the fiber's one link starts again: W8 is the dark slot, and no swap, calibration or lost slot is left (R59). -/
def lightWide (f : Nat) (s : State) : State :=
  let s := setCalReady f false (setDark f (firstDark s f) (setRb (aStatus f) 26 false s))
  let h := fiber s f
  startCal f (setFiber f { h with swap := none, calSlot := none, calNext := [], lost := [], periodDue := false, heldReady := false } s)

/-- Below ×8 a loan to the link ends: W8 carries the calibration pattern and is the dark slot again, and rotation goes on
with the next data slot (R59, R65). -/
def lightLoan (k : Nat) (s : State) : State :=
  let f := linkFiber k
  if lent s f && lentLink s f == k then
    let h := fiber s f
    let dead := slotFailed s f 8
    let s := setRb (aStatus f) 26 false (setRf (aStatus f) 23 20 0 s)
    let s := setSlotState f 8 (if dead then 0 else 2) (setCalReady f false (setDark f (if dead then 15 else 8) s))
    setFiber f { h with swap := none, rotStep := (h.rotStep + h.rotStep % 2) % 16 } s
  else s

/-- The slots of a link in LIGHT carry the calibration pattern; W8 is the dark slot and is lent to no link (R57, R59). -/
def lightSlots (k : Nat) (s : State) : State :=
  let f := linkFiber k
  let s := forEach (linkSlots s k) (fun c s => setSlotState f c (if slotFailed s f c then 0 else 2) s) s
  if fiberWidth s f == 8 then lightWide f s
  else
    let s := lightLoan k s
    let h := fiber s f
    let mine := fun c => (linkSlots s k).contains c
    startCal f (setFiber f { h with lost := h.lost.filter (fun e => e.2.1 != k), calNext := h.calNext.filter (fun c => !mine c),
                                    calSlot := h.calSlot.filter (fun c => !mine c) } s)

/-- A link returns to LIGHT (R57, R70). -/
def toLight (k : Nat) (s : State) : State :=
  let s := showHold (linkFiber k) (linkLeave k .light s)
  lightSlots k s

/-- A training that timed out or was refused: TRAIN_FAIL, LIGHT and the 1 ms back-off (R57, R58, R143). -/
def trainFail (k : Nat) (s : State) : State :=
  let s := toLight k (count1 (Ctr.trainFail (linkQuad k) (linkTile k)) s)
  setLink k { link s k with backoff := true } s

/-! ### Entering UP (R59, R115, R135, R143) -/

/-- The check of R58, with the boot links of R456 and R457. -/
def partnerOk (s : State) (k : Nat) (p : PartnerId) : Bool :=
  let f := linkFiber k
  p.width.toNat == fiberWidthCode s f && p.version == 1 &&
    (if isPeer s f then p.role == 2
     else if p.role == 3 then bootServed s f
     else if p.role == 0 then true
     else p.role == 1 && isBootFiber s f)

/-- At least MIN_LANES slots verified: a link in LOCK enters TRAIN (R57). -/
def lockCheck (k : Nat) (s : State) : State :=
  if linkIs s k .lock && minLanes s (linkFiber k) ≤ (lockedSlots s k).length then setLinkState k .train s else s

/-! ### Enabling and disabling (R57, R75, R101) -/

/-- The matrix rings of the active set that touch fiber f. -/
def fiberRoutes (s : State) (f : Nat) : List Nat :=
  let q := fiberQuad f
  ((routeSet s q (activeSet s q)).map (fun e =>
    (e.2.outs.zipIdx.filter (fun o => o.1.1 == fiberTile f || e.2.src == fiberTile f)).map
      (fun o => 2304 + 8192 * q + 8 * e.1 + o.2))).flatten

/-- Acquires, or parks, the matrix rings of active routes to fiber f (R101). -/
def startRoutes (f : Nat) (s : State) : State :=
  forEach (fiberRoutes s f) (fun r s => if (ring s r).excluded then s else ringStart r s) s

def parkRoutes (f : Nat) (s : State) : State := forEach (fiberRoutes s f) parkRing s

/-- EN goes from 0 to 1 (R57, R59): links of a TERM or PEER fiber enter LIGHT. -/
def fiberStart (f : Nat) (s : State) : State :=
  let s := setRb (Reg.ftCfg (fiberQuad f) (fiberTile f)) 31 true s
  let h := fiber s f
  let s := setFiber f { FiberSt.init with period := h.period, boundary := h.boundary, lastCommit := h.lastCommit, fails := h.fails } s
  let s := startRoutes f s
  if isTerminated s f then
    let s := setRf (aStatus f) 27 20 0 (setDark f (firstDark s f) s)
    let s := forRange 9 (fun c s => setSlotState f c (if slotFailed s f c then 0 else 2) s) s
    let s := forEach (fiberLinks s f) (fun k s => setLinkState k .light s) s
    let s := if (List.range 9).any (slotFailed s f) && (fiberWidth s f < 8 || darkSlot s f == 15) then
        setStall f (((List.range 9).find? (slotFailed s f)).getD 0xF) s else s
    showHold f (startCal f (startModulators f s))
  else s

/-- EN goes from 1 to 0: every link to DISABLED, lasers off and rings parked (R57, R75).  ROT_HOLD reads 1 from then on, as
R66 has it for EN = 0, while it reads 0 from reset, as its field table has it; DARK_SLOT reads 0xF, though the field table
gives that only for a fiber not in TERM or PEER (DESIGN CHOICE, log entry 58). -/
def fiberStop (f : Nat) (s : State) : State :=
  let s := setRb (Reg.ftCfg (fiberQuad f) (fiberTile f)) 31 false s
  let s := forRange 8 (fun i s => if linkIs s (8 * f + i) .disabled then s
    else setLink (8 * f + i) { link s (8 * f + i) with backoff := false }
      (setRf (aLink (8 * f + i)) 23 22 0 (linkLeave (8 * f + i) .disabled s))) s
  let h := fiber s f
  let s := setFiber f { FiberSt.init with period := h.period, boundary := h.boundary, lastCommit := h.lastCommit, fails := h.fails } s
  let s := forRange 9 (fun c s => setSlotState f c 0 s) (parkRoutes f (parkFiber f s))
  setRb (aStatus f) 25 true (setRf (aStatus f) 27 20 0 (setDark f 15 s))

/-- Fibers set to PEER other than f. -/
def peerCount (s : State) (f : Nat) : Nat := ((List.range 128).filter (fun g => g != f && isPeer s g)).length

/-- MODE and WIDTH a write of FT_CFG leaves (R35, R36, R53, R75). -/
def modeWidth (s : State) (f : Nat) (v : Word) : Nat × Nat :=
  let m := fiberMode s f
  let w := fiberWidthCode s f
  if fiberEn s f then (m, w)
  else
    let m' := fld v 27 26
    let m' := if m' == modePeer && m != modePeer && (!fused s || 8 ≤ peerCount s f) then m else m'
    let w' := fld v 25 24
    if m' == modePeer && w' != 0 then (m, w) else (m', w')

/-- A write of FT_CFG (R35, R36, R53, R75, R104, R490). -/
def ftCfgWrite (f : Nat) (v : Word) (s : State) : State :=
  let a := Reg.ftCfg (fiberQuad f) (fiberTile f)
  let (m, w) := modeWidth s f v
  let was := fiberEn s f
  let s := setRf a 23 20 (fld v 23 20) (setRf a 2 1 (fld v 2 1) s)
  let s := setRf a 27 26 m (setRf a 25 24 w s)
  if flag v 31 && !was then (if enBlocked s || unitState s (36 + f) ≠ 4 then s else fiberStart f s)
  else if !flag v 31 && was then (if enBlocked s then s else fiberStop f s)
  else s

/-- A write of FT_CFG under its gate. -/
def ftCfgAccess (f : Nat) (v : Word) (s : State) : State :=
  guardReg (Reg.ftCfg (fiberQuad f) (fiberTile f)) (ftCfgWrite f v) s

/-- FIBER_ENABLE. -/
def execFiberEnable (f : FiberIx) (s : State) : Host.Outcome State Fault Refusal :=
  .next (ftCfgAccess f (setFld (ftCfg s f) 31 31 1) s)

/-- FIBER_DISABLE. -/
def execFiberDisable (f : FiberIx) (s : State) : Host.Outcome State Fault Refusal :=
  .next (ftCfgAccess f (setFld (ftCfg s f) 31 31 0) s)

/-- FIBER_MODE_WRITE: a write of FT_CFG that leaves EN as it is. -/
def execFiberModeWrite (f : FiberIx) (v : Word) (s : State) : Host.Outcome State Fault Refusal :=
  .next (ftCfgAccess f (setFld v 31 31 (b2n (fiberEn s f))) s)

/-! ### Training (R57) -/

/-- Runs `f` on link k of a fiber that terminates it and whose quadrant runs. -/
def onLink (k : Nat) (f : State → State) (s : State) : State :=
  if fiberEn s (linkFiber k) && isTerminated s (linkFiber k) && linkActive s k && !quadShut s (linkQuad k) then f s else s

/-- LINK_LIGHT_DETECTED: LIGHT to LOCK; the receive rings of the link start to acquire. -/
def linkLight (k : Nat) (s : State) : State :=
  if linkIs s k .light && !(link s k).backoff then
    let s := forEach (linkSlots s k) (fun c s =>
      if dropLocked s (linkFiber k) c then s else ringStart (fiberRing (linkFiber k) c true) s) (setLinkState k .lock s)
    lockCheck k s
  else s

/-- LINK_LIGHT_DETECTED. -/
def execLinkLightDetected (k : LinkIx) (s : State) : Host.Outcome State Fault Refusal := .next (onLink k (linkLight k) s)

/-- LINK_TRAIN_DONE: TRAIN to ALIGN with the lanes whose rings are LOCKED. -/
def execLinkTrainDone (k : LinkIx) (s : State) : Host.Outcome State Fault Refusal :=
  .next (onLink k (fun s =>
    let cs := (lockedSlots s k).filter (ownSlots s k).contains
    if linkIs s k .train && minLanes s (linkFiber k) ≤ cs.length then
      setLinkState k .align (setLink k { link s k with trained := slotSet cs, aligned := 0 } s)
    else s) s)

/-- TRAIN_STATE_TIMEOUT: LOCK, TRAIN, ALIGN and PARTNER have limits (R57). -/
def execTrainStateTimeout (k : LinkIx) (s : State) : Host.Outcome State Fault Refusal :=
  .next (onLink k (fun s => if 2 ≤ linkState s k && linkState s k ≤ 5 then trainFail k s else s) s)

/-- TRAIN_BACKOFF_EXPIRY. -/
def execTrainBackoffExpiry (k : LinkIx) (s : State) : Host.Outcome State Fault Refusal :=
  .next (setLink k { link s k with backoff := false } s)

/-! ### Hitless swaps (R62 to R65) -/

/-- The slot whose lane moves onto dark slot d at ×8: the next one that carries a lane (R62, R72). -/
def nextSource (m : Word) (d : Nat) : Option Nat :=
  ((List.range 8).map (fun i => (d + 1 + i) % 9)).find? (fun c => (mapPos m c).isSome)

/-- The link, source and destination of the next swap (R62, R65). -/
def swapPlan (s : State) (f : Nat) : Option (Nat × Nat × Nat) :=
  if fiberWidth s f == 8 then
    (nextSource (txMap s (8 * f)) (darkSlot s f)).map (fun c => (8 * f, c, darkSlot s f))
  else
    let n := (fiber s f).rotStep
    let k := slotLink s f (n / 2)
    let (src, dst) := if n % 2 == 0 then (n / 2, 8) else (8, n / 2)
    if (mapPos (txMap s k) src).isSome then some (k, src, dst) else none

/-- Starts a swap: step 1 (R63).  Below ×8, a step whose lane is not active is passed over. -/
def startSwap (f : Nat) (s : State) : State :=
  match swapPlan s f with
  | none =>
    if fiberWidth s f < 8 then
      let n := (fiber s f).rotStep
      let s := setCalReady f false s
      startCal f (setFiber f { fiber s f with rotStep := (n + 2 - n % 2) % 16, periodDue := false } s)
    else s
  | some (k, src, dst) =>
    let s := if fiberWidth s f < 8 && dst == 8 then lendW8 k true s else s
    let rx := mapPos (link s k).rxMap src
    let w : Swap := ⟨k, (mapPos (txMap s k) src).getD 0, src, dst, 1, false, rx.isNone⟩
    let s := setFiber f { fiber s f with swap := some w, periodDue := false } s
    txCtrl k (recDup (rx.getD w.pos) dst (nextPeriod s k).toNat) s

/-- May a swap start on fiber f (R62, R66, R72)? -/
def swapReady (s : State) (f : Nat) : Bool :=
  calReady s f && rb s (Reg.ftCfg (fiberQuad f) (fiberTile f)) 1 && !rotHeld s f && !rb s (aStatus f) 24 &&
    !(fiber s f).heldReady && (fiber s f).swap.isNone && darkSlot s f != 15 && (fiberLinks s f).all (leads s)

/-- Do ROT_SYNC's fibers swap together: is fiber f a ×8 TERM fiber of a quadrant with ROT_SYNC (R94)? -/
def rotSync (s : State) (f : Nat) : Bool :=
  rb s (Reg.lpCfg (fiberQuad f)) 0 && fiberEn s f && fiberMode s f == modeTerm && fiberWidth s f == 8 &&
    rb s (Reg.ftCfg (fiberQuad f) (fiberTile f)) 1

/-- All ×8 TERM fibers of the quadrant that rotate show CAL_READY with their periods ended. -/
def syncDue (s : State) (q : Nat) : Bool :=
  (((List.range 32).map (32 * q + ·)).filter (rotSync s)).all (fun f => calReady s f && (fiber s f).periodDue)

/-- The dark slot is calibrated and its period has ended: the swap starts, unless it waits for ROT_SYNC. -/
def trySwap (f : Nat) (s : State) : State :=
  if (fiber s f).periodDue && swapReady s f && !rotSync s f then startSwap f s else s

/-- The swap of fiber f after one direction has reached step 4: the dark slot is used (R63). -/
def swapReached (f : Nat) (w : Swap) (s : State) : State :=
  let w := if w.txReady && w.rxReady then { w with step := 4 } else w
  setCalReady f false (setSlotState f w.dst 1 (setFiber f { fiber s f with swap := some w } s))

/-- Step 4 downstream, on LC_READY: the switch row with the new map (R63). -/
def swapTx (f : Nat) (w : Swap) (s : State) : State :=
  switchRowTx w.link (mapSet (txMap s w.link) w.pos w.dst) 0 (swapReached f { w with txReady := true } s)

/-- Step 4 upstream, once this end has verified the duplicate: LC_READY, and LC_SWITCH for the partner's switch row (R63). -/
def swapRx (f : Nat) (w : Swap) (s : State) : State :=
  let s := swapReached f { w with rxReady := true } s
  let l := link s w.link
  match mapPos l.rxMap w.src with
  | none => s
  | some p => txCtrl w.link (recSwitch (l.switchRx + 1).toNat (mapSet l.rxMap p w.dst)) (txCtrl w.link (recReady p w.dst) s)

/-- SWAP_VERIFY_TIMEOUT: a direction has not verified by the end of step 3, and the swap is abandoned (R64).  A direction
that had switched goes back to its old slot, which still carries the lane (log entry 26). -/
def swapTimeout (f : Nat) (s : State) : State :=
  match (fiber s f).swap with
  | none => s
  | some w =>
    if w.txReady && w.rxReady then s
    else
      let s := if w.txReady then switchRowTx w.link (mapSet (txMap s w.link) w.pos w.src) 0 s else s
      let l := link s w.link
      let s := match mapPos l.rxMap w.dst with
        | some p => txCtrl w.link (recSwitch (l.switchRx + 1).toNat (mapSet l.rxMap p w.src)) s
        | none => s
      startCal f (setCalReady f false (setSlotState f w.dst 2 (dropSwap f s)))

/-- Step 5: the old slot is dark and carries the calibration pattern (R63, R65). -/
def swapEnd (f : Nat) (w : Swap) (s : State) : State :=
  let h := fiber s f
  let s := setFiber f { h with swap := none, rotStep := if fiberWidth s f < 8 then (h.rotStep + 1) % 16 else h.rotStep } s
  let s := setRb (aStatus f) 26 false (setCalReady f false (setDark f w.src (setSlotState f w.src 2 s)))
  let s := count1 (Ctr.swaps (fiberQuad f) (fiberTile f)) (calAsk f w.dst false s)
  let s := if fiberWidth s f < 8 && w.src == 8 then lendW8 w.link false s else s
  startCal f s

/-- What a period boundary does to a swap in progress (R63): step 2, and step 5 once both directions have switched. -/
def swapBoundary (f : Nat) (s : State) : State :=
  match (fiber s f).swap with
  | none => s
  | some w =>
    if w.step == 1 then
      setRb (aStatus f) 26 true (setFiber f { fiber s f with swap := some { w with step := 2 } } s)
    else if w.txReady && w.rxReady && (mapPos (link s w.link).rxMap w.src).isNone then swapEnd f w s
    else s

/-- The two slots that carry a duplicated lane, with its position, in the blocks of this period (R50, R63). -/
def dupSlots (s : State) (f : Nat) : Option (Nat × Nat × Nat) :=
  match (fiber s f).swap with
  | some w => if 2 ≤ w.step then some (w.src, w.dst, w.pos) else none
  | none => (fiberLinks s f).findSome? (fun k => (link s k).dup.bind (fun d =>
      if d.2.2 ≤ (fiber s f).period.toNat then some (mapSlot (txMap s k) d.1, d.2.1, d.1) else none))

/-- The alignment block that fiber f sends on slot c (R50, R456). -/
def sentBlock (s : State) (f c : Nat) : AlignBlock where
  slotByte := slotByteOf c
  lane := BitVec.ofNat 3 (match dupSlots s f with
    | some (a, b, p) => if c == a || c == b then p else lanePos
    | none => lanePos)
  width := BitVec.ofNat 2 (fiberWidthCode s f)
  cal := slotState s f c == 2
  dup := (dupSlots s f).any (fun d => c == d.1 || c == d.2.1)
  fiber := BitVec.ofNat 7 f
  role := if isBootFiber s f then 3 else if isPeer s f then 2 else 1
  version := 1
  period := (fiber s f).period
  epid := if isBootFiber s f then 0xFFFFFF else s.fuses.epid
where
  /-- The position of the lane that slot c carries, 0 where it carries none. -/
  lanePos : Nat := ((fiberLinks s f).findSome? (fun k => mapPos (txMap s k) c)).getD 0

/-- The slots on which fiber f sends light: their modulator rings are LOCKED, and no other modulator feeds the fiber (R82,
R90, R92). -/
def litSlots (s : State) (f : Nat) : List Nat :=
  if txMuted s (8 * f) then [] else (List.range 9).filter (fun c => ringLocked s (fiberRing f c false))

/-- The next period boundary of fiber f: a multiple of 20,800 ticks of L, after its latest one (R95). -/
def nextBoundary (s : State) (f : Nat) : Nat :=
  let b := (s.time.l + (Config.ticksPerPeriod - 1)) / Config.ticksPerPeriod * Config.ticksPerPeriod
  match (fiber s f).boundary with
  | some x => if b ≤ x then x + Config.ticksPerPeriod else b
  | none => b

/-- Fiber f comes to its next boundary: L stands there (log entry 17), and PERIOD counts the periods passed (R50, R95). -/
def toBoundary (f : Nat) (s : State) : State :=
  let b := nextBoundary s f
  let h := fiber s f
  let n := match h.boundary with
    | some x => (b - x) / Config.ticksPerPeriod
    | none => 1
  let s := { s with time := { s.time with l := max s.time.l b } }
  setFiber f { h with period := h.period + BitVec.ofNat 32 n, boundary := some b } s

/-- ALIGN_PERIOD_TX: the alignment blocks leave on every lit slot; stamps, SYNC and swaps follow, and flits that a commit held
back resume (R49, R63, R99, R398, R400). -/
def alignPeriodTx (f : Nat) (s : State) : State :=
  let s := swapBoundary f (toBoundary f s)
  let p := (fiber s f).period
  let s := emit (.alignBlocks f ((litSlots s f).map (sentBlock s f))) s
  let s := forEach ((fiberLinks s f).filter (linkUp s)) (fun k s =>
    let x : Stamp := ⟨p, BitVec.ofNat 80 (devTime s), s.time.l, (mapLowest (txMap s k)).getD 15⟩
    let s := setLink k { link s k with txStamps := keepStamp x (link s k).txStamps } s
    let s := tqStamps k x (syncTx k x s)
    if (link s k).quiet then resumeTx k (setLink k { link s k with quiet := false } s) else s) s
  let s := if rotSync s f && syncDue s (fiberQuad f) then
      forRange 32 (fun t s => let g := 32 * fiberQuad f + t
        if rotSync s g && swapReady s g then startSwap g s else s) s
    else s
  showHold f s

/-- ALIGN_PERIOD_TX. -/
def execAlignPeriodTx (f : FiberIx) (s : State) : Host.Outcome State Fault Refusal :=
  .next (if fiberEn s f && isTerminated s f && !quadShut s (fiberQuad f) then alignPeriodTx f s else s)

/-- DARK_PERIOD_EXPIRY (R76): CAL_LATE counts a calibration that overran. -/
def execDarkPeriodExpiry (f : FiberIx) (s : State) : Host.Outcome State Fault Refusal :=
  .next (if fiberEn s f && isTerminated s f && darkSlot s f != 15 && !quadShut s (fiberQuad f) then
    let s := if calReady s f then s else count1 (Ctr.calLate (fiberQuad f) (fiberTile f)) s
    trySwap f (setFiber f { fiber s f with periodDue := true } s)
  else s)

/-- SWAP_VERIFY_TIMEOUT. -/
def execSwapVerifyTimeout (f : FiberIx) (s : State) : Host.Outcome State Fault Refusal := .next (swapTimeout f s)

/-! ### Lane loss and return (R59, R68 to R72, R518, R519) -/

/-- The slots this end can receive on link k, for LC_MASK (R60). -/
def rxMask (s : State) (k : Nat) : BitVec 9 :=
  let f := linkFiber k
  let lost := (fiber s f).lost.map (·.1)
  slotSet ((linkSlots s k ++ [8]).filter (fun c => dropLocked s f c && !lost.contains c))

/-- The slot that may take a lost lane of link k: the calibrated dark slot with CAL_READY, or below ×8 W8 calibrated and not
lent (R69, R518); not one that a swap has already used. -/
def spareSlot (s : State) (k : Nat) : Option Nat :=
  let f := linkFiber k
  let h := fiber s f
  if !leads s k || h.swap.any (fun w => 2 ≤ w.step && w.switched) then none
  else if fiberWidth s f == 8 then
    let d := darkSlot s f
    if d != 15 && calReady s f && h.calibrated.getLsbD d then some d else none
  else if !lent s f && h.calibrated.getLsbD 8 && !slotFailed s f 8 then some 8
  else none

/-- LANE_MOVE_TO_SPARE (R69): LC_DUP for the partner and an own switch row, then a replay (R119).  Below ×8 the next rotation
step is the lane's way back (R65). -/
def moveToSpare (k p c dst : Nat) (s : State) : State :=
  let f := linkFiber k
  let h := fiber s f
  let h := { h with calSlot := h.calSlot.filter (· != dst) }
  let s := setFiber f (if fiberWidth s f < 8 then { h with rotStep := (2 * c + 1) % 16 } else h) s
  let s := if fiberWidth s f < 8 then lendW8 k true s else s
  let s := txCtrl k (recDup p dst 0xFFFFFFFF) (setCalReady f false (setSlotState f dst 1 s))
  replayAll k (switchRowTx k (mapSet (txMap s k) p dst) 0 s)

/-- R71 after a loss: the lost slot becomes the dark slot where no other slot is free of a lane, else it is calibrated next. -/
def queueLost (k p c : Nat) (s : State) : State :=
  let f := linkFiber k
  let h := fiber s f
  let s := setFiber f { h with lost := (c, k, p) :: h.lost.filter (·.1 != c) } s
  let used := ((fiberLinks s f).map (fun k => mapSlots (txMap s k))).flatten
  let free := (List.range 9).filter (fun x => x != c && !used.contains x && !slotFailed s f x)
  if free.isEmpty then
    startCal f (setCalReady f false (setDark f c (setFiber f { fiber s f with calSlot := none } s)))
  else startCal f (setFiber f { fiber s f with calNext := (fiber s f).calNext ++ [c] } s)

/-- A lane in HOLD has gone to the spare: its slot is the dark slot, calibrated once the slew is over (R69, R90). -/
def heldDark (f c : Nat) (s : State) : State := setCalReady f false (setDark f c s)

/-- A link's transmit map changes by a switch row, or the link falls below MIN_LANES and trains again (R70). -/
def remap (k : Nat) (m : Word) (cause : Nat) (s : State) : State :=
  if mapLanes m < minLanes s (linkFiber k) then toLight k (count1 (Ctr.linkDown (linkQuad k) (linkTile k)) s)
  else switchRowTx k m cause s

/-- A lane of link k in this end's transmit map is lost: R69, then R70; a swap below step 4 gives way. -/
def loseLane (k p c : Nat) (retry : Bool) (cause : Nat) (s : State) : State :=
  let f := linkFiber k
  match spareSlot s k with
  | some d =>
    let s := moveToSpare k p c d (dropSwap f s)
    if retry then queueLost k p c s else heldDark f c s
  | none =>
    let s := remap k (mapSet (txMap s k) p 15) cause (abandonSwap f s)
    if !linkUp s k then s
    else
      let s := replayAll k s
      if retry then queueLost k p c s else s

/-- The lane of link k on slot c leaves the map in both directions (R69); `held` for a ring in HOLD. -/
def laneOut (f c k cause : Nat) (held : Bool) (s : State) : State :=
  let p := (mapPos (link s k).rxMap c).getD 0
  let s := setFiber f { fiber s f with lost := (c, k, p) :: (fiber s f).lost } s
  let s := txCtrl k (recMask (rxMask s k).toNat) s
  let s := if (mapPos (txMap s k) c).isSome then loseLane k ((mapPos (txMap s k) c).getD 0) c (!held) cause s
    else if !held then queueLost k p c s else s
  showHold f s

/-- Is a gap of R98 in force on link k: from the commit instant to the boundary 7.0 µs later? -/
def gapOn (s : State) (k : Nat) : Bool :=
  (link s k).gap.any (fun g => g.1.toNat ≤ devTicks s && devTicks s < g.1.toNat + 5600)

/-- DESKEW_ERR follows the slots excluded for skew (R57). -/
def setSkewed (k : Nat) (m : BitVec 9) (s : State) : State := setRb (aLink k) 22 (m != 0) (setLink k { link s k with skewed := m } s)

/-- The entry and the counters of a lane loss (R46, R68, R77): item 3 has found 8 uncorrectable codewords. -/
def countLoss (f c k cause : Nat) (s : State) : State :=
  let s := count1 (Ctr.laneLossCnt (fiberQuad f) (fiberTile f) c) s
  let s := if cause == 3 then count (Ctr.uncorrCw (fiberQuad f) (fiberTile f) c) 8 s else s
  let s := if cause == 5 then setSkewed k ((link s k).skewed ||| oneSlot c) s else s
  tileLog 0x0102 clsUnit k f c cause 1 (18 * (f % 8) + 2 * c + 1) 0 s

/-- A lane judged in ALIGN or PARTNER is lost: it is not in the map with which the link enters UP (R51, R57, R68). -/
def trainLost (f c cause : Nat) (s : State) : State :=
  match (fiberLinks s f).find? (fun k => (linkIs s k .align || linkIs s k .partner) && (link s k).trained.getLsbD c) with
  | none => s
  | some k =>
    let l := link s k
    countLoss f c k cause (setLink k { l with trained := l.trained &&& ~~~ oneSlot c, aligned := l.aligned &&& ~~~ oneSlot c } s)

/-- Loss of the lane on slot c, found by this end's receiver (R68, R77); `held` for a ring in HOLD. -/
def laneLost (f c cause : Nat) (held : Bool) (s : State) : State :=
  match (fiberLinks s f).find? (fun k => linkUp s k && (mapPos (link s k).rxMap c).isSome) with
  | none => trainLost f c cause s
  | some k =>
    if (fiber s f).lost.any (·.1 == c) then s
    else if gapOn s k && (cause == 1 || cause == 4) && !held then s
    else laneOut f c k cause held (setSlotState f c (if held then 3 else 0) (countLoss f c k cause s))

/-- Codes of the five items of R68. -/
def LossCause.code : LossCause → Nat
  | .light => 1
  | .wrongSlot => 2
  | .uncorrectable => 3
  | .codewordLock => 4
  | .skew => 5

/-- LANE_LOSS. -/
def execLaneLoss (f : FiberIx) (c : Slot) (cause : LossCause) (s : State) : Host.Outcome State Fault Refusal :=
  .next (if quadShut s (fiberQuad f) then s else laneLost f c (LossCause.code cause) false s)

/-- The lane position slot c returns to in map m: the one it lost, else its own, else the first missing one. -/
def returnPos (s : State) (k c : Nat) (m : Word) : Option Nat :=
  let own := ((ownSlots s k).zipIdx.find? (·.1 == c)).map (·.2)
  let lostAt := ((fiber s (linkFiber k)).lost.find? (·.1 == c)).map (·.2.2)
  let n := fiberWidth s (linkFiber k)
  ((lostAt.toList ++ own.toList ++ List.range n).filter (· < n)).find? (fun p => mapSlot m p == 15)

/-- The leader places slot c in its transmit map, where the partner can receive it and its modulator is LOCKED (R60, R82). -/
def placeTx (k c p : Nat) (s : State) : State :=
  if (link s k).peerMask.getLsbD c && ringLocked s (fiberRing (linkFiber k) c false) && (mapPos (txMap s k) c).isNone then
    switchRowTx k (mapSet (txMap s k) p c) 0 (setSlotState (linkFiber k) c 1 s)
  else s

/-- The leader has the partner place slot c in its map, where this end receives it (R60, R61). -/
def placeRx (k c p : Nat) (s : State) : State :=
  let l := link s k
  if dropLocked s (linkFiber k) c && (mapPos l.rxMap c).isNone && mapSlot l.rxMap p == 15 then
    txCtrl k (recSwitch (l.switchRx + 1).toNat (mapSet l.rxMap p c)) s
  else s

/-- The dark slot has taken a lane: the slots that carry none give the next one.  Which it is the spec does not say: at ×8 it
is the lowest slot without a lane that is not FAILED (DESIGN CHOICE, log entry 58). -/
def darkTaken (k c : Nat) (s : State) : State :=
  let f := linkFiber k
  if darkSlot s f == c && (mapPos (txMap s k) c).isSome then
    let used := mapSlots (txMap s k)
    let free := (List.range 9).filter (fun x => !used.contains x && !slotFailed s f x)
    startCal f (setCalReady f false (setDark f (if fiberWidth s f == 8 then free.headD 15 else 8) s))
  else s

/-- A lane comes back, or comes in (R59, R71): LC_MASK names its slot again, and the end that leads places it in both
directions by switch rows; an end that does not lead waits for the leader (R61). -/
def laneReturn (k c : Nat) (s : State) : State :=
  let f := linkFiber k
  let pt := returnPos s k c (txMap s k)
  let pr := returnPos s k c (link s k).rxMap
  let h := fiber s f
  let s := setFiber f { h with lost := h.lost.filter (·.1 != c), calNext := h.calNext.filter (· != c) } s
  let s := txCtrl k (recMask (rxMask s k).toNat) (setSkewed k ((link s k).skewed &&& ~~~ oneSlot c) s)
  if !leads s k then s
  else
    let s := match pt with
      | some p => placeTx k c p s
      | none => s
    let s := match pr with
      | some p => placeRx k c p s
      | none => s
    darkTaken k c s

/-- Is slot c of fiber f waiting for a calibration before its lane may return (R71)? -/
def calPending (s : State) (f c : Nat) : Bool := (fiber s f).calSlot == some c || (fiber s f).calNext.contains c

/-- LANE_TRAIN_DONE: a lane of an UP link that runs narrow has adapted and holds codeword lock (R59, R91). -/
def laneTrainDone (f c : Nat) (s : State) : State :=
  let k := if fiberWidth s f == 8 || c < 8 then slotLink s f c else lentLink s f
  let active := (mapPos (txMap s k) c).isSome && (mapPos (link s k).rxMap c).isSome
  if linkUp s k && !active && dropLocked s f c && !slotFailed s f c && (c != darkSlot s f || mapLanes (txMap s k) < 8) &&
      (linkSlots s k).contains c && (!calPending s f c || c == darkSlot s f) then
    showHold f (laneReturn k c s)
  else s

/-- LC_MASK_RX: slots the partner no longer receives are lost to this end's transmit direction (R519); a slot it receives
again takes its lane back where this end has it ready (R69, R71). -/
def lcMaskRx (k : Nat) (mask : BitVec 9) (s : State) : State :=
  if linkUp s k then
    let f := linkFiber k
    let was := (link s k).peerMask
    let s := setLink k { link s k with peerMask := mask } s
    let s := forEach ((mapSlots (txMap s k)).filter (fun c => !mask.getLsbD c)) (fun c s =>
      match mapPos (txMap s k) c with
      | some p => if linkUp s k then loseLane k p c true 0 (setSlotState f c 0 s) else s
      | none => s) s
    forEach ((List.range 9).filter (fun c => mask.getLsbD c && !was.getLsbD c)) (fun c s => laneTrainDone f c s) s
  else s

/-- LC_MASK_RX. -/
def execLcMaskRx (k : LinkIx) (mask : BitVec 9) (s : State) : Host.Outcome State Fault Refusal := .next (lcMaskRx k mask s)

/-- LANE_TRAIN_DONE. -/
def execLaneTrainDone (f : FiberIx) (c : Slot) (s : State) : Host.Outcome State Fault Refusal := .next (laneTrainDone f c s)

/-! ### The end of a calibration (R71, R72, R102) -/

/-- A rotation loan of W8 to another link ends at once: its lane goes back to its own slot, which is the dark slot (R72). -/
def recallW8 (f : Nat) (s : State) : State :=
  let k := lentLink s f
  let d := darkSlot s f
  match mapPos (txMap s k) 8 with
  | some p =>
    if linkUp s k && d != 15 && !slotFailed s f d then
      let s := setFiber f { fiber s f with swap := none, calSlot := none } (setRb (aStatus f) 26 false s)
      let s := txCtrl k (recDup p d 0xFFFFFFFF) (setSlotState f d 1 s)
      lendW8 k false (replayAll k (switchRowTx k (mapSet (txMap s k) p d) 0 s))
    else s
  | none => lendW8 k false (dropSwap f s)

/-- A data slot FAILED below ×8 is replaced for good by W8 lent to its link (R72). -/
def replaceByW8 (f c : Nat) (s : State) : State :=
  let k := slotLink s f c
  let s := if lent s f && lentLink s f != k && !slotFailed s f 8 && linkUp s k then recallW8 f s else s
  match returnPos s k c (txMap s k) with
  | some p =>
    if linkUp s k && leads s k && !lent s f && !slotFailed s f 8 then
      let s := lendW8 k true (setSlotState f 8 1 s)
      let s := txCtrl k (recDup p 8 0xFFFFFFFF) s
      replayAll k (switchRowTx k (mapSet (txMap s k) p 8) 0 s)
    else s
  | none => s

/-- The map of R72's policy 1: position 7 is dropped, its slot going to a lower position that has none. -/
def sevenLanes (m : Word) : Word :=
  match (List.range 7).find? (fun p => mapSlot m p == 15) with
  | some p => mapSet (mapSet m p (mapSlot m 7)) 7 15
  | none => mapSet m 7 15

/-- Policy 1 (keep calibration): the link runs on positions 0 to 6, and rotation goes on over the eight good slots. -/
def keepCalibration (f : Nat) (s : State) : State :=
  let k := 8 * f
  let m := sevenLanes (txMap s k)
  let s := if m == txMap s k then s else remap k m 0 s
  if !linkUp s k then s
  else
    let l := link s k
    let r := sevenLanes l.rxMap
    let s := if r == l.rxMap then s else txCtrl k (recSwitch (l.switchRx + 1).toNat r) s
    let used := mapSlots m
    let free := (List.range 9).filter (fun c => !used.contains c && !slotFailed s f c)
    let d := if free.contains (darkSlot s f) then darkSlot s f else free.headD 15
    startCal f (if d == darkSlot s f then s else setDark f d (setCalReady f false (setSlotState f d 2 s)))

/-- The ×8 policy of R72 once slot c is FAILED; an end that does not lead only tells the leader what it receives (R74). -/
def failPolicy (f c : Nat) (s : State) : State :=
  let k := 8 * f
  let keep := rb s (Reg.ftCfg (fiberQuad f) (fiberTile f)) 2
  if linkUp s k && !leads s k then
    let s := txCtrl k (recMask (rxMask s k).toNat) s
    if keep then s else setStall f c (setCalReady f false (setDark f 15 s))
  else if keep then (if linkUp s k then keepCalibration f s else s)
  else
    let free := darkSlot s f
    let s := if linkUp s k && free != 15 && !slotFailed s f free && mapLanes (txMap s k) < 8 then laneReturn k free s else s
    setStall f c (setCalReady f false (setDark f 15 s))

/-- SLOT_FAILED: a slot has failed calibration 3 times in succession (R71, R72, R77). -/
def slotFail (f c : Nat) (s : State) : State :=
  let s := setRb (aLane f) (18 + c) true (setSlotState f c 0 s)
  let s := tileLog 0x0104 clsUnit (slotLink s f (min 7 c)) f c 0 0xFF 0 0 s
  let h := fiber s f
  let s := setFiber f { h with calSlot := none, calNext := h.calNext.filter (· != c) } s
  if fiberWidth s f == 8 then failPolicy f c s
  else if c == 8 then setStall f c (setCalReady f false (setDark f 15 s))
  else setStall f c (setCalReady f false (setDark f 15 (replaceByW8 f c s)))

/-- One failed calibration of slot c (R71, R85). -/
def calFailed (f c : Nat) (s : State) : State :=
  let h := fiber s f
  let n := h.fails.getD c 0 + 1
  let s := setFiber f { h with fails := listPut 9 0 h.fails c n } s
  if 3 ≤ n && !slotFailed s f c then slotFail f c s else s

/-- The matrix rings of slot c onto fiber f that belong to no active route (R102, step 5). -/
def idleMatrix (s : State) (f c : Nat) : List Nat :=
  let q := fiberQuad f
  ((routeSet s q (1 - activeSet s q)).map (fun e =>
    (e.2.outs.zipIdx.filter (fun o => e.2.slot == c && o.1.1 == fiberTile f)).map (fun o => 2304 + 8192 * q + 8 * e.1 + o.2))).flatten

/-- What a completed calibration of slot c puts into the working set: laser bias, modulator ring, ADC offsets, PILOT_THRESH,
and the idle matrix rings, which routes may use again (R85, R102). -/
def calValues (f c : Nat) (s : State) : State :=
  let s := calRefit (calLaserAt (f / 8) c) 4 (calRefit (calAdcAt f c) 4 s)
  let s := calRefitRing (fiberRing f c true) c (calRefitRing (fiberRing f c false) c s)
  let s := calRefit (calRingAt (fiberRing f c true) 56) 4 (calRefit (calRingAt (fiberRing f c false) 56) 4 s)
  forEach (idleMatrix s f c) (fun r s =>
    recalRing r (setRing r { ring s r with excluded := false } (calRefitRing r c s))) s

/-- The link whose lane slot c carried when it was lost, else the link that owns it (R71). -/
def lostLink (s : State) (f c : Nat) : Nat :=
  (((fiber s f).lost.find? (·.1 == c)).map (·.2.1)).getD (slotLink s f (min 7 c))

/-- A completed calibration of slot c: the working set takes it; a dark slot is ready, a lost slot's lane returns. -/
def calDone (f c : Nat) (s : State) : State :=
  let h := fiber s f
  let k := lostLink s f c
  let s := setFiber f { h with fails := listPut 9 0 h.fails c 0, calibrated := h.calibrated ||| oneSlot c, calSlot := none } s
  let s := calValues f c s
  if c == darkSlot s f then
    let s := setCalReady f true (setFiber f { fiber s f with
      lost := (fiber s f).lost.filter (·.1 != c), heldReady := rotHeld s f } s)
    if fiberWidth s f == 8 && linkUp s k && mapLanes (txMap s k) < 8 && (List.range 9).any (slotFailed s f) then
      if rb s (Reg.ftCfg (fiberQuad f) (fiberTile f)) 2 then trySwap f s else laneReturn k c s
    else trySwap f (startCal f s)
  else startCal f (if linkUp s k then laneReturn k c s else s)

/-- DARK_CAL_DONE: ignored unless the slot is the one under calibration; it can only have succeeded with the slot's rings
LOCKED (R82). -/
def execDarkCalDone (f : FiberIx) (c : Slot) (ok : Bool) (s : State) : Host.Outcome State Fault Refusal :=
  .next (if (fiber s f).calSlot == some c.val && fiberEn s f && !quadShut s (fiberQuad f) then
    (if !ok then calFailed f c s
     else if dropLocked s f c && ringLocked s (fiberRing f c false) then calDone f c s
     else s)
  else s)

/-! ### Lane control messages taken as follower (R56, R61, R63) -/

/-- Runs `f` on an UP link whose partner leads. -/
def asFollower (k : Nat) (f : State → State) (s : State) : State := if linkUp s k && !leads s k then f s else s

/-- LC_DUP_RX: duplicates from the named period, or switches at once without duplication (R63, R69, R119). -/
def execLcDupRx (k : LinkIx) (pos : BitVec 3) (slot : Slot) (period : BitVec 32) (s : State) :
    Host.Outcome State Fault Refusal :=
  .next (asFollower k (fun s =>
    if period == 0xFFFFFFFF then
      replayAll k (switchRowTx k (mapSet (txMap s k) pos.toNat slot) 0 (setSlotState (linkFiber k) slot 1 s))
    else setLink k { link s k with dup := some (pos.toNat, slot.val, period.toNat) } s) s)

/-- LC_READY_RX: the partner has verified the duplicate of the swap in progress, and the switch row goes (R63). -/
def execLcReadyRx (k : LinkIx) (pos : BitVec 3) (slot : Slot) (s : State) : Host.Outcome State Fault Refusal :=
  .next (if linkUp s k then
    match (fiber s (linkFiber k)).swap with
    | some w => if w.link == k.val && w.dst == slot.val && w.pos == pos.toNat && w.step == 2 && !w.txReady then
        swapTx (linkFiber k) w s else s
    | none => s
  else s)

/-- LC_SWITCH_RX: the follower sends the switch row with the given identity and map (R60, R122), or trains again where the
map leaves it fewer than MIN_LANES lanes (R70). -/
def execLcSwitchRx (k : LinkIx) (id : BitVec 8) (map : BitVec 32) (s : State) : Host.Outcome State Fault Refusal :=
  .next (asFollower k (fun s =>
    let s := setLink k { link s k with switchTx := id - 1, dup := none } s
    remap k map 0 (forEach ((mapSlots map).filter (· < 9)) (fun c s => setSlotState (linkFiber k) c 1 s) s)) s)

/-- LC_LEND_RX: starts or stops transmitting on W8 (R56). -/
def execLcLendRx (k : LinkIx) (lend : Bool) (s : State) : Host.Outcome State Fault Refusal :=
  .next (asFollower k (fun s => setLink k { link s k with w8Tx := lend } s) s)

/-- LC_CAL_RX: starts or stops the calibration pattern on a slot; at ×8 that slot is this end's dark slot too (R61). -/
def execLcCalRx (k : LinkIx) (slot : Slot) (on : Bool) (s : State) : Host.Outcome State Fault Refusal :=
  .next (asFollower k (fun s =>
    let m := (link s k).calTx
    let d := (link s k).dup.filter (fun d => !(on && d.2.1 == slot.val))
    let s := setLink k { link s k with calTx := if on then m ||| oneSlot slot else m &&& ~~~ oneSlot slot, dup := d } s
    if on && fiberWidth s (linkFiber k) == 8 && (mapPos (txMap s k) slot).isNone then
      setDark (linkFiber k) slot (setSlotState (linkFiber k) slot 2 s)
    else s) s)

/-- The identity and map of a switch flit, where its pattern and both complement checks pass (R114, R115). -/
def switchFlit (b : List Byte) : Option (Byte × Word) :=
  let id := b.getD 48 0
  let m := leAt b 52 4
  if b.take 48 == (List.replicate 12 (leBytes 4 0xE1F0C35A)).flatten && b.getD 49 0 == ~~~ id &&
      leAt b 56 4 == 0xFFFFFFFF - m then some (id, BitVec.ofNat 32 m) else none

/-- SWITCH_FLIT_RX: a new identity's map is in force from the next row (R60, R115). -/
def execSwitchFlitRx (k : LinkIx) (flit : List Byte) (s : State) : Host.Outcome State Fault Refusal :=
  .next (match switchFlit flit with
    | none => s
    | some (id, m) =>
      if linkUp s k && id != (link s k).switchRx then setLink k { link s k with switchRx := id, rxMap := m } s else s)

/-! ### Alignment blocks (R50, R51, R57, R58, R63) -/

/-- The fields of R58 in a block. -/
def blockPartner (b : AlignBlock) : PartnerId := ⟨b.role, b.width, b.fiber, b.epid, b.version⟩

/-- Does the block name slot c, with its complement right (R51)? -/
def slotNamed (b : AlignBlock) (c : Nat) : Bool :=
  b.slotByte.toNat % 16 == c && b.slotByte.toNat / 16 == 15 - c

/-- RING_FAULT: the third failure in succession (R85). -/
def ringFault (r : Nat) (s : State) : State :=
  let s := setRing' r .failed (setRing r { ring s r with fails := 0 } s)
  let s := ringLog 0x010A clsUnit r 0 0 s
  if ringOnEngine r then calFailed (ringFiber r) (ringSlot r) s
  else setRing r { ring s r with excluded := true } s

/-- A failure that R85 counts; `next` is what the ring does when it is not the third in succession. -/
def ringFailed (r : Nat) (next : State → State) (s : State) : State :=
  let n := (ring s r).fails + 1
  if 3 ≤ n then ringFault r s else next (setRing r { ring s r with fails := n } s)


/-- WRONG_SLOT_EVENT (R51, R68, R85, R86): the lane carries no flits; where the block names the neighbouring slot to a ring
that reads it in VERIFY or LOCKED, the ring is on an alias, which out of VERIFY counts as a failure. -/
def wrongSlot (f c : Nat) (b : AlignBlock) (s : State) : State :=
  let r := fiberRing f c true
  let n := b.slotByte.toNat % 16
  let was := ringState s r
  let s := laneLost f c 2 false (count1 (Ctr.wrongSlot (fiberQuad f) (fiberTile f) c) s)
  if b.slotByte.toNat / 16 == 15 - n && (n == c + 1 || n + 1 == c) && (was == .verify || was == .locked) then
    let s := aliasDeclare r n s
    if was == .verify then ringFailed r id s else s
  else s

/-- The SLOT check of a drop ring has passed: with MATCH, VERIFY is over (R81). -/
def slotPassed (f c : Nat) (s : State) : State :=
  let r := fiberRing f c true
  let h := ring s r
  if ringState s r == .verify then
    let s := setRing r { h with slotOk := true } s
    if h.matched then
      let s := setRb (aRing r) 23 false (setRing' r .locked (setRing r { h with slotOk := true, fails := 0 } s))
      lockCheck (slotLink s f (min 7 c)) s
    else s
  else s

/-- ALIGN: a lane is judged; late lanes are excluded with DESKEW_ERR (R57).  When ALIGN is left R57 does not say beyond "at
least MIN_LANES lanes": here once every trained lane has been judged, or a lane's second block arrives (DESIGN CHOICE, log
entry 58). -/
def alignLane (k c : Nat) (late : Bool) (s : State) : State :=
  let l := link s k
  if !l.trained.getLsbD c then s
  else
    let again := l.aligned.getLsbD c
    let l := if late then { l with trained := l.trained &&& ~~~ oneSlot c, aligned := l.aligned &&& ~~~ oneSlot c }
      else { l with aligned := l.aligned ||| oneSlot c }
    let s := setLink k l s
    let s := if late then setSkewed k ((link s k).skewed ||| oneSlot c) s else s
    let l := link s k
    if minLanes s (linkFiber k) ≤ slotCount l.aligned && (again || l.trained == l.aligned) then
      setLinkState k .partner s
    else s

/-- LINK_ENTER_UP: credits are committed, the first maps are in force (receive lanes that have passed ALIGN, transmit lanes
whose modulator rings are LOCKED as well, R82), CRD_INIT is sent and waiting packets may come.  Below ×8 a FAILED slot of the
link is replaced by W8 again (R72). -/
def linkEnterUp (k : Nat) (old : Option (BitVec 24)) (epid : BitVec 24) (s : State) : State :=
  let f := linkFiber k
  let ok := (link s k).aligned
  let rx := mapOf ((ownSlots s k).map (fun c => if ok.getLsbD c then c else 15))
  let tx := mapOf ((ownSlots s k).map (fun c => if ok.getLsbD c && ringLocked s (fiberRing f c false) then c else 15))
  if mapLanes tx < minLanes s f then trainFail k s
  else match commitLink k s with
  | (false, s) => trainFail k s
  | (true, s) =>
    let s := setLinkState k .up s
    let s := setLink k { link s k with rxMap := rx, peerMask := 0x1FF, upAt := s.time.l, switchTx := 0, switchRx := 0 } s
    let s := setMap k tx (setReg (aLl k) 0 (showCut (linkQuad k) s))
    let s := forEach (mapSlots tx) (fun c s => setSlotState f c 1 s) s
    let s := setReg (Reg.tpRtt (linkQuad k) (linkTile k) (linkIx k)) (reg s Reg.rttDefault) s
    let s := txCtrl k (recCredits 0x02 (link s k).ownAdv) s
    let s := if fiberWidth s f < 8 then forEach ((linkSlots s k).filter (slotFailed s f)) (replaceByW8 f) s else s
    let s := forRange 4 (fun q s => joinVoqs q k s) s
    showHold f (masterEpid k old epid s)

/-- PARTNER_CHECK: refused with PARTNER_ERR, or admitted with at least MIN_LANES lanes that still hold (R57, R58). -/
def partnerCheck (k : Nat) (b : AlignBlock) (s : State) : State :=
  let p := blockPartner b
  let old := (link s k).partner.map (·.epid)
  if !partnerOk s k p then setRb (aLink k) 23 true (trainFail k s)
  else if slotCount (link s k).aligned < minLanes s (linkFiber k) then s
  else linkEnterUp k old b.epid (setRb (aLink k) 23 false (setLink k { link s k with partner := some p } s))

/-- A good block of an UP link: EPID, receive stamp, and a duplicate that verifies (R63, R398, R406). -/
def blockUp (k c : Nat) (b : AlignBlock) (late : Bool) (frac : BitVec 16) (s : State) : State :=
  let l := link s k
  let old := l.partner.map (·.epid)
  let s := masterEpid k old b.epid (setLink k { l with partner := some (blockPartner b) } s)
  let s := if mapLowest (link s k).rxMap == some c then
      takeRxStamp k ⟨b.period, BitVec.ofNat 80 (devTime s + frac.toNat / 256 * 256), s.time.l, c⟩ s
    else s
  if b.dup && !late && (mapPos (link s k).rxMap c).isNone then
    match (fiber s (linkFiber k)).swap with
    | some w =>
      if w.link == k && w.dst == c && w.step == 2 && !w.rxReady then swapRx (linkFiber k) w s else s
    | none => if leads s k then s else txCtrl k (recReady b.lane.toNat c) s
  else s

/-- The link whose lane slot c of fiber f carries in the receive direction. -/
def blockLink (s : State) (f c : Nat) : Nat :=
  match (fiberLinks s f).find? (fun k => (mapPos (link s k).rxMap c).isSome) with
  | some k => k
  | none => if c == 8 && fiberWidth s f < 8 then
      (if lent s f then lentLink s f else 8 * f) else slotLink s f (min 7 c)

/-- The block of the boundary that ends a gap has arrived (R98). -/
def gapEnd (k : Nat) (period : BitVec 32) (s : State) : State :=
  if (link s k).gap.any (fun g => g.2 == period) then setLink k { link s k with gap := none } s else s

/-- ALIGN_BLOCK_RX: a lane is accepted only when SLOT, its complement and the pilot agree (R51). -/
def alignBlockRx (f c : Nat) (b : AlignBlock) (pilotOk late : Bool) (frac : BitVec 16) (s : State) : State :=
  let k := blockLink s f c
  let s := gapEnd k b.period s
  if !(slotNamed b c && pilotOk) then wrongSlot f c b s
  else
    let s := slotPassed f c s
    if !dropLocked s f c then s
    else if linkIs s k .align then alignLane k c late s
    else if linkIs s k .partner then partnerCheck k b s
    else if linkUp s k then blockUp k c b late frac s
    else s

/-- ALIGN_BLOCK_RX. -/
def execAlignBlockRx (f : FiberIx) (slot : Slot) (blk : AlignBlock) (pilotOk late : Bool) (frac : BitVec 16) (s : State) :
    Host.Outcome State Fault Refusal :=
  .next (if fiberEn s f && isTerminated s f && !quadShut s (fiberQuad f) then
    alignBlockRx f slot blk pilotOk late frac s
  else s)

end Sys2Proof.Machine
end

