-- ==== Sys2Proof/Machine/LinkLayer.lean ====
section
/-!
DEFINITION. The link layer's receive side and its replay, and the credit records (R109 to R123, R135 to R137, R513).
-/
namespace Sys2Proof.Machine

/-- REPLAY_EXHAUST: the link leaves UP for LIGHT (R120, R139); cause 1 limit, 2 timeout. -/
def replayExhaust (k cause : Nat) (s : State) : State :=
  let s := count1 (Ctr.replayExhaust (linkQuad k) (linkTile k) (linkIx k)) s
  toLight k (tileLog 0x0201 clsUnit k (linkFiber k) 0xF cause 0xFF 0 0 s)

/-- Groups of the replay buffer after group `ack` has been acknowledged: those sent after it (R117). -/
def afterAck (ack : Nat) (gs : List TxGroup) : List TxGroup :=
  match gs.findIdx? (fun g => g.gseq == ack) with
  | none => gs
  | some i => gs.drop (i + 1)

/-- Frees acknowledged groups; progress ends the count of failed replays (R117, R118, R120). -/
def ackGroups (k ack : Nat) (s : State) : State :=
  let l := link s k
  let left := afterAck ack l.replay
  if left.length = l.replay.length then s
  else setLink k { l with replay := left, replayCount := 0, lastReplay := none } s

/-- Waiting flits go into the room that an acknowledgement has made, after a replay (R117, R118). -/
def sendMore (k : Nat) (s : State) : State :=
  if linkUp s k then sendNak k (flushTx k ((link s k).txWait.length / 31 + 1) s) else s

/-- A NAK: a replay from the oldest group, unless it is ignored or the limit is reached (R117, R120). -/
def nakReplay (k : Nat) (s : State) : State :=
  let l := link s k
  match l.replay with
  | [] => s
  | g :: _ =>
    let recent := l.lastReplay.any (fun r => r.1 == g.gseq && s.time.l ≤ r.2 + rttEst s k / 256 + 80)
    let limit := max 1 (rf s (Reg.llCfg (linkQuad k) (linkTile k)) 3 0)
    if recent then s
    else if limit ≤ l.replayCount then replayExhaust k 1 s
    else replayAll k s

/-- A group that fails R112: counted; a NAK goes for the first failure and for each further one of the awaited group.  Where
the LCRC has failed, R116 does not say how the receiver knows which group it was: here by the GSEQ field of the corrupt
trailer (DESIGN CHOICE, log entry 58). -/
def groupFailed (k gseq : Nat) (crcOk : Bool) (s : State) : State :=
  let s := pmcEvent (linkQuad k) (linkTile k) 0x013 (linkIx k) 1
    (count1 (Ctr.lcrcErr (linkQuad k) (linkTile k) (linkIx k)) s)
  let l := link s k
  let nak := !l.rxAwait || (!crcOk && gseq == rxGseq s k)
  setLink k { l with rxAwait := true, nakDue := l.nakDue || nak } s

/-- Positions of a group that hold flits of TYPEMAP code `c`. -/
def kindCount (t : List Byte) (c : Nat) : Nat := ((List.range 31).filter (fun n => tKind t n == c)).length

/-- A verified group: its flits are released to the tile, which takes them as the commands they spell (R112). -/
def groupVerified (k : Nat) (t : List Byte) (s : State) : State :=
  let q := linkQuad k
  let heads := kindCount t 1
  let bodies := kindCount t 2
  let s := setLink k { link s k with rxAny := true, rxAwait := false } (setRf (aLl k) 19 8 (rxGseq s k + 1) s)
  let s := if heads + bodies = 0 then s else count (Ctr.rxFlits q (linkTile k) (linkIx k)) (heads + bodies) s
  let s := if heads = 0 then s else pmcEvent q (linkTile k) 0x010 (linkIx k) heads s
  if bodies = 0 then s else pmcEvent q (linkTile k) 0x011 (linkIx k) bodies s

/-- GROUP_RX (R110 to R117): a trailer whose LCRC fails brings no acknowledgement. -/
def groupRx (k : Nat) (flits t : List Byte) (s : State) : State :=
  if !linkUp s k then s
  else
    let t := padTo 64 t
    let crcOk := crc32c (padTo 1984 flits ++ t.take 60) == tLcrc t
    if !crcOk then sendNak k (groupFailed k (tGseq t) false s)
    else
      let s := if tGseq t == rxGseq s k then groupVerified k t s else groupFailed k (tGseq t) true s
      let s := if tAckValid t then ackGroups k (tAck t) s else s
      let s := if tNak t then nakReplay k s else s
      sendMore k s

/-- GROUP_RX. -/
def execGroupRx (k : LinkIx) (flits trailer : List Byte) (s : State) : Host.Outcome State Fault Refusal :=
  .next (groupRx k flits trailer s)

/-- REPLAY_TIMEOUT: unacknowledged groups and no progress (R120). -/
def execReplayTimeout (k : LinkIx) (s : State) : Host.Outcome State Fault Refusal :=
  .next (if linkUp s k && !(link s k).replay.isEmpty then replayExhaust k 2 s else s)

/-! ### Credit records (R135 to R137) -/

/-- CRD_RX: before CRD_INIT the record is discarded and counted (R135). -/
def execCrdRx (k : LinkIx) (credits : List (BitVec 16)) (s : State) : Host.Outcome State Fault Refusal :=
  .next (if !linkUp s k then s
    else if (link s k).credInit then takeCredits k (credits.map BitVec.toNat) s
    else count1 (Ctr.credErr (linkQuad k) (linkTile k) (linkIx k)) s)

/-- CRD_INIT_RX: the partner's advertised credits (R135). -/
def crdInit (k : Nat) (cs : List Nat) (s : State) : State :=
  let s := setLink k { link s k with credInit := true, peerAdv := (List.range 7).map (fun i => cs.getD i 0) } s
  forRange 7 (fun i s => setTxCred k (i + 1) (cs.getD i 0) s) s

/-- CRD_INIT_RX. -/
def execCrdInitRx (k : LinkIx) (credits : List (BitVec 16)) (s : State) : Host.Outcome State Fault Refusal :=
  .next (if linkUp s k then crdInit k (credits.map BitVec.toNat) s else s)

/-- Codes of the table of R122, and the empty record. -/
def ctrlKnown (c : Nat) : Bool :=
  [0x00, 0x01, 0x02, 0x10, 0x11, 0x12, 0x13, 0x14, 0x15, 0x20].contains c || (0x30 ≤ c && c ≤ 0x3F)

/-- CTRL_UNKNOWN_RX (R123). -/
def execCtrlUnknownRx (k : LinkIx) (code : Byte) (s : State) : Host.Outcome State Fault Refusal :=
  .next (if linkUp s k && !ctrlKnown code.toNat then count1 (Ctr.hdrErr (linkQuad k) (linkTile k) (linkIx k)) s else s)

end Sys2Proof.Machine
end

