-- ==== Sys2Proof/Machine/Ingress.lean ====
section
/-!
DEFINITION. The ingress tile: a packet's head and tail (R125, R129 to R134, R144 to R148, R174 to R179, R202 to R206, R249,
R250, R457, R466).
-/
namespace Sys2Proof.Machine

/-- STATUS STACK_OFFLINE (R374's table) and CSTATUS NO_SLOT (R269's table), as the tile answers for an absent quadrant. -/
def stStackOffline : Nat := 0x04
def csNoSlot : Nat := 0x02

/-- A packet of link k with the given head is dropped: its credit returns and its tail will be passed over (R131, R135). -/
def dropRx (k : Nat) (h : List Byte) (s : State) : State :=
  let s := setLink k { link s k with rxOpen := some ⟨none, h, none⟩ } s
  if hVc h = 0 then s else returnCredit k (hVc h) (hFlits h) s

/-- The packet number and entry of an arriving packet. -/
def rxPacket (k id : Nat) (h : List Byte) (d : Dest) (set : Option Nat) (waiting : Bool) (s : State) : QPkt where
  id := id
  rx := id
  inp := linkTile k
  dest := d
  via := pathPick s (linkQuad k) d.quad?
  vc := hVc h
  head := h
  payload := []
  flits := hFlits h
  tail := .waiting
  cells := .rx k (hVc h)
  cq := linkQuad k
  set := set
  inLink := k
  born := s.time.l
  waiting := waiting
  crossing := none

/-- Cells that packets of link k hold on VC v (R142). -/
def rxHeld (s : State) (k v : Nat) : Nat :=
  let w := sw s (linkQuad k)
  ((w.pkts.filter (fun p => p.cells == .rx k v)).map (·.flits)).sum +
    (((w.copyQ.filter (fun j => !j.firstDone && j.pkt.cells == .rx k v)).map (·.pkt.flits))).sum

/-- Is there a committed cell for each of `n` further flits of link k on VC v (R141)? -/
def rxRoom (s : State) (k v n : Nat) : Bool := rxHeld s k v + n ≤ (link s k).ownAdv.getD (v - 1) 65

/-- A packet sent without credit: no committed cell exists for it, and it is not admitted (R141; log entry 62). -/
def refuseRx (k : Nat) (h : List Byte) (s : State) : State :=
  setLink k { link s k with rxOpen := some ⟨none, h, none⟩ } s

/-- Queues an arriving packet; `orig` is its head as received, and its credit returns on the VC it arrived on (R145); `set`
is the link set it was sprayed over, with its links (R147, R186). -/
def queueRx (k : Nat) (orig h : List Byte) (d : Dest) (set : Option (Nat × List Nat)) (waiting : Bool) (s : State) : State :=
  if !rxRoom s k (hVc orig) (hFlits h) then refuseRx k orig s
  else
    let (id, s) := newId s
    let p := { rxPacket k id h d (set.map (·.1)) waiting s with
      cells := .rx k (hVc orig), setLinks := (set.map (·.2)).getD [] }
    let (p, s) := ecnJoin (linkQuad k) p s
    enqueue (linkQuad k) p (setLink k { link s k with rxOpen := some ⟨some id, orig, none⟩ } s)

/-- Flits that wait for the copier (R205). -/
def copyDepth (s : State) (q : Nat) : Nat := ((sw s q).copyQ.map (fun j => j.pkt.flits)).sum

/-- Hands an arriving packet to the copier with a group (R157). -/
def copyRx (k : Nat) (orig h : List Byte) (g : Nat) (s : State) : State :=
  let q := linkQuad k
  if !rxRoom s k (hVc orig) (hFlits h) then refuseRx k orig s
  else
    let (id, s) := newId s
    let p := { rxPacket k id h (.quad q g) none false s with cells := .rx k (hVc orig), via := none }
    let s := setSw q { sw s q with copyQ := (sw s q).copyQ ++ [⟨p, [], [], g, false, false⟩] } s
    setLink k { link s k with rxOpen := some ⟨some id, orig, none⟩ } s

/-- A colour drop at enqueue (R205). -/
def colourDropRx (k : Nat) (h : List Byte) (c : Colour) (s : State) : State :=
  dropRx k h (countColourDrop (linkQuad k) (hJob h) (hVc h) c s)

/-- Forwards a BULK or MGT packet by its DST lookup (R145, R147, R176 to R179, R205). -/
def forwardRx (k : Nat) (h : List Byte) (c : Colour) (s : State) : State :=
  let q := linkQuad k
  let out := if hVc h = 5 then turnVc6 h else h
  let bulk := hVc h = 5
  match dstLookup q (hDst h) s with
  | (.drop, s) => dropRx k h s
  | (.group g, s) =>
    if bulk && colourDrops s q c (copyDepth s q) then colourDropRx k h c s else copyRx k h out g s
  | (.set n, s) =>
    let links := lsetLinks s q n
    let s := if links.contains k then count1 (Ctr.fwdHairpin q) s else s
    let (pick, s) := sprayPick q n (hVc out) s
    let d := pick.getD (links.headD 0)
    if bulk && colourDrops s q c (voqDepth s q (linkTile k) (.link d) (hVc out)) then colourDropRx k h c s
    else if pick.isNone && noWait s q then dropRx k h (noteDrop q d s)
    else queueRx k h out (.link d) (some (n, links)) pick.isNone s

/-- A packet for a unit of quadrant b: queued for it, or, while b is out of service, answered or dropped (R144, R466). -/
def unitRx (k : Nat) (h : List Byte) (b : Nat) (u : UnitDest) (answer : Option (List Byte)) (s : State) : State :=
  if quadShut s b then
    match answer with
    | some a =>
      let s := dropRx k h s
      setLink k { link s k with rxOpen := some ⟨none, h, some (linkTile k, a)⟩ } s
    | none => dropRx k h (noteDrop (linkQuad k) k s)
  else queueRx k h h (.unit b u) none false s

/-- Counts HDR_ERR of link k and drops the packet. -/
def hdrErrRx (k : Nat) (h : List Byte) (s : State) : State :=
  dropRx k h (count1 (Ctr.hdrErr (linkQuad k) (linkTile k) (linkIx k)) s)

/-- Counts PEER_ERR of link k and drops the packet. -/
def peerErrRx (k : Nat) (h : List Byte) (s : State) : State :=
  dropRx k h (count1 (Ctr.peerErr (linkQuad k) (linkTile k) (linkIx k)) s)

/-- Does COMM entry c serve the packet's job (R249)? -/
def commServes (s : State) (h : List Byte) : Bool :=
  cComm h < 4096 && rb s (Reg.comm0 (cComm h)) 31 && rf s (Reg.comm0 (cComm h)) 27 16 == hJob h

/-- The reducing quadrant of a chunk of communicator c (R250): a QSPAN of 0 or 3 acts as 1. -/
def reducingQuad (s : State) (c chunk : Nat) : Nat :=
  let span := rf s (Reg.comm0 c) 13 12
  (rf s (Reg.comm0 c) 15 14 + chunk % (if span = 1 then 2 else if span = 2 then 4 else 1)) % 4

/-- A CUP packet for the device (R144, R249, R250, R466). -/
def collRx (k : Nat) (h : List Byte) (s : State) : State :=
  let q := linkQuad k
  if !commServes s h then
    let s := count1 (Ctr.noCommDrop q) s
    dropRx k h (logEvent q 0x0404 clsPacket 1 (linkTile k) (dataK (hJob h) (cComm h) (cSeq h) (cChunk h) 0 0) s)
  else unitRx k h (reducingQuad s (cComm h) (cChunk h)) .ce (some (retryHead s.fuses.epid.toNat h csNoSlot)) s

/-- Where a packet that has passed the header checks goes (R144). -/
def routeRx (k : Nat) (h : List Byte) (c : Colour) (s : State) : State :=
  let q := linkQuad k
  let epid := s.fuses.epid.toNat
  let mine := hDst h == epid
  let offline := stStackOffline
  if isPeer s (linkFiber k) then
    if hVc h = 1 then unitRx k h q .peerWr (some (peerAckHead epid h offline)) s
    else if mRtag h / 2 ^ 14 == q then unitRx k h q .peerAck none s
    else peerErrRx k h s
  else if hVc h = 1 then
    if mine then unitRx k h (bitsOf (mAddr h) 40 39) .ms (some (memRspHead epid h offline 0 0 (hEcn h) false [])) s
    else hdrErrRx k h s
  else if hVc h = 3 then (if mine then collRx k h s else hdrErrRx k h s)
  else if hVc h = 5 then
    if !mine then forwardRx k h c s
    else if clusterGone s q then dropRx k h (count1 (Ctr.lxMsgDrop q) s)
    else unitRx k h q .lx none s
  else if mine then unitRx k h q .sv none s
  else forwardRx k h c s

/-- Is a packet a boot message (R457)? -/
def bootMsg (h : List Byte) : Bool :=
  let t := leAt h 24 2
  hKind h = 4 && hVc h = 7 && 0x40 ≤ t && t ≤ 0x42

/-- A packet on a boot link: boot messages are consumed by the service die, whose commands carry them (R457). -/
def bootRx (k : Nat) (h : List Byte) (s : State) : State := if bootMsg h then dropRx k h s else hdrErrRx k h s

/-- The checks of R125 and R131, and STOMP in the header (R134). -/
def checkRx (k : Nat) (h : List Byte) (boot : Bool) (s : State) : State :=
  let f := linkFiber k
  if !kindVcOk (isPeer s f) (hKind h) (hVc h) then (if isPeer s f then peerErrRx k h s else hdrErrRx k h s)
  else if 4096 < hPlen h then hdrErrRx k h s
  else if hStomp h then dropRx k h (count1 (Ctr.stompRx (linkQuad k) (linkTile k) (linkIx k)) s)
  else if boot then bootRx k h s
  else if isPeer s f then routeRx k h .green s
  else
    let (c, s) := colourPacket (linkQuad k) (hJob h) (hVc h) (hPri h) (hFlits h) s
    routeRx k h c s

/-- Does link k carry only boot messages (R456, R457)? -/
def bootOnly (s : State) (k : Nat) : Bool := isBootLink s k || isBootFiber s (linkFiber k)

/-- May the SRC lookup of this head find both ports of its cycle taken (R175)?  Only where another head can arrive in the same
cycle, which packets of 4 flits or more leave no room for (log entry 10). -/
def sharesCycle (h : List Byte) : Bool := hFlits h < 4

/-- The SRC lookup of an arriving head, or its skip when both ports of the cycle are taken (R174, R175). -/
def srcLookupRx (k : Nat) (h : List Byte) (s : State) : State :=
  let (full, s) := if sharesCycle h then freeBool s else (false, s)
  if full then pmcEvent (linkQuad k) (linkTile k) 0x018 noInst 1 (count1 (Ctr.srcSkip (linkQuad k)) s) else srcLookup (linkQuad k) (hSrc h) k (hJob h) (hVc h) s

/-- PACKET_HEAD_RX (R131, R174, R488, R513): a HEAD before the end of the packet before it truncates that packet. -/
def headRx (k : Nat) (h : List Byte) (s : State) : State :=
  let q := linkQuad k
  if !linkUp s k || quadShut s q || s.unit.stopped.contains q then s
  else
    let h := padTo 64 h
    let s := cmapUse q (useIngest (linkTile k)) (64 * hFlits h) (count1 (Ctr.rxPkts q (linkTile k) (linkIx k)) s)
    let boot := bootOnly s k
    let s := if isPeer s (linkFiber k) || (boot && bootMsg h) then s else srcLookupRx k h s
    if (link s k).rxOpen.isSome then hdrErrRx k h (truncateRx k s) else checkRx k h boot s

/-- PACKET_HEAD_RX. -/
def execPacketHeadRx (k : LinkIx) (head : List Byte) (s : State) : Host.Outcome State Fault Refusal :=
  .next (headRx k head s)

/-- The end-to-end check of an arriving packet (R128, R129). -/
def crcGood (h payload : List Byte) : Bool := payload.length == hPlen h && packetCrc h payload == hCrc h

/-- PACKET_TAIL_RX (R129, R133, R134): only a good tail lets a unit act, or an answer leave (R466).  The check is made on a
packet already dropped as well; one that carried STOMP has been counted by its head. -/
def tailRx (k : Nat) (payload : List Byte) (stomped : Bool) (s : State) : State :=
  match (link s k).rxOpen with
  | none => s
  | some o =>
    let q := linkQuad k
    let s := setLink k { link s k with rxOpen := none } s
    let good := !stomped && crcGood o.head payload
    let s := if good || hStomp o.head then s
      else count1 (if stomped then Ctr.stompRx q (linkTile k) (linkIx k) else Ctr.e2eCrcErr q (linkTile k) (linkIx k)) s
    match o.answer, o.id with
    | some (inp, a), _ => if good then (originate q (originReq .ms inp (.link k) a [] s) s).2 else s
    | none, some id => markTail q id payload good s
    | none, none => s

/-- PACKET_TAIL_RX. -/
def execPacketTailRx (k : LinkIx) (payload : List Byte) (stomped : Bool) (s : State) : Host.Outcome State Fault Refusal :=
  .next (if linkUp s k then tailRx k payload stomped s else s)

end Sys2Proof.Machine
end

