-- ==== Sys2Proof/Machine/Memory.lean ====
section
/-!
DEFINITION. Ingot memory: the address map, regions, accesses and their stacks, errors and retirement, and the
memory-semantic service with combining (R302, R306 to R308, R362 to R392).
-/
namespace Sys2Proof.Machine

/-! ### The address map (R363, R364) -/

/-- Home quadrant of an Ingot address. -/
def homeQuad (a : Nat) : Nat := a / 2 ^ 39 % 4
/-- Offset within the home quadrant's window. -/
def homeOff (a : Nat) : Nat := a % 2 ^ 39
/-- Populated bytes of every quadrant's window. -/
def populated (s : State) : Nat :=
  if partCode s = 1 then 384 * 2 ^ 30 else if partCode s = 2 then 128 * 2 ^ 30 else 0
/-- The stack of an address. -/
def stackOf (s : State) (a : Nat) : Nat :=
  if partCode s = 2 then 3 * homeQuad a else 3 * homeQuad a + homeOff a / 4096 % 3
/-- The address within the stack. -/
def stackAddr (s : State) (a : Nat) : Nat :=
  if partCode s = 2 then homeOff a else homeOff a / 4096 / 3 * 4096 + homeOff a % 4096
/-- The stack page of an address. -/
def stackPage (s : State) (a : Nat) : Nat := stackAddr s a / 4096

/-- The stacks that hold bytes of [a, a + n): three consecutive pages reach every one. -/
def stacksOf (s : State) (a n : Nat) : List Nat :=
  ((List.range (min 3 ((a + n - 1) / 4096 - a / 4096 + 1))).map (fun i => stackOf s (a / 4096 * 4096 + 4096 * i))).eraseDups

/-- Are all bytes of [a, a + n) populated, in stacks that are present (R308 check 3, R363)? -/
def allPopulated (s : State) (a n : Nat) : Bool :=
  a + n ≤ 2 ^ 41 && homeOff a + n ≤ populated s && (stacksOf s a n).all (stackPresent s)

/-! ### Memory bytes -/

/-- `n` bytes of memory from address a. -/
def memRead (s : State) (a n : Nat) : List Byte := (List.range n).map (fun i => memByte s (a + i))

/-- Writes bytes from address a on. -/
def memWrite (a : Nat) : List Byte → State → State
  | [], s => s
  | b :: bs, s => memWrite (a + 1) bs (setMemByte a b s)

/-! ### Regions (R306, R307, R386) -/

def rgnValid (s : State) (r : Nat) : Bool := rb s (Reg.rgn0 r) 31
def rgnBase (s : State) (r : Nat) : Nat := rf s (Reg.rgn1 r) 31 12 * 4096 + rf s (Reg.rgn2 r) 8 0 * 2 ^ 32
def rgnSize (s : State) (r : Nat) : Nat := rf s (Reg.rgn3 r) 28 0 * 4096
def rgnJob (s : State) (r : Nat) : Nat := rf s (Reg.rgn0 r) 11 0
def rgnMirror (s : State) (r : Nat) : Bool := rb s (Reg.rgn0 r) 27
def rgnFiber (s : State) (r : Nat) : Nat := rf s (Reg.rgn5 r) 6 0
/-- ROLE: 0 SOLE, 1 PRIMARY, 2 MIRROR. -/
def rgnRole (s : State) (r : Nat) : Nat := rf s (Reg.rgnMem r) 31 30
def rgnEfence (s : State) (r : Nat) : Bool := rb s (Reg.rgnMem r) 29

/-- The valid region that holds every byte of [a, a + n). -/
def regionOf (s : State) (a n : Nat) : Option Nat :=
  (List.range 256).find? (fun r => rgnValid s r && rgnBase s r ≤ a && a + n ≤ rgnBase s r + rgnSize s r)

/-- The job's epoch comparison (R280): 0 current, 1 ahead, 2 stale. -/
def epochCmp (s : State) (job e : Nat) : Nat :=
  let d := (e + 65536 - rf s (Reg.jobEpoch job) 15 0) % 65536
  if d = 0 then 0 else if d ≤ 32767 then 1 else 2

/-! ### Stack states (R389, R392) -/

/-- IG_STATUS.STATE codes. -/
def stTraining : Nat := 2
def stOnline : Nat := 3
def stDraining : Nat := 4
def stOffline : Nat := 5

def stackState (s : State) (n : Nat) : Nat := rf s (Reg.igStatus (n / 3) (n % 3)) 31 28
def stackOnline (s : State) (n : Nat) : Bool := !stackGone s n && stackState s n == stOnline

/-- The memory event of stack n: an Ember entry with layout M and the quadrant's memory interrupt (R392). -/
def memEvent (code cls n addr die state cause : Nat) (s : State) : State :=
  raise (64 * (n / 3) + 35) (logEvent (n / 3) code cls 3 (n % 3) (dataM addr n die state cause) s)

/-- A stack changes its STATE. -/
def setStackState (n st : Nat) (s : State) : State :=
  if stackState s n = st then s
  else memEvent 0x0605 clsUnit n 0 0 st 0 (setRf (Reg.igStatus (n / 3) (n % 3)) 31 28 st s)

/-! ### Tags (R301, R377) -/

/-- Tags of the memory-service pool of quadrant q: its size. -/
def msPoolSize (s : State) (q : Nat) : Nat := min (ms s q).msPool (60416 - (ms s q).lxPool)

/-- Is the access made for the service? -/
def Access.ofService (a : Access) : Bool :=
  match a.owner with
  | .request _ => true
  | .comb _ _ => true
  | _ => false

/-- Is the access made for the host? -/
def Access.ofHost (a : Access) : Bool :=
  match a.owner with
  | .window _ _ => true
  | .dma _ _ _ => true
  | _ => false

/-- The accesses of quadrant q's stacks. -/
def quadAccs (s : State) (q : Nat) : List Access :=
  (stack s (3 * q)).accs ++ (stack s (3 * q + 1)).accs ++ (stack s (3 * q + 2)).accs

/-- Service tags in use: its accesses, and the adds that wait for their window. -/
def msTagsUsed (s : State) (q : Nat) : Nat :=
  ((quadAccs s q).filter Access.ofService).length + ((ms s q).combs.filter (fun c => c.kind != 0 && !c.closed)).length

/-- Open combining entries of quadrant q. -/
def openCombs (s : State) (q : Nat) : List Comb := (ms s q).combs.filter (fun c => !c.closed)

/-- MS_STATUS follows the tags and entries. -/
def showMs (q : Nat) (s : State) : State :=
  let used := msTagsUsed s q
  let n := (openCombs s q).length
  setReg (Reg.msStatus q)
    (setFld (setFld (setFld (setFld 0 15 0 used) 26 16 n) 30 30 (b2n (1024 ≤ n))) 31 31 (b2n (msPoolSize s q ≤ used))) s

/-- Lantern tags in use in quadrant q. -/
def lxTagsUsed (s : State) (q : Nat) : Nat := ((lx s q).ops.filter (·.tag)).length

/-- LX_STATUS follows the tags. -/
def showLxTags (q : Nat) (s : State) : State :=
  let used := lxTagsUsed s q
  setRf (Reg.lxStatus q) 15 0 used (setRb (Reg.lxStatus q) 31 ((ms s q).lxPool ≤ used) s)

/-- TAG_POOL_APPLY: a new pool size is applied once no tag of the pool is in use (R301, R377). -/
def tagPoolApply (q : Nat) (lantern : Bool) (s : State) : State :=
  if lantern then
    if lxTagsUsed s q = 0 then
      showLxTags q (showMs q (setMs q { ms s q with lxPool := min 61440 (rf s (Reg.lxCfg q) 15 0) } s))
    else s
  else if msTagsUsed s q = 0 then showMs q (setMs q { ms s q with msPool := rf s (Reg.msTags q) 15 0 } s)
  else s


/-! ### Accesses -/

/-- Numbers an access or a long operation. -/
def newAcc (s : State) : Nat × State := (s.accCtr, { s with accCtr := s.accCtr + 1 })

/-- Length in bytes of what an operation touches. -/
def MemOp.len : MemOp → Nat
  | .read n => n
  | .write bs => bs.length
  | .atomic _ wide _ _ _ => if wide then 8 else 4
  | .accum _ w xs => xs.foldl (fun n x => max n ((x.1 + 1) * (w / 8))) 0

/-- Does the operation change memory? -/
def MemOp.writes : MemOp → Bool
  | .read _ => false
  | _ => true

/-- Queues an access at its stack. -/
def issueAccess (requester unit addr : Nat) (op : MemOp) (owner : AccOwner) (s : State) : State :=
  let (id, s) := newAcc s
  let n := stackOf s addr
  let st := stack s n
  let s := setStack n { st with accs := st.accs ++ [⟨id, requester, unit, requester != 2, false, 0, addr, op, owner⟩] } s
  let w := sw s (n / 3)
  let m := ((stack s n).accs.filter (fun a => !a.granted)).length
  setSw (n / 3) { w with cmap := { w.cmap with depth := Tbl.set 0 w.cmap.depth (n % 3) (max m (Tbl.get 0 w.cmap.depth (n % 3))) } } s

/-- Is the access's page held for a copy (R368)? -/
def accHeld (s : State) (n : Nat) (a : Access) : Bool := (stack s n).copying.contains (stackPage s a.addr)

/-- Granted uses in progress at stack n. -/
def grantedAccs (s : State) (n : Nat) : List Access := (stack s n).accs.filter (·.granted)

/-- Tags of the host pool (R377): what the other pools leave of 65,536. -/
def hostPool (s : State) (q : Nat) : Nat := 61440 - (ms s q).lxPool - msPoolSize s q

/-- The oldest access of requester r that stack n can be granted. -/
def grantable (s : State) (n r : Nat) : Option Access :=
  (stack s n).accs.find? (fun a => !a.granted && a.requester == r && a.ap && !accHeld s n a
    && (r != 4 || ((quadAccs s (n / 3)).filter (fun x => x.granted && x.ofHost)).length < hostPool s (n / 3)))

/-- The requesters of IG_ARB of stack n (R208). -/
def igRequests (s : State) (n : Nat) : List Nat := (List.range 5).filter (fun r => (grantable s n r).isSome)

/-- Lines [first, last] of the 64 lines of its page that an access touches. -/
def accLines (a : Nat) (op : MemOp) : List Nat :=
  let o := a % 4096
  let first := o / 64
  let last := (o + max 1 op.len - 1) / 64
  (List.range (last + 1 - first)).map (first + ·)

/-- Grants the access of requester r to the request port of stack n (R212, R378). -/
def igGrant (n r : Nat) (s : State) : State :=
  match grantable s n r with
  | none => s
  | some a =>
    let st := stack s n
    let rest := eraseFirst (fun x => x.id == a.id) st.accs
    let accs := rest.filter (·.granted) ++ [{ a with granted := true, since := s.time.l }] ++ rest.filter (fun x => !x.granted)
    let s := setStack n { st with accs := accs } s
    let ev := match a.op with
      | .read _ => 0x060
      | .write _ => 0x061
      | .atomic _ _ _ _ _ => 0x062
      | .accum _ _ _ => 0x062
    let s := cmapUse (n / 3) (useStack (n % 3)) 1 (pmcEvent (n / 3) (45 + n % 3) ev r 1 s)
    arbUses (.ig (Fin.ofNat 4 (n / 3)) (Fin.ofNat 3 (n % 3))) (grantedAccs s n).length s

/-- The Alloy unit's oldest access that waits for AP_ARB (R208). -/
def apWaiting (s : State) (q u : Nat) : Option Access :=
  (quadAccs s q).find? (fun a => a.requester == 2 && !a.ap && a.unit == u)

/-- The requesters of AP_ARB of quadrant q. -/
def apRequests (s : State) (q : Nat) : List Nat := (List.range 8).filter (fun u => (apWaiting s q u).isSome)

/-- AP_ARB's DRAINED follows the uses of the Ingot port that it has granted (R214). -/
def showAp (q : Nat) (s : State) : State :=
  arbUses (.ap (Fin.ofNat 4 q)) ((quadAccs s q).filter (fun a => a.requester == 2 && a.ap)).length s

/-- AP_ARB grants Alloy unit u the Ingot port for one access. -/
def apGrant (q u : Nat) (s : State) : State :=
  match apWaiting s q u with
  | none => s
  | some a =>
    let n := stackOf s a.addr
    let st := stack s n
    showAp q (setStack n { st with accs := modifyFirst (fun x => x.id == a.id) (fun x => { x with ap := true }) st.accs } s)

/-- May the granted access complete: its page is not held and no earlier grant touches one of its lines (R368, R378)? -/
def accReady (s : State) (n : Nat) (a : Access) : Bool :=
  !accHeld s n a &&
  !(((stack s n).accs.takeWhile (fun x => x.id != a.id)).any (fun x =>
      x.addr / 4096 == a.addr / 4096 && (accLines x.addr x.op).any ((accLines a.addr a.op).contains ·)))

/-! ### Errors, die marks and retirement (R366 to R370) -/

def spares (s : State) (n : Nat) : Nat := rf s (Reg.igStatus (n / 3) (n % 3)) 11 0

/-- PAGE_RETIRE_START: a page is held and copied to a spare, or refused for want of one (R368). -/
def pageRetire (n page : Nat) (s : State) : State :=
  let a := Reg.igStatus (n / 3) (n % 3)
  let st := stack s n
  if st.copying.contains page then s
  else if spares s n = 0 then memEvent 0x0604 clsUnit n (page * 4096) 0 0 0 (setRb a 26 true s)
  else setRf a 11 0 (spares s n - 1) (setStack n { st with copying := st.copying ++ [page] } s)

/-- RETIRE_COPY_DONE: the page's address is redirected, and its accesses are released (R368, R392). -/
def retireCopyDone (n page : Nat) (s : State) : State :=
  let st := stack s n
  if st.copying.contains page then
    let s := setStack n { st with copying := st.copying.erase page, retired := page :: st.retired.erase page,
                                  pages := st.pages.filter (fun e => e.1 != page) } s
    let s := setRf (Reg.igLastRetired (n / 3) (n % 3)) 24 0 page (count1 (Ctr.igRetired (n / 3) (n % 3)) s)
    memEvent 0x0602 clsCorrected n (page * 4096) 0 0 0 s
  else s

/-- RETIRE_COPY_DONE. -/
def execRetireCopyDone (n : StackIx) (page : BitVec 25) (s : State) : Host.Outcome State Fault Refusal :=
  .next (retireCopyDone n page.toNat s)

/-- IG_RETIRE_WRITE (R369). -/
def igRetireWrite (n : Nat) (v : Word) (s : State) : State := pageRetire n (fld v 24 0) s

/-- IG_RETIRE_WRITE. -/
def execIgRetireWrite (n : StackIx) (v : Word) (s : State) : Host.Outcome State Fault Refusal :=
  .next (guardReg (Reg.igRetire (n / 3) (n % 3)) (igRetireWrite n v) s)

/-- The die mark of stack n, where one is set. -/
def markedDie (s : State) (n : Nat) : Option Nat :=
  let a := Reg.igCtrl (n / 3) (n % 3)
  if rb s a 20 then some (rf s a 19 16) else none

/-- Sets the die mark; a change from 0 to 1 is logged, with its cause (R367, R369, R392). -/
def setMark (n : Nat) (on : Bool) (die cause : Nat) (s : State) : State :=
  let a := Reg.igCtrl (n / 3) (n % 3)
  let was := rb s a 20
  let s := setRb (Reg.igStatus (n / 3) (n % 3)) 27 on (setRf a 19 16 die (setRb a 20 on s))
  if on && !was then memEvent 0x0601 clsCorrected n 0 die 0 cause s else s

/-- STACK_DIE_MARK_WRITE: DIE_MARKED and MARK_DIE of a write of IG_CTRL (R369). -/
def execStackDieMarkWrite (n : StackIx) (v : Word) (s : State) : Host.Outcome State Fault Refusal :=
  .next (guardReg (Reg.igCtrl (n / 3) (n % 3)) (setMark n (flag v 20) (fld v 19 16) 1) s)

/-- Ticks in a second. -/
def ticksPerSecond : Nat := 1000 * Config.ticksPerMs

/-- DIE_MARK: corrected symbols of the given dies join the last second's (R367). -/
def noteDies (n : Nat) (dies : List Nat) (s : State) : State :=
  let st := stack s n
  let now := s.time.l
  let hits := (st.hits.filter (fun h => now < h.1 + ticksPerSecond)) ++ dies.map (now, ·)
  let s := setStack n { st with hits := hits } s
  let thresh := max 1 (rf s (Reg.igEccCfg (n / 3) (n % 3)) 23 8)
  match (markedDie s n), dies.find? (fun d => thresh ≤ (hits.filter (fun h => h.2 == d)).length) with
  | none, some d => setMark n true d 0 s
  | _, _ => s

/-- A corrected access to a page counts toward its retirement; a page refused for want of a spare keeps its count, so that it is
named once (R368). -/
def notePage (n page : Nat) (s : State) : State :=
  let st := stack s n
  let c := ((st.pages.find? (fun e => e.1 == page)).map (·.2) |>.getD 0) + 1
  let pages := ((page, c) :: st.pages.filter (fun e => e.1 != page)).take 4096
  let s := setStack n { st with pages := pages } s
  let thresh := max 1 (rf s (Reg.igEccCfg (n / 3) (n % 3)) 7 0)
  if c < thresh then s
  else if spares s n = 0 then (if thresh ≤ c - 1 then s else pageRetire n page s)
  else
    let st := stack s n
    pageRetire n page (setStack n { st with pages := st.pages.filter (fun e => e.1 != page) } s)

/-- Is a line with these symbol errors beyond the code (R366)? -/
def beyondCode (mark : Option Nat) (errs : List SymErr) : Bool :=
  let e := errs.eraseDups
  match mark with
  | none => 8 < e.length
  | some d => 5 < (e.filter (fun x => x.die.val != d)).length

/-- The base die's findings on the lines of a page (R366, R367, R370): answers the uncorrectable lines among them, by
address within the stack.  An uncorrectable line stays so until it is replaced. -/
def findErrors (n page : Nat) (lines : List Nat) (errs : List SymErr) (s : State) : List Nat × State :=
  let mark := markedDie s n
  let errs := errs.eraseDups.filter (fun e => lines.contains e.line.val)
  let lineAddr := fun l => page * 4096 + 64 * l
  let isBad := fun l => (stack s n).bad.contains (lineAddr l) || beyondCode mark (errs.filter (fun e => e.line.val == l))
  let bad := (lines.filter isBad).map lineAddr
  let fixed := errs.filter (fun e => !isBad e.line.val)
  let q := n / 3
  let i := n % 3
  let st := stack s n
  let s := setStack n { st with bad := st.bad ++ bad.filter (fun b => !st.bad.contains b) } s
  let s := forEach bad (fun b s => memEvent 0x0603 clsPacket n b 0 0 0 (count1 (Ctr.igUncorr q i) s)) s
  if fixed.isEmpty then (bad, s)
  else
    let s := count (Ctr.igCorrSym q i) fixed.length (count1 (Ctr.igCorrAccess q i) s)
    let dies := fixed.map (·.die.val)
    let s := forEach dies.eraseDups (fun d s => pmcEvent q (45 + i) 0x064 d 1 s) s
    (bad, notePage n page (noteDies n dies s))

/-- SCRUB_READ: the scrubber reads a line; a correctable one is written back, an uncorrectable one is logged (R370). -/
def scrubRead (n line : Nat) (errs : List SymErr) (s : State) : State :=
  let ok := rb s (Reg.igCtrl (n / 3) (n % 3)) 30 && !stackGone s n && stackOnline s n
  if ok then
    let page := line / 64
    let here := errs.map (fun e => { e with line := Fin.ofNat 64 (line % 64) })
    (findErrors n page [line % 64] here (count1 (Ctr.igScrubbed (n / 3) (n % 3)) s)).2
  else s

/-- SCRUB_READ. -/
def execScrubRead (n : StackIx) (line : Nat) (errs : List SymErr) (s : State) : Host.Outcome State Fault Refusal :=
  .next (scrubRead n line errs s)

/-! ### Operations at the stack (R372) -/

/-- The new value of a word under an atomic. -/
def atomicWord (opcode w word a b : Nat) (signed : Bool) : Nat :=
  let a := a % 2 ^ w
  let less := fun x y => if signed then decide (toSigned w x < toSigned w y) else decide (x < y)
  if opcode = 0x10 || opcode = 0x11 then (word + a) % 2 ^ w
  else if opcode = 0x12 then (if word = b % 2 ^ w then a else word)
  else if opcode = 0x13 then a
  else if opcode = 0x14 then (if less a word then a else word)
  else if less word a then a else word

/-- A near-memory adder's new word (R258). -/
def accumWord (op w old : Nat) (first : Bool) (v : Nat) : Nat :=
  if first then v else if op = opSum then (old + v) % 2 ^ w else opJoin op old v

/-- Adds a contribution's integers to a block of accumulators at address a: element i in word i, little-endian (R258, log entry
67). -/
def accumulate (op w a : Nat) (xs : List (Nat × Bool × Nat)) (s : State) : State :=
  let n := w / 8
  forEach xs (fun x s =>
    memWrite (a + x.1 * n) (leBytes n (accumWord op w (leNat (memRead s (a + x.1 * n) n)) x.2.1 x.2.2)) s) s

/-- The effect of an operation on memory: the bytes it read (the value before, for an atomic). -/
def applyOp (a : Nat) (op : MemOp) (s : State) : List Byte × State :=
  match op with
  | .read n => (memRead s a n, s)
  | .accum o w xs => ([], accumulate o w a xs s)
  | .write bs => ([], memWrite a bs s)
  | .atomic o wide x y sg =>
    let n := if wide then 8 else 4
    let old := memRead s a n
    (old, memWrite a (leBytes n (atomicWord o (8 * n) (leNat old) x y sg)) s)

/-- Does the operation cover whole lines at every line it touches? -/
def coversLine (a : Nat) (op : MemOp) (l : Nat) : Bool :=
  match op with
  | .write bs => a % 4096 ≤ 64 * l && 64 * l + 64 ≤ a % 4096 + bs.length
  | _ => false

/-- Performs an operation at stack n with the symbol errors found: STATUS (0 or DATA_ERROR) and the bytes read (R370,
R372); a line that a write covers whole is not read. -/
def perform (n a : Nat) (op : MemOp) (errs : List SymErr) (s : State) : Nat × List Byte × State :=
  let page := stackPage s a
  let lines := accLines a op
  let (bad, s) := findErrors n page (lines.filter (fun l => !coversLine a op l)) errs s
  if bad ≠ [] then (5, [], s)
  else
    let st := stack s n
    let fresh := (lines.filter (coversLine a op)).map (fun l => page * 4096 + 64 * l)
    let s := setStack n { st with bad := st.bad.filter (fun b => !fresh.contains b) } s
    let (data, s) := applyOp a op s
    (0, data, s)

/-- Removes an access from its stack. -/
def dropAccess (n id : Nat) (s : State) : State :=
  let st := stack s n
  let alloy := st.accs.any (fun x => x.id == id && x.requester == 2)
  let s := setStack n { st with accs := eraseFirst (fun x => x.id == id) st.accs } s
  let s := if alloy then showAp (n / 3) s else s
  arbUses (.ig (Fin.ofNat 4 (n / 3)) (Fin.ofNat 3 (n % 3))) (grantedAccs s n).length s

/-! ### Long operations of wicks (R298, R300, R373) -/

/-! ### Answers of the service (R373, R374) -/

/-- The counter of a nonzero status. -/
def msErrCtr (q st : Nat) : Nat :=
  if st = 1 || st = 0x0A then Ctr.msErrReq q
  else if st = 2 || st = 6 then Ctr.msErrRegion q
  else if st = 8 || st = 9 then Ctr.msErrEpoch q
  else Ctr.msErrUnit q

/-- The counter of a request answered OK. -/
def msOkCtr (q opcode : Nat) : Nat :=
  if opcode = 1 then Ctr.msReads q else if opcode = 2 then Ctr.msWrites q else Ctr.msAtomics q

/-- Flits of the answer to a request, for which origin space is reserved before it goes to a stack (R166). -/
def answerFlits (h : List Byte) : Nat := if mOpcode h = 1 then 1 + (mRlen h + 63) / 64 else 1

/-- Where a request's answer goes: the link it came on, or the cluster of the quadrant whose wick sent it (R302). -/
def UPkt.answerTo (p : UPkt) : Dest :=
  match p.wick with
  | some (b, _) => .unit b .lx
  | none => .link p.link

/-- The packet with origin space for an answer of `n` flits reserved in quadrant q; none while there is none (R166). -/
def reserveAnswer (q n : Nat) (p : UPkt) (s : State) : Option (UPkt × State) :=
  (originCells s q n (originTarget p.answerTo).2).map (fun c => ({ p with resv := some c }, takeCells q n c s))

/-- Sends an answer: in the cells reserved for it, of which what it does not need is given back, or as any originated packet
(R166, R515). -/
def sendAnswer (q : Nat) (u : UnitDest) (p : UPkt) (reserved : Nat) (head payload : List Byte) (s : State) : State :=
  let d := match p.answerTo with
    | .unit b x => OriginDest.unit b x
    | .link k => .link k
    | .quad _ _ => .link p.link
  let r := { originReq u 70 d head payload s with wick := p.wick }
  match p.resv with
  | some c => originPut q r p.answerTo c (freePlain q c (reserved - hFlits head) s.time.l s)
  | none => (originate q r s).2

/-- Answers a request: a MEM_RSP to the link it came from, or to the wick whose operation it is. -/
def msAnswer (q : Nat) (p : UPkt) (st : Nat) (data : List Byte) (ecn combine : Bool) (s : State) : State :=
  let h := p.head
  let s := count1 (if st = 0 then msOkCtr q (mOpcode h) else msErrCtr q st) s
  let read := mOpcode h == 1
  let payload := if read && st = 0 then data else []
  let opa := if read || mOpcode h == 2 then 0 else leNat data
  let head := memRspHead s.fuses.epid.toNat h st payload.length opa ecn combine payload
  sendAnswer q .ms p (answerFlits h) head payload s

/-! ### The checks of R371 -/

/-- Bytes that a request touches. -/
def reqLen (h : List Byte) : Nat :=
  if mOpcode h = 1 then mRlen h else if mOpcode h = 2 then hPlen h else if mAsize h = 3 then 8 else 4

/-- The address of a request: bits [40:0] of ADDR (R127). -/
def reqAddr (h : List Byte) : Nat := mAddr h % 2 ^ 41

/-- R371's check 2. -/
def reqForm (h : List Byte) : Bool :=
  let o := mOpcode h
  let atomic := 0x10 ≤ o && o ≤ 0x15
  let a := reqAddr h
  let n := reqLen h
  (o = 1 || o = 2 || atomic) &&
  (!atomic || ((mAsize h = 2 || mAsize h = 3) && a % n = 0 && hPlen h = 0)) &&
  (o ≠ 1 || (1 ≤ mRlen h && mRlen h ≤ 4096 && hPlen h = 0)) &&
  (o ≠ 2 || (1 ≤ hPlen h && hPlen h ≤ 4096)) &&
  a % 4096 + n ≤ 4096 &&
  (o ≠ 0x11 || mAfmt h ≤ 5 || (mAfmt h = 0xA && mAsize h = 2) || (mAfmt h = 0xB && mAsize h = 3))

/-- The grid integer of a FADD_ALLOY operand, or the status that refuses it (R376). -/
def alloyOperand (afmt : Nat) (wide : Bool) (anchor : Int) (opa : Nat) : Nat ⊕ Int :=
  let F := gridF wide
  if afmt = 0xA || afmt = 0xB then
    let q := toSigned (accW wide) opa
    if q.natAbs ≤ 2 ^ F - 1 then .inr q else .inl 0x0A
  else
    match fpDecode afmt (opa % 2 ^ fmtBits afmt) 0 with
    | .nan => .inl 1
    | .inf _ => .inl 1
    | .zero _ => .inr 0
    | .fin neg m k =>
      let (q, fits) := gridRound F anchor neg m k
      if fits then .inr q else .inl 0x0A

/-- The operand of an atomic as its word's bits. -/
def reqOperand (h : List Byte) : Nat ⊕ Nat :=
  let wide := mAsize h = 3
  if mOpcode h = 0x11 then
    match alloyOperand (mAfmt h) wide (toSigned 16 (mAanchor h)) (mOpa h) with
    | .inl st => .inl st
    | .inr q => .inr (ofSigned (accW wide) q)
  else .inr (mOpa h % 2 ^ accW wide)

/-- The STATUS of the first failing check of a request at quadrant q's service, 0 when all pass (R371). -/
def reqCheck (s : State) (p : UPkt) : Nat :=
  let h := p.head
  let a := reqAddr h
  let o := mOpcode h
  if !fused s then 3
  else if !reqForm h then 1
  else
    match regionOf s a (reqLen h) with
    | none => 2
    | some r =>
      if rgnJob s r ≠ hJob h then 2
      else if !rb s (Reg.rgn0 r) (if o = 1 then 30 else if o = 2 then 29 else 28) then 2
      else if o ≠ 1 && rgnRole s r = 2 then 6
      else
        let e := if p.wick.isNone && rgnEfence s r then epochCmp s (hJob h) (hEpoch h) else 0
        if e = 1 then 9
        else if e = 2 then 8
        else if !stackOnline s (stackOf s a) then 4
        else match reqOperand h with
          | .inl st => if o = 0x11 then st else 0
          | .inr _ => 0

/-- The operation of a request. -/
def reqOp (p : UPkt) : MemOp :=
  let h := p.head
  let o := mOpcode h
  if o = 1 then .read (mRlen h)
  else if o = 2 then .write (p.payload.take (hPlen h))
  else
    let a := match reqOperand h with
      | .inl _ => 0
      | .inr x => x
    .atomic o (mAsize h = 3) a (mOpb h) (mSigned h)

/-! ### Combining (R379 to R382) -/

/-- COMBINE_WINDOW in cycles (MS_CFG). -/
def combineWindow (s : State) (q : Nat) : Nat := max 1 (min 256 (rf s (Reg.msCfg q) 8 0))

/-- The kind of entry a request opens: 0 READ, 1 FADD, 2 FADD_ALLOY; none when it is not combined (R380). -/
def combKind (s : State) (q : Nat) (h : List Byte) : Option Nat :=
  if !rb s (Reg.msCfg q) 31 || !hCombine h then none
  else if mOpcode h = 1 then some 0 else if mOpcode h = 0x10 then some 1 else if mOpcode h = 0x11 then some 2 else none

/-- Does an open entry match a request of this kind (R379, R380)? -/
def combMatches (now window : Nat) (kind : Nat) (h : List Byte) (c : Comb) : Bool :=
  !c.closed && c.kind == kind && c.addr == reqAddr h && 2 * (now - c.opened) ≤ window &&
  (if kind = 0 then c.size == mRlen h
   else if kind = 1 then c.size == mAsize h && c.mode == mSigned h
   else c.size == mAsize h && c.anchor == mAanchor h && c.mode == decide (mAfmt h ≤ 5))

/-- The operand of a member. -/
def combOperand (h : List Byte) : Nat :=
  match reqOperand h with
  | .inl _ => 0
  | .inr x => x

/-- The width in bits of an entry's word. -/
def Comb.width (c : Comb) : Nat := if c.size = 3 then 64 else 32

/-- Issues an entry's access; an add that is issued accepts no further member (R380). -/
def combIssue (q : Nat) (c : Comb) (s : State) : State :=
  let close := fun x : Comb => if x.id == c.id then { x with closed := x.closed || x.kind != 0 } else x
  let s := setMs q { ms s q with combs := (ms s q).combs.map close } s
  let op := if c.kind = 0 then MemOp.read c.size
    else .atomic 0x10 (c.size = 3) ((c.members.map (·.2)).sum % 2 ^ c.width) 0 false
  issueAccess 0 0 c.addr op (.comb q c.id) s

/-- Opens an entry; a READ's access is issued at once (R379). -/
def combOpen (q kind : Nat) (p : UPkt) (s : State) : State :=
  let h := p.head
  let m := ms s q
  let c : Comb := ⟨m.nextComb, kind, reqAddr h, if kind = 0 then mRlen h else mAsize h,
    if kind = 1 then mSigned h else decide (mAfmt h ≤ 5), if kind = 2 then mAanchor h else 0, s.time.l,
    [(p, if kind = 0 then 0 else combOperand h)], false⟩
  let s := setMs q { m with combs := m.combs ++ [c], nextComb := m.nextComb + 1 } s
  if kind = 0 then combIssue q c s else s

/-- COMBINE_JOIN: a request joins an open entry; the 64th member of an add issues it (R380). -/
def combJoin (q : Nat) (p : UPkt) (c : Comb) (s : State) : State :=
  let c' := { c with members := c.members ++ [(p, if c.kind = 0 then 0 else combOperand p.head)] }
  let s := setMs q { ms s q with combs := modifyFirst (fun x => x.id == c.id) (fun _ => c') (ms s q).combs } s
  if c.kind ≠ 0 && 64 ≤ c'.members.length then combIssue q c' s else s

/-- Do two byte ranges share a line? -/
def shareLine (a n b m : Nat) : Bool := a / 64 ≤ (b + m - 1) / 64 && b / 64 ≤ (a + n - 1) / 64

/-- Bytes of an entry. -/
def Comb.bytes (c : Comb) : Nat := if c.kind = 0 then c.size else c.width / 8

/-- A WRITE, or an atomic performed alone, closes the open entries of its lines (R381). -/
def combClose (q a n : Nat) (s : State) : State :=
  forEach ((openCombs s q).filter (fun c => shareLine c.addr c.bytes a n)) (fun c s =>
    if c.kind = 0 then
      setMs q { ms s q with combs := modifyFirst (fun x => x.id == c.id) (fun x => { x with closed := true }) (ms s q).combs } s
    else combIssue q c s) s

/-- COMBINE_WINDOW_EXPIRY: the add of an open entry is issued (R380). -/
def execCombineWindowExpiry (q : Quad) (id : Nat) (s : State) : Host.Outcome State Fault Refusal :=
  .next (match (ms s q).combs.find? (fun c => c.id == id && !c.closed && c.kind != 0) with
    | none => s
    | some c => if quadShut s q then s else showMs q (combIssue q c s))

/-- The value member i of an add receives (R380): the value before plus the operands of the members before it. -/
def combValue (c : Comb) (before i : Nat) : Nat := (before + ((c.members.take i).map (·.2)).sum) % 2 ^ c.width

/-- Answers every member of an entry (R373, R380, R382, R391). -/
def combAnswer (q : Nat) (c : Comb) (st : Nat) (data : List Byte) (s : State) : State :=
  let shared := 1 < c.members.length
  let ecn := c.members.any (fun m => hEcn m.1.head)
  let s := setMs q { ms s q with combs := (ms s q).combs.filter (fun x => x.id != c.id) } s
  let s := if st = 0 && shared then
      count (if c.kind = 0 then Ctr.msCombRd q else Ctr.msCombAt q) (c.members.length - 1) s else s
  forEach (c.members.zipIdx) (fun m s =>
    let d := if c.kind = 0 || st ≠ 0 then data else leBytes (c.width / 8) (combValue c (leNat data) m.2)
    msAnswer q m.1.1 st d ecn shared s) s

/-! ### MEM_REQ_SERVICE (R371, R377 to R381) -/

/-- Takes the head of the service's queue. -/
def msPop (q : Nat) (s : State) : State := setSw q { sw s q with msIn := (sw s q).msIn.drop 1 } s

/-- A request that has passed its checks, with a tag to spare or an entry to join. -/
def msPerform (q : Nat) (p : UPkt) (s : State) : Option State :=
  let h := p.head
  let window := combineWindow s q
  let tag := msTagsUsed s q < msPoolSize s q
  let join := (combKind s q h).bind (fun k => (ms s q).combs.find? (combMatches s.time.l window k h))
  match join with
  | some c => some (combJoin q p c (msPop q s))
  | none =>
    if !tag then none
    else
      let s := msPop q s
      match combKind s q h with
      | some k =>
        if (openCombs s q).length < 1024 then some (combOpen q k p s)
        else
          let s := if k = 0 then s else combClose q (reqAddr h) (reqLen h) s
          some (issueAccess 0 0 (reqAddr h) (reqOp p) (.request p) s)
      | none =>
        let s := if mOpcode h = 1 then s else combClose q (reqAddr h) (reqLen h) s
        some (issueAccess 0 0 (reqAddr h) (reqOp p) (.request p) s)

/-- Does a request need a table entry that is in repair (R487)? -/
def needsRepair (s : State) (q : Nat) (h : List Byte) (n : Nat) : Bool :=
  repairing s q 1 (hJob h) || (match regionOf s (reqAddr h) n with
    | some r => repairing s q 2 r || repairing s q 3 r
    | none => false)

/-- MEM_REQ_SERVICE: the request at the head of the queue leaves, or waits for a tag or for origin space (R166, R377). -/
def memReqService (q : Nat) (s : State) : State :=
  match (sw s q).msIn with
  | [] => s
  | p :: _ =>
    let st := reqCheck s p
    if needsRepair s q p.head (reqLen p.head) then s
    else if st ≠ 0 then msAnswer q p st [] (hEcn p.head) false (msPop q s)
    else
      match reserveAnswer q (answerFlits p.head) p s with
      | none => s
      | some (p, held) =>
        match msPerform q p held with
        | some s => showMs q s
        | none => count1 (Ctr.msTagWait q) s

/-- MEM_REQ_SERVICE. -/
def execMemReqService (q : Quad) (s : State) : Host.Outcome State Fault Refusal :=
  .next (if quadShut s q then s else memReqService q s)

/-! ### PEER writes (R138, R386) -/

/-- STATUS of a PEER_WR at its check, 0 when it is applied (R386). -/
def peerCheck (s : State) (q : Nat) (p : UPkt) : Nat :=
  let h := p.head
  let a := reqAddr h
  if homeQuad a ≠ q then 2
  else if !fused s then 3
  else if mOpcode h ≠ 2 || hPlen h = 0 || 4096 < hPlen h || 4096 < a % 4096 + hPlen h then 1
  else
    match regionOf s a (hPlen h) with
    | none => 2
    | some r =>
      if rgnJob s r ≠ hJob h then 2
      else if !stackOnline s (stackOf s a) then 4
      else if rgnRole s r ≠ 2 then 7
      else if rgnFiber s r ≠ linkFiber p.link then 7
      else 0

/-- Answers a PEER_WR. -/
def peerAnswer (q : Nat) (p : UPkt) (st : Nat) (s : State) : State :=
  let s := count1 (if st = 0 then Ctr.peerWrRxCnt q else Ctr.peerWrRefused q) s
  sendAnswer q .peerWr p 1 (peerAckHead s.fuses.epid.toNat p.head st) [] s

/-- PEER_WR_RX: the PEER_WR at the head of the queue is checked, then applied or refused; it stays in the queue while there is
no origin space for its PEER_ACK (R166). -/
def peerWrRx (q : Nat) (s : State) : State :=
  match (sw s q).peerIn with
  | [] => s
  | p :: rest =>
    let st := peerCheck s q p
    if needsRepair s q p.head (hPlen p.head) then s
    else
      let pop := setSw q { sw s q with peerIn := rest }
      if st ≠ 0 then peerAnswer q p st (pop s)
      else
        match reserveAnswer q 1 p s with
        | none => s
        | some (p, s) => issueAccess 0 0 (reqAddr p.head) (.write (p.payload.take (hPlen p.head))) (.peer q p) (pop s)

/-- PEER_WR_RX. -/
def execPeerWrRx (q : Quad) (s : State) : Host.Outcome State Fault Refusal :=
  .next (if quadShut s q then s else peerWrRx q s)

/-! ### Region and role writes (R307, R365, R386, R388) -/

/-- REJ_CAUSE of an entry with these words, 0 when it is accepted (R307, R365). -/
def rgnRejects (s : State) (r : Nat) (w1 w2 w3 w4 : Word) : Nat :=
  let base := fld w1 31 12 * 4096 + fld w2 8 0 * 2 ^ 32
  let size := fld w3 28 0 * 4096
  let overlaps := (List.range 256).any (fun i => i != r && rgnValid s i && base < rgnBase s i + rgnSize s i
    && rgnBase s i < base + size)
  let mask := (List.range 12).filter (flag w4)
  let ok := allPopulated s base size && (List.range 12).all (fun n => mask.contains n == (stacksOf s base size).contains n)
  if overlaps then 1
  else if 2 ^ 41 < base + size then 2
  else if size = 0 then 3
  else if !ok then 4
  else 0

/-- A write of RGN word 0 applies the staged words, or is rejected, which drops them (R307, R511). -/
def regionWrite (r : Nat) (v : Word) (s : State) : State :=
  let addrs := [Reg.rgn1 r, Reg.rgn2 r, Reg.rgn3 r, Reg.rgn4 r, Reg.rgn5 r]
  let st := addrs.map (stagedReg s)
  let cause := if flag v 31 then rgnRejects s r (st.getD 0 0) (st.getD 1 0) (st.getD 2 0) (st.getD 3 0) else 0
  if cause ≠ 0 then
    let s := forEach addrs (fun a s => { s with staged := Tbl.erase s.staged a }) s
    logSd 0x0502 clsInfo r r cause (setRf Reg.rgnStatus 3 0 cause (sqEvent Reg.rgnStatus 31 s))
  else
    let s := forEach addrs (fun a s => setReg a (stagedReg s a) { s with staged := Tbl.erase s.staged a }) s
    writeRw (Reg.rgn0 r) v s

/-- REGION_WRITE. -/
def execRegionWrite (r : RegionIx) (v : Word) (s : State) : Host.Outcome State Fault Refusal :=
  .next (regionWrite r v s)

/-- A write of RGN_MEM: a ROLE of 0b11 leaves ROLE unchanged; a change of ROLE is logged (R388, R392). -/
def roleWrite (r : Nat) (v : Word) (s : State) : State :=
  let old := rgnRole s r
  let new := if fld v 31 30 = 3 then old else fld v 31 30
  let s := setRb (Reg.rgnMem r) 29 (flag v 29) (setRf (Reg.rgnMem r) 31 30 new s)
  if new = old then s
  else
    let q := homeQuad (rgnBase s r)
    raise (64 * q + 35) (logEvent q 0x0606 clsInfo 7 0 (dataG r new) s)

/-- ROLE_WRITE. -/
def execRoleWrite (r : RegionIx) (v : Word) (s : State) : Host.Outcome State Fault Refusal := .next (roleWrite r v s)

/-! ### Stacks in and out of service (R389, R390) -/

/-- STACK_TRAINING_DONE: the stack stays in TRAINING and waits, HELD (R389, R464). -/
def execStackTrainingDone (n : StackIx) (s : State) : Host.Outcome State Fault Refusal :=
  let u := 20 + n.val
  .next (if stackGone s n || stackState s n ≠ stTraining || !(unitState s u = 3 || unitState s u = 2) then s
    else setUnitState u 5 0 s)

end Sys2Proof.Machine
end

