-- ==== Sys2Proof/Machine/FusedCore.lean ====
section
/-!
DEFINITION. Local vector SRAM, wicks by name, and the fused-instruction records: how a chunk's end reaches its instruction
and how an instruction ends (R331, R335, R337, R343, R359 to R361).
-/
namespace Sys2Proof.Machine

/-! ### Local vector SRAM and wicks -/

/-- Bytes of LS of an engine (R291). -/
def lsSize : Nat := 2 ^ 18

/-- `n` LS bytes of engine e of quadrant q from address a. -/
def lsRead (s : State) (q e a n : Nat) : List Byte :=
  (List.range n).map (fun i => Tbl.get 0 (lx s q).ls (lsSize * e + (a + i)))

/-- Writes LS bytes from address a on. -/
def lsWriteL (e a : Nat) : List Byte → Tbl Byte → Tbl Byte
  | [], t => t
  | b :: bs, t => lsWriteL e (a + 1) bs (Tbl.set 0 t (lsSize * e + a) b)

/-- Writes LS bytes of engine e of quadrant q. -/
def lsWrite (q e a : Nat) (bs : List Byte) (s : State) : State :=
  setLx q { lx s q with ls := lsWriteL e a bs (lx s q).ls } s

/-- A wick by quadrant, engine and number. -/
def wick (s : State) (q e w : Nat) : WickSt := Tbl.get WickSt.init (lx s q).wicks (32 * e + w)

/-- R294's codes. -/
def wkIdle : Nat := 0
def wkRun : Nat := 1
def wkWaitReg : Nat := 2
def wkWaitTag : Nat := 3
def wkWaitSyn : Nat := 4
def wkHalting : Nat := 5
def wkFault : Nat := 6
def wkKilling : Nat := 7

/-- Long operations of an engine. -/
def engineOps (s : State) (q e : Nat) : List LongOp := (lx s q).ops.filter (·.engine == e)

/-! ### LS transfers (R305) -/

/-- Do byte ranges meet? -/
def meets (a n b m : Nat) : Bool := a < b + m && b < a + n

/-- The LS ranges an operation reads, and those it writes. -/
def OpKind.sources : OpKind → List (Nat × Nat)
  | .igst l n => [(l, n)]
  | .pwr l n _ => [(l, n)]
  | .send l n _ => [(l, n)]
  | .hash l n _ _ _ _ => [(l, n)]
  | _ => []
def OpKind.targets : OpKind → List (Nat × Nat)
  | .igld l n => [(l, n)]
  | .recv l _ _ => [(l, 4160)]
  | .hash _ _ wide _ fin o => if fin then [(o, if wide then 64 else 32)] else []
  | _ => []

/-- Replaces the bytes of a range that lie in the given ranges by free bytes; `base` is the LS address of the first. -/
def spoil (base : Nat) (bs : List Byte) (ranges : List (Nat × Nat)) (s : State) : List Byte × State :=
  if ranges.any (fun r => meets base bs.length r.1 r.2) then
    let (fr, s) := freeBytes bs.length s
    (bs.zipIdx.map (fun b =>
      if ranges.any (fun r => r.1 ≤ base + b.2 && base + b.2 < r.1 + r.2) then fr.getD b.2 0 else b.1), s)
  else (bs, s)

/-- LS bytes as a program reads them: those a pending transfer writes are free (R305). -/
def lsLoad (q e a n : Nat) (s : State) : List Byte × State :=
  spoil a (lsRead s q e a n) (((engineOps s q e).map (·.kind.targets)).flatten) s

/-- LS bytes as operation `o` reads them: those another pending transfer writes, and those written since its issue, are
free (R305). -/
def lsLoadOp (q : Nat) (o : LongOp) (a n : Nat) (s : State) : List Byte × State :=
  spoil a (lsRead s q o.engine a n)
    ((((engineOps s q o.engine).filter (·.id != o.id)).map (·.kind.targets)).flatten ++ o.dirty) s

/-- A PEER_WR of this device that is still within it takes other payload bytes (R305): `tag` is its RTAG. -/
def spoilPeer (q tag off n : Nat) (s : State) : State :=
  let (fr, s) := freeBytes n s
  let w := sw s q
  let hit := fun (h : List Byte) => hKind h == 5 && mRtag h == tag && hSrc h == s.fuses.epid.toNat
  let put := fun (b : List Byte) => putBytes b off fr
  setSw q { w with
    originQ := w.originQ.map (fun o =>
      if hit o.head then { o with payload := put o.payload, head := sealHead o.head (put o.payload) } else o),
    pkts := w.pkts.map (fun o =>
      if hit o.head then { o with payload := put o.payload, head := sealHead o.head (put o.payload) } else o) } s

/-- Writes LS bytes: pending transfers that read or write them take undefined data there (R305). -/
def lsStore (q e a : Nat) (bs : List Byte) (s : State) : State :=
  let s := lsWrite q e a bs s
  let n := bs.length
  let hit := fun (o : LongOp) => o.engine == e && (o.kind.sources ++ o.kind.targets).any (fun r => meets a n r.1 r.2)
  let hits := (lx s q).ops.filter hit
  if hits.isEmpty then s
  else
    let s := forEach hits (fun o s => match o.kind with
      | .pwr l m tag => spoilPeer q (16384 * q + tag) (a - l) (min (a + n) (l + m) - max a l) s
      | _ => s) s
    let l := lx s q
    setLx q { l with ops := l.ops.map (fun o => if hit o then { o with dirty := (a, n) :: o.dirty } else o) } s

/-! ### Status and action error codes (R276, R337) -/

def csOk : Nat := 0x00
def csOkTrunc : Nat := 0x01
def csNoDesc : Nat := 0x03
def csEpochAhead : Nat := 0x04
def csSigMismatch : Nat := 0x10
def csAnchorMismatch : Nat := 0x11
def csBadFormat : Nat := 0x12
def csBadPartial : Nat := 0x13
def csOvercount : Nat := 0x14
def csDataError : Nat := 0x15
def csUnitLost : Nat := 0x16
def csUnitAbsent : Nat := 0x17
def csEpochFenced : Nat := 0x20
def csBcsIncomplete : Nat := 0x21

/-- Is a status OK or OK_TRUNC? -/
def csGood (st : Nat) : Bool := st ≤ 1

def aeNone : Nat := 0x00
def aeNoDesc : Nat := 0x01
def aeDescMismatch : Nat := 0x02
def aeBadOperand : Nat := 0x03
def aeNoTaskEngine : Nat := 0x04
def aeDupPost : Nat := 0x05
def aeTaskFault : Nat := 0x06
def aeReadError : Nat := 0x07
def aeWriteError : Nat := 0x08
def aeMirrorFail : Nat := 0x09
def aeGatherForm : Nat := 0x0A
def aeLpFail : Nat := 0x0B

/-- COL OP codes (R328). -/
def colCred : Nat := 1
def colCarb : Nat := 2
def colCrsu : Nat := 3
def colCbcs : Nat := 4
def colCgat : Nat := 5
def colCa2a : Nat := 6
def colCbar : Nat := 7

/-! ### The result word (R335) -/

/-- Adds a chunk end to a list in chunk order. -/
def insertEnd (e : ChunkEnd) : List ChunkEnd → List ChunkEnd
  | [] => [e]
  | x :: xs => if e.chunk < x.chunk then e :: x :: xs else x :: insertEnd e xs

/-- The result word of an instruction from its chunk ends so far: STATUS and AERR of the lowest-numbered chunks that have
one.  FAIL_CHUNK names STATUS's chunk before AERR's. -/
def resultWord (r : FiRec) : Nat :=
  match r.fail with
  | some (st, ae, d) => st + ae * 2 ^ 8 + d * 2 ^ 16 + 0xFFFFFFFF * 2 ^ 32
  | none =>
    let es := r.ends
    let bad := es.find? (fun e => !csGood e.status)
    let err := es.find? (fun e => e.aerr != 0)
    let st := match bad with
      | some e => e.status
      | none => if es.any (fun e => e.status == csOkTrunc) then csOkTrunc else csOk
    let fail := match bad, err with
      | some e, _ => e.chunk
      | none, some e => e.chunk
      | none, none => 0xFFFFFFFF
    st + ((err.map (·.aerr)).getD 0) * 2 ^ 8 + ((err.map (·.detail)).getD 0) * 2 ^ 16 + fail * 2 ^ 32

/-! ### Records (R331) -/

/-- Record ix of quadrant q. -/
def fiRec? (s : State) (q ix : Nat) : Option FiRec := Tbl.get none (fi s q).recs ix

/-- The eight words of FI_REC. -/
def fiRecWords (r : FiRec) : List Nat :=
  [2 ^ 31 + r.op * 2 ^ 28 + r.engine * 2 ^ 22 + r.wick * 2 ^ 17 + r.job, r.comm, r.seq, r.chunk0, r.nchunk, r.posted,
   r.ends.length, resultWord r % 2 ^ 24]

/-- FI_STATUS follows the records and the post queue. -/
def showFi (q : Nat) (s : State) : State :=
  let used := (fi s q).recs.length
  let s := setRf (Reg.fiStatus q) 8 0 used (setRb (Reg.fiStatus q) 31 (256 ≤ used) s)
  setRb (Reg.fiStatus q) 30 (1024 ≤ (fi s q).queue.length) s

/-- Writes or frees record ix; FI_REC shows it. -/
def setRec (q ix : Nat) (r : Option FiRec) (s : State) : State :=
  let s := setFi q { fi s q with recs := Tbl.set none (fi s q).recs ix r } s
  let words := match r with
    | some r => fiRecWords r
    | none => List.replicate 8 0
  showFi q (forRange 8 (fun j s => setReg (Reg.fiRec q ix j) (BitVec.ofNat 32 (words.getD j 0)) s) s)

/-- The lowest free record. -/
def freeRec (s : State) (q : Nat) : Option Nat := (List.range 256).find? (fun i => (fiRec? s q i).isNone)

/-- Has the issuing wick of a record been killed (R360)? -/
def fiKilled (s : State) (q : Nat) (r : FiRec) : Bool := (wick s q r.engine r.wick).state == wkKilling

/-- The digest written to PROV_OUT (R359). -/
def provDigest (r : FiRec) : List Byte :=
  sha3_256 (r.digest ++ (r.ends.map (fun e => leBytes 4 e.chunk ++ e.din ++ e.dw)).flatten)

/-- Ends the instruction of record ix with its result word (R335, R359, R360). -/
def fiFinish (q ix : Nat) (r : FiRec) (s : State) : State :=
  let w := resultWord r
  let good := csGood (w % 256) && w / 256 % 256 == 0
  let s := if r.prov && good && !fiKilled s q r then
      count1 (Ctr.provDone q) (lsStore q r.engine r.provOut (provDigest r) s) else s
  let s := count1 (Ctr.fiDone q) s
  let s := if w / 256 % 256 ≠ 0 then count1 (Ctr.fiAerr q) s else s
  opEnds q r.lop ⟨0, 0, leBytes 8 w⟩ (setRec q ix none s)

/-- Ends the instruction once every chunk is done and no release is awaited (R335, R343, R347). -/
def fiTry (q ix : Nat) (s : State) : State :=
  match fiRec? s q ix with
  | none => s
  | some r => if r.release.isNone && (r.fail.isSome || r.nchunk ≤ r.ends.length) then fiFinish q ix r s else s

/-- A chunk of the instruction that posted it is done (R335); its provenance record is written (R359). -/
def chunkDone (p : Post) (e : ChunkEnd) (s : State) : State :=
  match fiRec? s p.q p.ix with
  | none => s
  | some r =>
    let s := if r.prov && csGood e.status then
        lsStore p.q r.engine (r.provLs + (e.chunk - r.chunk0) * 64) (e.din ++ e.dw) s else s
    let r := { r with ends := insertEnd e r.ends, release := if csGood e.status then r.release else none }
    fiTry p.q p.ix (setRec p.q p.ix (some r) s)

/-- The entry of an action error (R361): it names the issuing engine and wick, the record, CHUNK and SEQ. -/
def logAction (q : Nat) (p : Post) (aerr : Nat) (s : State) : State :=
  let (e, w) := match fiRec? s p.q p.ix with
    | some r => (r.engine, r.wick)
    | none => (0, 0)
  logEvent q 0x0504 clsCollective 6 0 (dataW e w aerr p.ix (p.chunk + p.seq * 2 ^ 32)) s

/-- A chunk of an instruction ends with EPOCH_FENCED (R281, R332, R360). -/
def postFenced (p : Post) (s : State) : State :=
  chunkDone p ⟨p.chunk, csEpochFenced, 0, 0, zeroBytes 32, zeroBytes 32⟩ s

end Sys2Proof.Machine
end

