-- ==== Sys2Proof/Machine/CollReduce.lean ====
section
/-!
DEFINITION. Reduction inside a slot as functions of the slot: what a contribution, a partial and an exponent packet add, and
what a finished chunk converts to (R224 to R246, R253, R255, R264 to R267).
-/
namespace Sys2Proof.Machine

/-! ### The bound descriptor (COMM words 7, 8, 10, 11) -/

def SlotSt.action (x : SlotSt) : Nat := fld x.d1 31 28
def SlotSt.rfmt (x : SlotSt) : Nat := fld x.d1 27 24
def SlotSt.fmt (x : SlotSt) : Nat := fld x.d1 23 20
def SlotSt.op (x : SlotSt) : Nat := fld x.d1 19 16
def SlotSt.acc64 (x : SlotSt) : Bool := flag x.d1 15
def SlotSt.policy (x : SlotSt) : Nat := fld x.d1 14 13
def SlotSt.rmode (x : SlotSt) : Nat := fld x.d1 12 11
def SlotSt.sat (x : SlotSt) : Bool := flag x.d1 10
def SlotSt.a0 (x : SlotSt) : Int := toSigned 12 (fld x.d2 31 20)
def SlotSt.cap (x : SlotSt) : Nat := fld x.d2 14 0
/-- Accumulator width in bits. -/
def SlotSt.w (x : SlotSt) : Nat := accW x.acc64
/-- Is the chunk reduced under SCOUT? -/
def SlotSt.scout (x : SlotSt) : Bool := x.policy == 1 && x.cap != 0

/-- ACTION codes. -/
def actCarb : Nat := 0
def actCred : Nat := 1
def actCrsu : Nat := 2
def actCbcs : Nat := 3
def actCgat : Nat := 4
def actBar : Nat := 5

/-- SIG of R255: CRC-32C of the parameters' 8 bytes, XORed with SALT. -/
def sigOf (op fmt : Nat) (acc64 : Bool) (policy cap comm epoch salt : Nat) : Nat :=
  crc32c (leBytes 1 (op + 16 * fmt) ++ leBytes 1 (b2n acc64 + 2 * policy) ++ leBytes 2 cap ++ leBytes 2 comm ++
    leBytes 2 epoch) ^^^ salt

/-- The poisoning a descriptor causes at birth, 0 none (R234, R263, R266, R270). -/
def birthCause (x : SlotSt) (fused : Bool) : Nat :=
  if 5 < x.action then csBadFormat
  else if !fused && x.action != actCarb && x.action != actBar then csUnitAbsent
  else if x.rmode = 3 || 8 ≤ x.op || 2 ≤ x.policy then csBadFormat
  else if (if x.acc64 then 8192 else 16384) < x.cap then csBadFormat
  else if x.cap = 0 && !(x.op == opSum && x.fmt == 7 && x.acc64 && x.policy == 0) then csBadFormat
  else if !opAllowed x.op x.fmt x.acc64 x.policy x.rfmt then csBadFormat
  else 0

/-- Blocks of a chunk of capacity `cap` as it is born: anchor A0 under floating-point STATIC, else 0 (R229, R235). -/
def birthBlocks (x : SlotSt) : List BlockSt :=
  List.replicate ((x.cap + 255) / 256)
    ⟨if x.op = opSum && fmtFloat x.fmt && x.policy = 0 then x.a0 else 0, false, none, false, 0⟩

/-! ### Coverage (R224, R244, R264) -/

/-- Blocks that packet index p of the given FMT assigns, before the capacity limits them. -/
def SlotSt.assigned (x : SlotSt) (fmt p : Nat) : List Nat :=
  if fmt = 0xA then [3 * p, 3 * p + 1, 3 * p + 2]
  else if fmt = 0xB then [p]
  else
    let n := fmtPerPacket x.op x.fmt
    if n = 0 then [] else (List.range (max 1 (n / 256))).map (fun i => p * n / 256 + i)

/-- Blocks within the capacity that a packet covers. -/
def SlotSt.covers (x : SlotSt) (fmt p : Nat) : List Nat := (x.assigned fmt p).filter (· < x.blocks.length)

/-- Block j. -/
def SlotSt.block (x : SlotSt) (j : Nat) : BlockSt := x.blocks.getD j ⟨0, false, none, false, 0⟩

/-- Changes block j. -/
def SlotSt.setBlock (x : SlotSt) (j : Nat) (f : BlockSt → BlockSt) : SlotSt :=
  { x with blocks := listSet x.blocks j (f (x.block j)) }

/-- Adds `n` to the count of each block listed. -/
def SlotSt.addCounts (x : SlotSt) (js : List Nat) (n : Nat) : SlotSt :=
  js.foldl (fun x j => x.setBlock j (fun b => { b with count := b.count + n })) x

/-! ### Native elements (R226, R227, R233, R235 to R238) -/

/-- CEMAX with a further ceiling exponent. -/
def joinCe (m : Option Int) (ce : Int) : Option Int := some (match m with
  | none => ce
  | some c => max c ce)

/-- Adds an integer to the accumulator of element e, modulo 2^W. -/
def SlotSt.accAdd (x : SlotSt) (e : Nat) (i : Int) : SlotSt :=
  let old : Int := toSigned x.w ((Tbl.get none x.acc e).getD 0)
  { x with acc := Tbl.set none x.acc e (some (ofSigned x.w (old + i))) }

/-- What a spilled chunk's adders join to a word that held `old` and is to hold `new` (R258). -/
def accDelta (op w old new : Nat) : Nat :=
  if op = opSum then (new + 2 ^ w - old) % 2 ^ w else if op = opXor then old ^^^ new else new

/-- The words of block j that have changed from x to y, as the adders take them. -/
def SlotSt.deltas (x y : SlotSt) (j : Nat) : List (Nat × Bool × Nat) :=
  (List.range 256).filterMap (fun i =>
    match Tbl.get none x.acc (256 * j + i), Tbl.get none y.acc (256 * j + i) with
    | _, none => none
    | none, some new => some (i, true, new)
    | some old, some new => if old = new then none else some (i, false, accDelta x.op x.w old new))

/-- The accumulators from element e0 on as they have been read back; elements that no contribution supplied stay so (R258). -/
def SlotSt.withWords (x : SlotSt) (e0 : Nat) (data : List Byte) : SlotSt :=
  let n := x.w / 8
  { x with acc := (List.range (data.length / n)).foldl (fun t i =>
      if (Tbl.get none t (e0 + i)).isSome then Tbl.set none t (e0 + i) (some (leNat ((data.drop (i * n)).take n))) else t) x.acc }

/-- Joins a special code into element e. -/
def SlotSt.specJoin (x : SlotSt) (e c : Nat) : SlotSt := { x with spec := Tbl.set 0 x.spec e (Tbl.get 0 x.spec e ||| c) }

/-- Element e takes the value `bits` (with scale byte X): answers whether it set a special flag. -/
def SlotSt.addElem (x : SlotSt) (e bits scale : Nat) : SlotSt × Bool :=
  if x.op = opSum then
    if fmtInt x.fmt then (x.accAdd e (toSigned (fmtBits x.fmt) bits), false)
    else
      match elemValue x.fmt bits scale with
      | .zero _ => (x.accAdd e 0, false)
      | .nan => (x.specJoin e spNan, true)
      | .inf neg => (x.specJoin e (if neg then spNinf else spPinf), true)
      | .fin neg m k =>
        let (q, fits) := gridRound (gridF x.acc64) (x.block (e / 256)).anchor neg m k
        let x := x.setBlock (e / 256) (fun b =>
          { b with cemax := joinCe b.cemax (ceilExp m k), ovf := b.ovf || !fits })
        (if fits then x.accAdd e q else x, false)
  else if (x.op = opMin || x.op = opMax) && isNaN x.fmt bits then (x.specJoin e spNan, true)
  else
    let k := opEnter x.op x.fmt (bits % 2 ^ (if x.op = opArgMax || x.op = opArgMin then 32 else 64)) (bits / 2 ^ 32)
    let k := match Tbl.get none x.acc e with
      | none => k
      | some a => opJoin x.op a k
    ({ x with acc := Tbl.set none x.acc e (some k) }, false)

/-- Elements that a native payload of `len` bytes holds. -/
def nativeCount (op f len : Nat) : Nat :=
  if op = opArgMax || op = opArgMin then len / 8
  else if f = 6 then 2 * (len - 240)
  else if fmtBits f = 0 then 0 else len * 8 / fmtBits f

/-- What adding a packet gives: the slot, elements or words added, special elements, elements dropped beyond the capacity. -/
structure Added where
  slot : SlotSt
  elems : Nat
  specials : Nat
  dropped : Nat
  deriving DecidableEq, Repr

/-- May block j take part: in the second pass only its blocks do (R229)? -/
def SlotSt.takes (x : SlotSt) (j : Nat) : Bool := !x.pass2 || (x.block j).pass2

/-- Adds a native payload of packet index p (R264, R265).  Elements beyond the capacity count in the first pass. -/
def SlotSt.addNative (x : SlotSt) (p vcount : Nat) (payload : List Byte) : Added :=
  let n := fmtPerPacket x.op x.fmt
  (List.range (min n (nativeCount x.op x.fmt payload.length))).foldl (fun (r : Added) i =>
    let e := p * n + i
    if vcount ≤ e then r
    else if x.cap ≤ e then { r with dropped := r.dropped + b2n (!x.pass2) }
    else if !x.takes (e / 256) then r
    else
      let (bits, scale) := elemAt x.op x.fmt payload i
      let (y, sp) := r.slot.addElem e bits scale
      { r with slot := y, elems := r.elems + 1, specials := r.specials + b2n sp }) ⟨x, 0, 0, 0⟩

/-! ### Partials (R244 to R246) -/

/-- An entry of a partial's block table. -/
structure PartEntry where
  block : Nat
  ovf : Bool
  valid : Bool
  anchor : Int
  cemax : Option Int
  deriving DecidableEq, Repr

/-- Entry i of a block table. -/
def partEntry (payload : List Byte) (i : Nat) : PartEntry :=
  let b1 := byteAt payload (8 * i + 1)
  let ce := leAt payload (8 * i + 4) 2
  ⟨byteAt payload (8 * i), b1 % 2 == 1, b1 / 2 % 2 == 1, toSigned 16 (leAt payload (8 * i + 2) 2),
   if ce = 0x8000 then none else some (toSigned 16 ce)⟩

/-- The carried blocks of a partial; none when its length is not that of its layout.  PLEN 0 carries none (R265). -/
def partBlocks (acc64 : Bool) (payload : List Byte) : Option (List PartEntry) :=
  if payload.length = 0 then some []
  else
    let es := ((List.range 8).map (partEntry payload)).takeWhile (·.valid)
    if payload.length = 64 + es.length * 256 * (accW acc64 / 8) then some es else none

/-- The W-bit word of element i of the n-th carried block. -/
def partWord (acc64 : Bool) (payload : List Byte) (n i : Nat) : Nat :=
  let b := accW acc64 / 8
  leAt payload (64 + (n * 256 + i) * b) b

/-- The bound of a word that is no marker (R246). -/
def partBound (x : SlotSt) (ncontrib : Nat) : Nat :=
  if fmtInt x.fmt then ncontrib * 2 ^ (fmtBits x.fmt - 1) else ncontrib * (2 ^ gridF x.acc64 - 1)

/-- Is every word of a carried block within its bound, where its OVF is clear? -/
def partWordsOk (x : SlotSt) (ncontrib : Nat) (payload : List Byte) (es : List PartEntry) : Bool :=
  es.zipIdx.all (fun e => e.1.ovf || (List.range 256).all (fun i =>
    let w := partWord x.acc64 payload e.2 i
    (markerCode x.w w).isSome || (toSigned x.w w).natAbs ≤ partBound x ncontrib))

/-- Are the listed blocks among the assigned ones, in order (R244)? -/
def inOrderOf : List Nat → List Nat → Bool
  | [], _ => true
  | _ :: _, [] => false
  | b :: bs, a :: as => if b = a then inOrderOf bs as else inOrderOf (b :: bs) as

/-- The poisoning a partial causes, 0 none (R232, R246). -/
def partCause (x : SlotSt) (fmt p anchor ncontrib : Nat) (payload : List Byte) : Nat :=
  match partBlocks x.acc64 payload with
  | none => csBadPartial
  | some es =>
    if !inOrderOf (es.map (·.block)) (x.covers fmt p) then csBadPartial
    else if es.any (fun e => e.ovf && e.cemax.isNone) || !partWordsOk x ncontrib payload es then csBadPartial
    else
      let mine := es.filter (fun e => x.takes e.block)
      let pass := anchor / 2 ^ 15 % 2 == 1
      let a0 := toSigned 12 (anchor % 2 ^ 12)
      if pass != x.pass2 then csAnchorMismatch
      else if a0 ≠ (if x.policy = 0 then x.a0 else 0) then csAnchorMismatch
      else if mine.any (fun e => e.anchor ≠ (x.block e.block).anchor) then csAnchorMismatch
      else 0

/-- Adds a partial that has passed `partCause`; words at or beyond VCOUNT are ignored (R265). -/
def SlotSt.addPartial (x : SlotSt) (vcount : Nat) (payload : List Byte) : Added :=
  let es := (partBlocks x.acc64 payload).getD []
  es.zipIdx.foldl (fun (r : Added) en =>
    let e := en.1
    if !x.takes e.block then r
    else
      let y := r.slot.setBlock e.block (fun b =>
        { b with ovf := b.ovf || e.ovf, cemax := (match e.cemax with
            | none => b.cemax
            | some c => joinCe b.cemax c) })
      let drop := if x.pass2 then 0 else min vcount (256 * e.block + 256) - max x.cap (256 * e.block)
      if e.ovf then { r with slot := y, dropped := r.dropped + drop }
      else
        let y := (List.range 256).foldl (fun (y : SlotSt) i =>
          let w := partWord x.acc64 payload en.2 i
          let el := 256 * e.block + i
          if x.cap ≤ el || vcount ≤ el then y
          else match markerCode x.w w with
            | some c => y.specJoin el c
            | none => y.accAdd el (toSigned x.w w)) y
        ⟨y, r.elems + 256, r.specials, r.dropped + drop⟩) ⟨x, 0, 0, 0⟩

/-! ### Anchors (R229, R231, R232) -/

/-- Takes an exponent packet's entries: signed maxima per block, 0x8000 meaning none. -/
def SlotSt.addExponents (x : SlotSt) (payload : List Byte) : SlotSt :=
  (List.range (min x.blocks.length (payload.length / 2))).foldl (fun x j =>
    let v := leAt payload (2 * j) 2
    if v = 0x8000 then x else x.setBlock j (fun b => { b with cemax := joinCe b.cemax (toSigned 16 v) })) x

/-- An anchor as the block keeps it: 12 bits, signed (R228); of a CEMAX outside that range, which no packet that keeps R226
brings, its low bits (DESIGN CHOICE, log entry 66). -/
def anchor12 (ce : Option Int) : Int := toSigned 12 (ofSigned 12 ((ce.map (· + 1)).getD 0))

/-- The blocks once EXP ends: anchors one above the maxima, or 0 (R231). -/
def SlotSt.scoutAnchors (x : SlotSt) : SlotSt :=
  { x with blocks := x.blocks.map (fun b => { b with anchor := anchor12 b.cemax, cemax := none }) }

/-- Does any block of the first pass end with OVF set? -/
def SlotSt.anyOvf (x : SlotSt) : Bool := x.blocks.any (·.ovf)

/-- The slot as its second pass starts (R229, R267): overflowed blocks cleared, their anchor CEMAX + 1. -/
def SlotSt.startPass2 (x : SlotSt) : SlotSt :=
  let js := (List.range x.blocks.length).filter (fun j => (x.block j).ovf)
  { x with
    pass2 := true
    blocks := x.blocks.map (fun b =>
      if b.ovf then ⟨anchor12 b.cemax, false, none, true, 0⟩ else b)
    acc := Tbl.keep (fun e => !js.contains (e / 256)) x.acc
    spec := Tbl.keep (fun e => !js.contains (e / 256)) x.spec }

/-- Entries of an anchor packet: every block's anchor, or 0x8000 for a block not in the second pass (R232). -/
def SlotSt.anchorEntries (x : SlotSt) : List Byte :=
  (x.blocks.map (fun b => leBytes 2 (if x.pass2 && !b.pass2 then 0x8000 else ofSigned 16 b.anchor))).flatten

/-! ### Counts -/

/-- Is the pass complete (R264, R266, R267)? -/
def SlotSt.complete (x : SlotSt) : Bool :=
  if x.cap = 0 then x.expect ≤ x.count
  else x.blocks.all (fun b => x.expect ≤ b.count || (x.pass2 && !b.pass2))

/-- Has a poisoned chunk counted everything (R262)? -/
def SlotSt.counted (x : SlotSt) : Bool := x.complete && (!x.scout || x.expect ≤ x.expCount)

/-- COUNT of the completion record (R278). -/
def SlotSt.minCount (x : SlotSt) : Nat :=
  if x.cap = 0 then x.count else (x.blocks.map (·.count)).foldl min ((x.blocks.map (·.count)).headD 0)

/-! ### Conversion (R239 to R243, R356 to R358) -/

/-- The result's VCOUNT (R265). -/
def SlotSt.vcount (x : SlotSt) : Nat := min x.cap x.maxVc

/-- The random word of element e of the chunk in stream 0 (R356 to R358). -/
def SlotSt.random (x : SlotSt) (stream e : Nat) : Nat :=
  let g := x.chunk * x.cap + e
  match x.post with
  | some p => randomWord p.seed g p.step stream
  | none => randomWord x.salt g x.seq stream

/-- Element e of the result in RFMT; SAT acts on integer results (R235, R240). -/
def SlotSt.resultElem (x : SlotSt) (e : Nat) : Conv :=
  match spResult (Tbl.get 0 x.spec e), x.op == opSum || x.op == opMin || x.op == opMax with
  | some .nan, true => nanConv x.rfmt
  | some (.inf neg), true => infConv x.rfmt false neg
  | _, _ =>
    match Tbl.get none x.acc e with
    | none => ⟨some (opIdentity x.op x.rfmt), false, false, false, false⟩
    | some a =>
      if x.op = opSum then
        sumConv x.rfmt x.rmode (if x.rmode = 2 then x.random 0 e else 0) x.sat x.acc64 (x.block (e / 256)).anchor
          (toSigned x.w a)
      else ⟨some (opLeave x.op x.fmt a), false, false, false, false⟩

/-- The first `n` result elements. -/
def SlotSt.resultElems (x : SlotSt) (n : Nat) : List Conv := (List.range n).map x.resultElem

/-- Result elements as a native payload (R224). -/
def resultPayload (op rfmt : Nat) (cs : List Conv) : List Byte :=
  (cs.map (fun c => elemBytes op rfmt (c.bits.getD 0))).flatten

/-- The word of element e in an ALLOY result (R243, R244). -/
def SlotSt.resultWordAt (x : SlotSt) (e : Nat) : Nat :=
  match spResult (Tbl.get 0 x.spec e) with
  | some v => spMarker x.w v
  | none => (Tbl.get none x.acc e).getD 0

/-- The table entry of block j of an ALLOY result (R243). -/
def SlotSt.tableEntry (x : SlotSt) (j : Nat) : List Byte :=
  let b := x.block j
  leBytes 1 j ++ leBytes 1 2 ++ leBytes 2 (ofSigned 16 b.anchor) ++
    leBytes 2 ((b.cemax.map (ofSigned 16)).getD 0x8000) ++ zeroBytes 2

/-- The payload of packet p of an ALLOY result; empty when every element lies beyond VCOUNT (R243, R265). -/
def SlotSt.alloyPayload (x : SlotSt) (p : Nat) : List Byte :=
  let per := if x.acc64 then 1 else 3
  let js := ((List.range per).map (per * p + ·)).filter (· < x.blocks.length)
  if x.vcount ≤ 256 * per * p then []
  else
    padTo 64 ((js.map x.tableEntry).flatten) ++
      (js.map (fun j => ((List.range 256).map (fun i => leBytes (x.w / 8) (x.resultWordAt (256 * j + i)))).flatten)).flatten

/-- Cuts a native payload of results into its packets (R224); an empty one is one packet. -/
def resultPackets (op rfmt : Nat) (bs : List Byte) : List (List Byte) :=
  let per := fmtBytes op rfmt (fmtPerPacket op rfmt)
  if bs.isEmpty then [[]] else chunksOf per (bs.length / max 1 per + 1) bs

end Sys2Proof.Machine
end

