-- ==== Sys2Proof/Machine/ResultSlots.lean ====
section
/-!
DEFINITION. Result slots of BAR4: key, arming, filling and release (R437 to R442).
-/
namespace Sys2Proof.Machine

/-- Payload bytes a slot holds at most (R438). -/
def rsPayloadMax : Nat := 3968

/-- The bits of a KEY word that are kept: JOB, COMM, SEQ, CHUNK (R438). -/
def rsKeyMask (word : Nat) : Word := if word = 0 then 0xFFF else if word = 1 then 0xFFFF else 0xFFFFFFFF

/-- RS_KEY_WRITE: KEY is writable in EMPTY only (R438). -/
def rsKeyWrite (i word : Nat) (v : Word) (s : State) : State :=
  let x := rslot s i
  if x.state = .empty then setRslot i { x with key := listPut 4 0 x.key word (v &&& rsKeyMask word) } s else s

/-- RS_ARM: an EMPTY slot with the generation written becomes PENDING (R439). -/
def rsArm (i : Nat) (v : Word) (s : State) : State :=
  let x := rslot s i
  if x.state = .empty && flag v 31 && fld v 15 0 == x.gen.toNat then
    setRslot i { x with state := .pending, vecEn := flag v 30, vector := fld v 26 16 } s
  else count1 Ctr.rsArmErr s

/-- A slot returned to EMPTY with the next generation; its key stays (R439). -/
def RsSlot.released (x : RsSlot) : RsSlot := { RsSlot.init with gen := x.gen + 1, key := x.key }

/-- RS_RELEASE (R441). -/
def rsRelease (i : Nat) (v : Word) (s : State) : State :=
  let x := rslot s i
  if x.state ≠ .empty && fld v 15 0 == x.gen.toNat then setRslot i x.released s else count1 Ctr.rsRelErr s

/-- A slot filled with a record, and with a payload where the chunk completed (R440). -/
def RsSlot.filled (x : RsSlot) (record payload : List Byte) (ok : Bool) : RsSlot :=
  if ok then { x with state := .ready, trunc := rsPayloadMax < payload.length, len := min rsPayloadMax payload.length,
                      record := record, payload := payload.take rsPayloadMax }
  else { x with state := .error, trunc := false, len := 0, record := record, payload := [] }

/-- RESULT_SLOT_FILL: every PENDING slot with the chunk's key is filled, and its vector sent (R439, R440). -/
def fillSlots (key : List Word) (record payload : List Byte) (ok : Bool) (s : State) : State :=
  forEach (s.host.slots.filter (fun e => e.2.state == .pending && e.2.key == key)) (fun e s =>
    let s := setRslot e.1 (e.2.filled record payload ok) (count1 Ctr.rsFills s)
    if e.2.vecEn then sendMsix e.2.vector s else s) s

/-- A read of HDR (R438). -/
def rsHdr (x : RsSlot) : Nat :=
  let st := match x.state with
    | .empty => 0
    | .pending => 1
    | .ready => 2
    | .error => 3
  x.gen.toNat * 2 ^ 16 + st * 2 ^ 14 + b2n x.trunc * 2 ^ 13 + x.len

end Sys2Proof.Machine
end

