-- ==== Sys2Proof/Machine/Collective.lean ====
section
/-!
DEFINITION. The collective engine: slots and births, arrivals, second passes, poisoning, results, completion records, epochs
and fences, barriers and acknowledged broadcast (R248 to R290, R338 to R343).
-/
namespace Sys2Proof.Machine

/-! ### Communicators (R249 to R252, R261) -/

def commJob (s : State) (c : Nat) : Nat := rf s (Reg.comm0 c) 27 16
def commMin (s : State) (c : Nat) : Nat := rf s (Reg.comm3 c) 11 0

/-- The valid entries: those whose word 0 has been written with VALID. -/
def validComms (s : State) : List Nat :=
  s.regs.filterMap (fun e =>
    let o := e.1 - Reg.comm0 0
    if Reg.comm0 0 ≤ e.1 && o < 4096 * 0x40 && o % 0x40 == 0 && flag e.2 31 then some (o / 0x40) else none)

/-- QSPAN as it acts. -/
def spanOf (w0 : Word) : Nat := if fld w0 13 12 = 1 then 2 else if fld w0 13 12 = 2 then 4 else 1

/-- Does a communicator with word 0 `w0` reduce chunks in quadrant q? -/
def servedIn (w0 : Word) (q : Nat) : Bool := (List.range (spanOf w0)).any (fun i => (fld w0 15 14 + i) % 4 == q)

/-- The valid descriptor of sequence `seq` (R252): false DESC0, true DESC1. -/
def selectDesc (s : State) (c seq : Nat) : Option Bool :=
  let v := Tbl.get 0 s.descs c
  let d := fun a => (seq + 2 ^ 32 - (reg s a).toNat) % 2 ^ 32
  let d0 := d (Reg.comm6 c)
  let d1 := d (Reg.comm9 c)
  let ok0 := v % 2 == 1 && d0 < 2 ^ 31
  let ok1 := v / 2 == 1 && d1 < 2 ^ 31
  if ok0 && (!ok1 || d0 ≤ d1) then some false else if ok1 then some true else none

/-- Words 1 and 2 of a descriptor. -/
def descWords (s : State) (c : Nat) (d : Bool) : Word × Word :=
  if d then (reg s (Reg.comm10 c), reg s (Reg.comm11 c)) else (reg s (Reg.comm7 c), reg s (Reg.comm8 c))

/-! ### Slot records and spill slots (R256, R257) -/

/-- Record r of quadrant q. -/
def slotAt (s : State) (q r : Nat) : Option SlotSt := Tbl.get none (ce s q).slots r

/-- Bytes of a spill slot. -/
def spillBytes : Nat := 81920

/-- SPILL_SLOTS as it acts with the given value and base (R256, CE_SPILL_BASE). -/
def spillActs (s : State) (q n base : Nat) : Nat :=
  let n := min n 3072
  if fused s && partCode s ≠ 3 && homeQuad base == q && allPopulated s base (n * spillBytes) then n else 0

/-- Spill slots the quadrant has. -/
def spillCount (s : State) (q : Nat) : Nat := spillActs s q (ce s q).spill (ce s q).spillBase

/-- Byte address of spill record r. -/
def spillAddr (s : State) (q r : Nat) : Nat := (ce s q).spillBase + (r - 1024) * spillBytes

/-- Is spill record r free (R256)? -/
def spillFree (s : State) (q r : Nat) : Bool :=
  (slotAt s q r).isNone && (stacksOf s (spillAddr s q r) spillBytes).all (stackOnline s)

/-- The free spill records. -/
def freeSpills (s : State) (q : Nat) : List Nat :=
  ((List.range (spillCount s q)).map (1024 + ·)).filter (spillFree s q)

/-- The records in use, in order. -/
def usedSlots (s : State) (q : Nat) : List (Nat × SlotSt) :=
  (ce s q).slots.filterMap (fun e => e.2.map (fun x => (e.1, x)))

/-- Free SRAM slots. -/
def sramFree (s : State) (q : Nat) : Nat := 1024 - ((usedSlots s q).filter (fun e => e.1 < 1024)).length

/-- held(c) of R257. -/
def heldBy (s : State) (q c : Nat) : Nat := ((usedSlots s q).filter (fun e => e.2.comm == c)).length

/-- OWED of R257. -/
def owed (s : State) (q : Nat) : Nat :=
  (((validComms s).filter (fun c => servedIn (reg s (Reg.comm0 c)) q)).map (fun c => commMin s c - heldBy s q c)).sum

/-- Records in the completion ring, PI − CI modulo 8,192 (R188, R278). -/
def crFill (s : State) (q : Nat) : Nat := (rf s (Reg.ceCrPi q) 12 0 + 8192 - rf s (Reg.ceCrCi q) 12 0) % 8192

/-- CE_STATUS, CE_FREE and CE_OWED follow the engine. -/
def showCe (q : Nat) (s : State) : State :=
  let sram := sramFree s q
  let spill := (freeSpills s q).length
  let s := setRf (Reg.ceFree q) 10 0 sram (setRf (Reg.ceFree q) 27 16 spill s)
  let s := setRf (Reg.ceOwed q) 12 0 (owed s q) s
  let a := Reg.ceStatus q
  let s := setRb a 4 ((usedSlots s q).any (·.2.fenced)) s
  let s := setRb a 3 (crFill s q == 4096) s
  let s := setRb a 2 ((fi s q).queue != []) s
  let s := setRb a 1 (0 < spillCount s q && spill == 0) s
  setRb a 0 (sram == 0) s

/-- The four words of CE_SLOT. -/
def slotWords (r : Nat) (x : SlotSt) : List Nat :=
  [x.state * 2 ^ 28 + b2n (1024 ≤ r) * 2 ^ 27 + b2n x.post.isSome * 2 ^ 26 + b2n x.pass2 * 2 ^ 25 + x.job,
   x.seq, x.chunk, x.epoch * 2 ^ 16 + x.comm]

/-- Writes or frees record r; CE_SLOT and the status follow. -/
def setSlot (q r : Nat) (x : Option SlotSt) (s : State) : State :=
  let s := setCe q { ce s q with slots := Tbl.set none (ce s q).slots r x } s
  let words := match x with
    | some x => slotWords r x
    | none => [0, 0, 0, 0]
  showCe q (forRange 4 (fun j s => setReg (Reg.ceSlot q r j) (BitVec.ofNat 32 (words.getD j 0)) s) s)

/-- SPILL_SLOTS and CE_SPILL_BASE are applied once no spill slot is in use (R261). -/
def applySpill (q : Nat) (s : State) : State :=
  if (usedSlots s q).any (fun e => 1024 ≤ e.1) then s
  else
    let base := rf s (Reg.ceSpillBaseLo q) 31 12 * 4096 + rf s (Reg.ceSpillBaseHi q) 8 0 * 2 ^ 32
    showCe q (setCe q { ce s q with spill := rf s (Reg.ceCfg q) 11 0, spillBase := base } s)

/-- The live chunk of a key, fenced ones left out. -/
def findSlot (s : State) (q job comm seq chunk : Nat) : Option (Nat × SlotSt) :=
  (usedSlots s q).find? (fun e => !e.2.fenced && e.2.job == job && e.2.comm == comm && e.2.seq == seq && e.2.chunk == chunk)

/-! ### Packets sent down (R263, R271, R272, R287, R512) -/

/-- A VC4 header of a chunk (R272). -/
def downHead (s : State) (x : SlotSt) (fmt idx total vcount ncontrib anchor cstatus : Nat) (last scout repair : Bool)
    (payload : List Byte) : List Byte :=
  sealHead (commonHead x.downDst s.fuses.epid.toNat 4 0 3 x.job x.epoch 0 payload.length (b2n last) ++
    collClass x.comm x.seq x.chunk ncontrib idx total vcount (x.op + 16 * fmt)
      (b2n x.acc64 + 2 * x.policy + 8 * b2n scout + 16 * x.rmode + 64 * b2n repair + 128 * b2n x.sat)
      anchor x.home ((x.sigs.map (·.1)).headD 0) cstatus) payload

/-- Sends a packet of the slot's chunk down its group. -/
def sendDown (q r : Nat) (x : SlotSt) (head payload : List Byte) (s : State) : State :=
  (originate q { originReq .ce (62 + r % 8) (.group x.downGrp) head payload s with bad := x.stomp } s).2

/-- An error completion (R271, R274). -/
def sendError (q r : Nat) (x : SlotSt) (cause : Nat) (s : State) : State :=
  sendDown q r x (downHead s x x.fmt 0 0 0 0 0 cause false false false []) [] s

/-- The anchor packet of SCOUT or of a second pass (R229, R231, R232, R512). -/
def sendAnchors (q r : Nat) (x : SlotSt) (s : State) : State :=
  let pl := x.anchorEntries
  sendDown q r x (downHead s x x.fmt 0 1 0 0 (b2n x.pass2 * 2 ^ 15 + x.blocks.length) csOk true true false pl) pl s

/-- The completion status of a chunk that completed (R276). -/
def SlotSt.good (x : SlotSt) : Nat := if x.ovfDrop = 0 then csOk else csOkTrunc

/-- Sends result packets with the given payloads, FMT, VCOUNT and ANCHOR (R272). -/
def sendResults (q r : Nat) (x : SlotSt) (fmt vcount anchor : Nat) (pls : List (List Byte)) (s : State) : State :=
  let total := pls.length
  let s := count (Ctr.resultPkts q) total s
  forEach pls.zipIdx (fun p s =>
    sendDown q r x (downHead s x fmt p.2 total vcount x.expect anchor x.good (p.2 + 1 == total) false false p.1) p.1 s) s

/-- The completion packet of CRED and CGAT (R339, R340). -/
def sendCompletion (q r : Nat) (x : SlotSt) (s : State) : State :=
  sendDown q r x (downHead s x x.rfmt 0 1 x.vcount x.expect 0 x.good true false false []) []
    (count1 (Ctr.resultPkts q) s)

/-- A RETRY answer on the link the contribution came on (R259). -/
def sendRetry (q : Nat) (p : UPkt) (cstatus : Nat) (s : State) : State :=
  (originate q (originReq .ce 62 (.link p.link) (retryHead s.fuses.epid.toNat p.head cstatus) [] s) s).2

/-! ### Completion records (R278, R279) -/

/-- The 64 bytes of a record. -/
def recordBytes (s : State) (r : Nat) (x : SlotSt) (status ext : Nat) : List Byte :=
  let minor := (x.sigs.drop 1).map (·.1)
  leBytes 2 x.job ++ leBytes 2 x.comm ++ leBytes 4 x.seq ++ leBytes 4 x.chunk ++ leBytes 1 status ++
    leBytes 1 (b2n (1024 ≤ r) + 2 * b2n x.pass2 + 4 * b2n ((x.post.map (·.repair)).getD false) + 8 * b2n x.posted) ++
    leBytes 2 x.epoch ++ leBytes 3 x.minCount ++ leBytes 1 ext ++ leBytes 4 x.ovfDrop ++ leBytes 8 (x.tFirst.getD 0) ++
    leBytes 8 (x.tLast.getD 0) ++ leBytes 2 x.lastLink ++ leBytes 2 x.lastMember ++ leBytes 8 (devTicks s) ++
    ((List.range 3).map (fun i => leBytes 4 (minor.getD i 0))).flatten

/-- A 1,024-bit bitmap of links as two extension records. -/
def linkBitmap (links : List Nat) : List (List Byte) :=
  chunksOf 64 2 ((List.range 128).map (fun i =>
    BitVec.ofNat 8 (((List.range 8).map (fun b => if links.contains (8 * i + b) then 2 ^ b else 0)).sum)))

/-- The extension records of a SIG_MISMATCH record (R278). -/
def recordExts (x : SlotSt) (status : Nat) : List (List Byte) :=
  if status = csSigMismatch then ((x.sigs.drop 1).map (fun g => linkBitmap g.2)).flatten else []

/-- The collective event interrupt of R290 by R190's rules. -/
def crInterrupt (q : Nat) (s : State) : State :=
  if max 1 (rf s (Reg.ceCrThresh q) 12 0) ≤ crFill s q then
    if (ce s q).fired then s else raise (64 * q + 34) (setCe q { ce s q with fired := true } s)
  else setCe q { ce s q with fired := false } s

/-- Puts records into the completion ring; a group that does not fit is lost whole (R278). -/
def crPut (q : Nat) (recs : List (List Byte)) (s : State) : State :=
  if 4096 < crFill s q + recs.length then count1 (Ctr.crDrop q) s
  else
    let s := forEach recs (fun b s =>
      let pi := rf s (Reg.ceCrPi q) 12 0
      let s := setCe q { ce s q with ring := Tbl.set (zeroBytes 64) (ce s q).ring (pi % 4096) b } s
      setRf (Reg.ceCrPi q) 12 0 (pi + 1) s) s
    crInterrupt q (showCe q s)

/-- Forms a completion record (R278): to the ring with CR_EN, and to every result slot armed for its key. -/
def formRecordExt (q r : Nat) (x : SlotSt) (status : Nat) (exts : List (List Byte)) (s : State) : State :=
  let b := recordBytes s r x status exts.length
  let s := if rb s (Reg.ceCfg q) 31 then crPut q (b :: exts) s else s
  let ok := csGood status
  fillSlots [BitVec.ofNat 32 x.job, BitVec.ofNat 32 x.comm, BitVec.ofNat 32 x.seq, BitVec.ofNat 32 x.chunk] b
    (if ok then x.result else []) ok s

/-- Forms a record with the extensions its status gives. -/
def formRecord (q r : Nat) (x : SlotSt) (status : Nat) (s : State) : State :=
  formRecordExt q r x status (recordExts x status) s

/-- The arrival spread of a completed chunk: CE_HIST and monitors of KIND 3 (R279, R476). -/
def noteSpread (q : Nat) (x : SlotSt) (s : State) : State :=
  let spread := x.tLast.getD 0 - x.tFirst.getD 0
  let a := Reg.ceHist q x.comm (min 31 (bitLength spread))
  let s := setReg a (BitVec.ofNat 32 (min 0xFFFFFFFF ((reg s a).toNat + 1))) s
  monEvent q 3 (· == x.comm) spread s

/-! ### Releases and held barriers (R262, R263, R286, R287) -/

/-- Ends a chunk for the instruction that posted it, once (R335). -/
def tellPost (x : SlotSt) (status : Nat) (s : State) : State :=
  match x.post, x.told with
  | some p, false => chunkDone p ⟨x.chunk, status, x.aerr, x.detail, x.din, x.dw⟩ s
  | _, _ => s

/-- Sends a Beacon release (R287), noting T for the instruction that waits for it (R343). -/
def sendRelease (q r : Nat) (x : SlotSt) (s : State) : State :=
  let t := devTicks s + rf s (Reg.ceBeacon q) 23 0
  let pl := leBytes 8 t ++ zeroBytes 8
  let s := match x.post with
    | none => s
    | some p => match fiRec? s p.q p.ix with
      | none => s
      | some fr =>
        let s := if fiKilled s p.q fr then s else lsStore p.q fr.engine (fr.block + 48) (leBytes 8 t) s
        setRec p.q p.ix (some { fr with release := some t }) s
  let x := { x with state := 5, result := pl }
  let s := setSlot q r (some x) (count1 (Ctr.resultPkts q) s)
  sendDown q r x (downHead s x x.fmt 0 1 0 x.expect 0 csOk true false false pl) pl s

/-- JOB_HOLD of a job. -/
def jobHold (s : State) (j : Nat) : Bool := rb s (Reg.jobEpoch j) 31

/-- JOB_HOLD clears and the held barriers of the job send their releases (R286, R287). -/
def clearHold (j : Nat) (s : State) : State :=
  let s := setRb (Reg.jobEpoch j) 31 false s
  forRange 4 (fun q s => forEach (usedSlots s q) (fun e s =>
    if e.2.state = 8 && e.2.job = j && !e.2.fenced then sendRelease q e.1 e.2 s else s) s) s

/-- Is some chunk of the job still short of a full count after BCS_HOLD (R286)? -/
def anyHeld (s : State) (j : Nat) : Bool :=
  (List.range 4).any (fun q => (usedSlots s q).any (fun e => e.2.job == j && e.2.wasHeld))

/-- The key of a chunk. -/
def SlotSt.key (x : SlotSt) : List Nat := [x.job, x.comm, x.seq, x.chunk]

/-- A released chunk leaves its key the drops it has logged, so that none is logged twice for it (R251, R290). -/
def leaveKey (q : Nat) (x : SlotSt) (s : State) : State :=
  let mine := (if x.nmLogged then [(false, true, x.key)] else []) ++ (if x.lateLogged then [(true, true, x.key)] else [])
  if mine.isEmpty then s
  else setCe q { ce s q with logged := mine ++ (ce s q).logged.filter (fun e => !mine.any (fun m => m.1 == e.1 && m.2.2 == e.2.2)) } s

/-- A chunk as it is born takes the drops already logged for its key, those of an earlier chunk of that key apart (R290). -/
def takeKey (q : Nat) (x : SlotSt) (s : State) : SlotSt × State :=
  let l := (ce s q).logged
  let has := fun late => l.contains (late, false, x.key)
  ({ x with nmLogged := has false, lateLogged := has true },
    setCe q { ce s q with logged := l.filter (fun e => e.2.2 != x.key) } s)

/-- Releases a slot with the given status: its record, its instruction's count, and what the release frees (R262, R278,
R286, R335). -/
def releaseSlot (q r : Nat) (x : SlotSt) (status : Nat) (s : State) : State :=
  let s := formRecord q r x status s
  let s := if csGood status then noteSpread q x (count1 (Ctr.chunksDone q) s) else s
  let s := leaveKey q x (applySpill q (setSlot q r none s))
  let s := tellPost x status s
  if x.wasHeld && !anyHeld s x.job then clearHold x.job s else s

/-! ### Poisoning (R270, R271) -/

/-- The Ember entry of a chunk (layout K). -/
def logChunk (q code cls : Nat) (x : SlotSt) (status extra : Nat) (s : State) : State :=
  logEvent q code cls 6 0 (dataK x.job x.comm x.seq x.chunk status extra) s

/-- Releases a poisoned chunk once every count has reached EXPECT and its post has arrived (R262). -/
def poisonRelease (q r : Nat) (s : State) : State :=
  match slotAt s q r with
  | none => s
  | some x => if x.state = 9 && !x.fenced && x.counted && (!x.posted || x.post.isSome) then releaseSlot q r x x.cause s else s

/-- Poisons a chunk: accumulators discarded, error completion, record and log entries (R271, R290). -/
def poison (q r : Nat) (x : SlotSt) (cause : Nat) (s : State) : State :=
  let x := { x with state := 9, cause := cause, acc := [], spec := [], stage := 0, gather := [] }
  let s := count1 (Ctr.poisoned q) s
  let s := if cause = csAnchorMismatch then count1 (Ctr.anchorErr q) s
    else if cause = csBadFormat || cause = csBadPartial then count1 (Ctr.fmtErr q) s else s
  let s := sendError q r x cause (setSlot q r (some x) s)
  let s := logChunk q 0x0401 clsCollective x cause 0 (formRecord q r x cause s)
  if cause = csSigMismatch then
    forEach (x.sigs.drop 1) (fun g s =>
      logEvent q 0x0402 clsCollective 6 0 (dataS g.1 x.chunk x.comm g.2.length (g.2.foldl min (g.2.headD 0))) s) s
  else s

/-- May a chunk in this state be poisoned (R270)? -/
def poisonable (st : Nat) : Bool := 1 ≤ st && st ≤ 4

/-! ### Births (R253, R257, R263) -/

/-- The record a birth takes, if it may have one (R257). -/
def birthSlot (s : State) (q c : Nat) : Option Nat :=
  let used := (usedSlots s q).map (·.1)
  let sram := (List.range 1024).find? (fun r => !used.contains r)
  let spills := freeSpills s q
  let free := sramFree s q + spills.length
  let held := heldBy s q c
  let ok := if held < commMin s c then 0 < free else held < rf s (Reg.comm3 c) 23 12 && owed s q < free
  if ok then (match sram with
    | some r => some r
    | none => spills.head?) else none

/-- The chunk as it is born from entry c with the descriptor's words (R253). -/
def bornSlot (s : State) (job c seq chunk : Nat) (d1 d2 : Word) : SlotSt :=
  let x : SlotSt := {
    state := 2, job := job, comm := c, seq := seq, chunk := chunk, epoch := rf s (Reg.jobEpoch job) 15 0,
    expect := max 1 (rf s (Reg.comm1 c) 20 0), downGrp := rf s (Reg.comm0 c) 11 0, downDst := rf s (Reg.comm2 c) 23 0,
    home := rf s (Reg.comm4 c) 15 0, salt := (reg s (Reg.comm5 c)).toNat, slotMin := commMin s c,
    slotMax := rf s (Reg.comm3 c) 23 12, d1 := d1, d2 := d2, posted := false, sigs := [], blocks := [], count := 0,
    expCount := 0, acc := [], spec := [], maxVc := 0, ovfDrop := 0, pass2 := false, tFirst := none, tLast := none,
    lastLink := 0, lastMember := 0, lateLogged := false, cause := 0, post := none, acked := [], wasHeld := false,
    told := false, nmLogged := false, gather := [], data := [], stage := 0, aerr := 0, detail := 0,
    gatherLogged := false, stopped := false, fenced := false, result := [], tasks := [],
    din := zeroBytes 32, dw := zeroBytes 32 }
  let x := { x with
    sigs := [(sigOf x.op x.fmt x.acc64 x.policy x.cap c x.epoch x.salt, [])],
    posted := flag d1 9 && fused s && x.action ≤ 5, blocks := birthBlocks x }
  { x with state := if x.scout then 1 else 2 }

/-- A birth in record r: counted, and poisoned where its descriptor is bad (R234, R263). -/
def birth (q r : Nat) (x : SlotSt) (s : State) : State :=
  let s := count1 (Ctr.chunksBorn q) s
  let s := if 1024 ≤ r then count1 (Ctr.spills q) s else s
  let cause := birthCause x (fused s)
  let (x, s) := takeKey q x s
  let s := setSlot q r (some x) s
  if cause = 0 then s else poison q r x cause s

/-! ### Delivery (R263, R338 to R343) -/

/-- The quadrant and record an access is made for. -/
def AccOwner.slot? : AccOwner → Option (Nat × Nat)
  | .slot q r _ => some (q, r)
  | .spill q r => some (q, r)
  | .load q r _ _ _ => some (q, r)
  | .back q r _ _ _ => some (q, r)
  | _ => none

/-- The accesses in progress for record r. -/
def slotAccs (s : State) (q r : Nat) : List Access := (quadAccs s q).filter (fun a => a.owner.slot? == some (q, r))

/-- PEER_ACKs that record r awaits. -/
def slotAcks (s : State) (q r : Nat) : Nat := ((peers s q).out.filter (fun e => e.2.2 == AckOwner.slot r)).length

/-- Bytes from address a cut at 4 KiB boundaries, as (address, length). -/
def pageCuts (a n : Nat) : List (Nat × Nat) :=
  if n = 0 then [] else
  let first := min n (4096 - a % 4096)
  (a, first) :: ((List.range ((n - first + 4095) / 4096)).map (fun i => (a + first + 4096 * i, min 4096 (n - first - 4096 * i))))

/-- Issues reads of a range for record r, by offset in the action's data. -/
def slotRead (q r requester a n : Nat) (s : State) : State :=
  forEach (pageCuts a n) (fun c s => issueAccess requester (r % 8) c.1 (.read c.2) (.slot q r (c.1 - a)) s) s

/-- Issues writes of bytes for record r. -/
def slotWrite (q r requester a : Nat) (bs : List Byte) (s : State) : State :=
  forEach (pageCuts a bs.length) (fun c s =>
    issueAccess requester (r % 8) c.1 (.write ((bs.drop (c.1 - a)).take c.2)) (.slot q r 0) s) s

/-- What a packet changed of the listed blocks of spilled record r goes to the adders at its stacks, one access a block
(R258). -/
def spillAdd (q r : Nat) (x y : SlotSt) (js : List Nat) (s : State) : State :=
  if r < 1024 then s
  else forEach js (fun j s =>
    let s := pmcEvent q (36 + r % 8) 0x044 noInst 256 s
    issueAccess 2 (r % 8) (spillAddr s q r + j * (256 * (x.w / 8))) (.accum x.op x.w (x.deltas y j)) (.spill q r) s) s

/-- The accumulators of the listed blocks of spilled record r are read back (R258). -/
def spillRead (q r : Nat) (x : SlotSt) (js : List Nat) (s : State) : State :=
  let n := 256 * (x.w / 8)
  forEach js (fun j s =>
    let s := pmcEvent q (36 + r % 8) 0x044 noInst 256 s
    issueAccess 2 (r % 8) (spillAddr s q r + j * n) (.read n) (.spill q r) s) s

/-- A read of a spilled chunk's accumulators has brought its data (R258). -/
def readBack (q r : Nat) (op : MemOp) (a : Nat) (data : List Byte) (s : State) : State :=
  match op, slotAt s q r with
  | .read _, some x => setSlot q r (some (x.withWords ((a - spillAddr s q r) / (x.w / 8)) data)) s
  | _, _ => s

/-- Elements n_c of an addressed action. -/
def SlotSt.units (x : SlotSt) : Nat := (x.post.map (·.units)).getD 0

/-- Notes the digest of the chunk's data where a provenance digest is asked for (R359). -/
def SlotSt.withDin (x : SlotSt) (bs : List Byte) : SlotSt :=
  if (x.post.map (·.prov)).getD false then { x with din := sha3_256 bs } else x

/-- Counts a conversion (CONV_OVF, SR_ROUNDUPS and the Alloy events). -/
def noteConv (q r : Nat) (x : SlotSt) (cs : List Conv) (s : State) : State :=
  let s := count (Ctr.convOvf q) (cs.filter (·.ovf)).length s
  let s := count (Ctr.srRoundups q) (if x.rmode = 2 then (cs.filter (·.up)).length else 0) s
  pmcEvent q (36 + r % 8) 0x045 noInst x.blocks.length s

/-- CARB: the result goes down (R272, R338). -/
def deliverCarb (q r : Nat) (x : SlotSt) (s : State) : State :=
  if x.rfmt = 0xA || x.rfmt = 0xB then
    let per := if x.acc64 then 1 else 3
    let pls := (List.range (max 1 ((x.blocks.length + per - 1) / per))).map x.alloyPayload
    let x := { x with result := pls.flatten, formed := pls.length }.withDin pls.flatten
    let anchor := if x.policy = 0 then ofSigned 12 x.a0 else 0
    sendResults q r x x.rfmt x.vcount anchor pls (setSlot q r (some x) (noteConv q r x [] s))
  else
    let cs := x.resultElems x.vcount
    let bs := resultPayload x.op x.rfmt cs
    let pls := resultPackets x.op x.rfmt bs
    let x := { x with result := bs, formed := pls.length }.withDin bs
    sendResults q r x x.rfmt x.vcount 0 pls (setSlot q r (some x) (noteConv q r x cs s))

/-- CRED: the result is written to Ingot; its completion packet follows (R339). -/
def deliverCred (q r : Nat) (x : SlotSt) (p : Post) (s : State) : State :=
  let cs := x.resultElems p.units
  let bs := resultPayload x.op x.rfmt cs
  let x := { x with result := bs, stage := 2 }.withDin bs
  slotWrite q r 2 p.base bs (setSlot q r (some x) (noteConv q r x cs s))

/-- Elements of a CRSU task (R348). -/
def taskElems (p : Post) : Nat := if p.f64 then 32 else 64

/-- A CRSU task that has not started. -/
def TaskSt.new : TaskSt := ⟨0, 0, 0, [], [], [], []⟩

/-- CRSU: the gradient is converted and cut into tasks (R348). -/
def deliverCrsu (q r : Nat) (x : SlotSt) (p : Post) (s : State) : State :=
  let cs := x.resultElems p.units
  let n := (p.units + taskElems p - 1) / taskElems p
  let x := { x with stage := 3, tasks := List.replicate n TaskSt.new }.withDin (resultPayload x.op x.rfmt cs)
  setSlot q r (some x) (noteConv q r x cs s)

/-- Carries out the ACTION of a chunk whose accumulators are at hand (R263). -/
def deliverAct (q r : Nat) (s : State) : State :=
  match slotAt s q r with
  | none => s
  | some x =>
    let x := { x with stage := 0 }
    if x.action = actCarb then deliverCarb q r x s
    else match x.post with
      | none => setSlot q r (some x) s
      | some p =>
        if x.action = actCred then deliverCred q r x p s
        else if x.action = actCrsu then deliverCrsu q r x p s
        else if x.action = actCbcs then slotRead q r 3 p.base p.units (setSlot q r (some { x with stage := 2 }) s)
        else setSlot q r (some { x with stage := 2 }) s

/-- The bytes of the member windows of a gather (R340, R359). -/
def gatherBytes (s : State) (p : Post) : List Byte :=
  ((List.range p.nmemb).map (fun m => memRead s (p.base + m * p.mstride) p.units)).flatten

/-- The packets of a broadcast (R342). -/
def sendBroadcast (q r : Nat) (x : SlotSt) (p : Post) (s : State) : State :=
  let bs := (List.range p.units).map (fun i => Tbl.get 0 x.data i)
  let pls := chunksOf 4096 (p.units / 4096 + 1) bs
  let x := { x with stage := 0, data := [] }.withDin bs
  let s := setSlot q r (some x) (count (Ctr.resultPkts q) pls.length s)
  forEach pls.zipIdx (fun e s =>
    sendDown q r x (downHead s x x.rfmt e.2 pls.length 0 x.expect 0 csOk (e.2 + 1 == pls.length) false p.repair e.1) e.1 s) s

/-- The accesses of record r have ended: may its delivery go on (R263)? -/
def slotIdle (s : State) (q r : Nat) (x : SlotSt) : Bool :=
  x.state == 5 && !x.stopped && !x.fenced && (slotAccs s q r).isEmpty && !devFault s

/-- The step that follows an action's accesses: a broadcast's packets, or the completion packet of CRED and CGAT (R339, R340,
R342). -/
def actionDone (q r : Nat) (s : State) : State :=
  match slotAt s q r with
  | none => s
  | some x =>
    match x.post with
    | none => s
    | some p =>
      if !slotIdle s q r x || x.stage ≠ 2 then s
      else if x.action = actCbcs then sendBroadcast q r x p s
      else if slotAcks s q r ≠ 0 then s
      else
        let x := { x with stage := 0, formed := 1 }
        let x := if x.action = actCgat then x.withDin (gatherBytes s p) else x
        sendCompletion q r x (setSlot q r (some x) s)

/-- Goes on with a delivery whose accesses have ended: an action that issues none is done at once. -/
def slotProgress (q r : Nat) (s : State) : State :=
  match slotAt s q r with
  | none => s
  | some x =>
    if !slotIdle s q r x then s
    else actionDone q r (if x.stage = 1 then deliverAct q r s else s)

/-- DELIVER (R263): a barrier under JOB_HOLD is held; under a DEVICE fault nothing is delivered (R490); a spilled chunk's accumulators are read back first (R258). -/
def deliver (q r : Nat) (x : SlotSt) (s : State) : State :=
  if devFault s then setSlot q r (some { x with state := 4 }) s
  else if x.action = actBar then
    if jobHold s x.job then setSlot q r (some { x with state := 8 }) s else sendRelease q r x s
  else
    let spilled := 1024 ≤ r && 0 < x.blocks.length
    let s := setSlot q r (some { x with state := 5, stage := 1 }) s
    slotProgress q r (if spilled then spillRead q r x (List.range x.blocks.length) s else s)

/-! ### Arrivals (R251, R264 to R269, R277) -/

/-- Counts and logs a discarded contribution, once per chunk (R268, R290). -/
def lateContrib (q r : Nat) (x : SlotSt) (link : Nat) (s : State) : State :=
  let s := count1 (Ctr.lateContrib q) s
  if x.lateLogged then s
  else logChunk q 0x0406 clsPacket x 0 link (setSlot q r (some { x with lateLogged := true }) s)

/-- Was the first drop of a kind logged for a key that no chunk holds (R290)? -/
def keyLogged (s : State) (q : Nat) (late : Bool) (key : List Nat) : Bool :=
  (ce s q).logged.any (fun e => e.1 == late && e.2.2 == key)

/-- Logs a drop for a key without a chunk, once (R251, R268, R283). -/
def logKeyOnce (q : Nat) (late : Bool) (h : List Byte) (link : Nat) (s : State) : State :=
  let key := [hJob h, cComm h, cSeq h, cChunk h]
  if keyLogged s q late key then s
  else
    let s := setCe q { ce s q with logged := (late, false, key) :: (ce s q).logged } s
    logEvent q (if late then 0x0406 else 0x0405) clsPacket 6 0 (dataK (hJob h) (cComm h) (cSeq h) (cChunk h) 0 link) s

/-- The place of a signature among the recorded ones. -/
def sigPlace (x : SlotSt) (sig : Nat) : Option Nat := x.sigs.findIdx? (fun g => g.1 == sig)

/-- Compares a SIG with the recorded ones and records its link (R269): answers whether it is the descriptor's. -/
def noteSig (q : Nat) (x : SlotSt) (sig link : Nat) (s : State) : Bool × SlotSt × State :=
  match sigPlace x sig with
  | some i =>
    let g := x.sigs.getD i (0, [])
    (i == 0, { x with sigs := listSet x.sigs i (g.1, if g.2.contains link then g.2 else g.2 ++ [link]) }, s)
  | none =>
    if x.sigs.length < 4 then (false, { x with sigs := x.sigs ++ [(sig, [link])] }, count1 (Ctr.sigMismatch q) s)
    else (false, x, count1 (Ctr.sigExtra q) s)

/-- Do the fields of a packet disagree with the descriptor (R234, R270)? -/
def fieldsBad (x : SlotSt) (h : List Byte) : Bool :=
  let partial' := !cScoutExp h && (cFmt h == 0xA || cFmt h == 0xB)
  cOp h != x.op || cAcc64 h != x.acc64 || cPolicy h != x.policy || cRmode h == 3 ||
    (if partial' then x.cap == 0 || x.op != opSum || cFmt h != (if x.acc64 then 0xB else 0xA) else cFmt h != x.fmt)

/-- A packet's arrival times: the first, and the one that completes the last count (R277). -/
def noteLast (x : SlotSt) (h : List Byte) (link : Nat) (s : State) : SlotSt :=
  { x with tLast := some (devTicks s), lastLink := link, lastMember := cMember h }

/-- A packet that a POISONED chunk absorbs: it is counted and adds nothing (R271). -/
def absorb (q r : Nat) (h : List Byte) (link : Nat) (s : State) : State :=
  match slotAt s q r with
  | none => s
  | some x =>
    let n := cNcontrib h
    let was := x.counted
    let x := if cScoutExp h then { x with expCount := x.expCount + n }
      else if x.cap = 0 then { x with count := x.count + n }
      else x.addCounts ((x.covers (cFmt h) (cPktIdx h)).filter x.takes) n
    let x := if !was && x.counted && x.tLast.isNone then noteLast x h link s else x
    poisonRelease q r (setSlot q r (some x) s)

/-- Poisons a chunk by a packet, which it then counts. -/
def fail (q r : Nat) (x : SlotSt) (h : List Byte) (link cause : Nat) (s : State) : State :=
  absorb q r h link (poison q r x cause s)

/-- A pass is complete: a second pass where a block overflowed, else READY or DELIVER (R229, R262). -/
def passDone (q r : Nat) (x : SlotSt) (h : List Byte) (link : Nat) (s : State) : State :=
  if x.state = 2 && x.anyOvf then
    let s := count (Ctr.ovfBlocks q) (x.blocks.filter (·.ovf)).length s
    let x := { x.startPass2 with state := 3 }
    sendAnchors q r x (setSlot q r (some x) s)
  else
    let s := if x.state = 3 then count (Ctr.pass2Blocks q) (x.blocks.filter (·.pass2)).length s else s
    let x := noteLast x h link s
    if x.posted && x.post.isNone then setSlot q r (some { x with state := 4 }) s
    else deliver q r x s

/-- Writes the member data of a gather packet (R340): bytes below VCOUNT, the rest of its part of the window zero. -/
def gatherWrite (q r : Nat) (x : SlotSt) (p : Post) (h payload : List Byte) (s : State) : State :=
  if p.nmemb ≤ cMember h || cNcontrib h ≠ 1 then
    let s := if x.gatherLogged then s else logAction q p aeGatherForm s
    let x := if x.aerr = 0 then { x with aerr := aeGatherForm } else x
    setSlot q r (some { x with gatherLogged := true }) s
  else
    let o := cPktIdx h * 4096
    let n := min 4096 (p.units - o)
    let bs := (List.range n).map (fun i => if o + i < cVcount h then payload.getD i 0 else 0)
    slotWrite q r 3 (p.base + cMember h * p.mstride + o) bs s

/-- A gather packet is written, or kept until the post gives the windows. -/
def gatherRx (q r : Nat) (h payload : List Byte) (s : State) : State :=
  match slotAt s q r with
  | none => s
  | some x => match x.post with
    | some p => gatherWrite q r x p h payload s
    | none => setSlot q r (some { x with gather := x.gather ++ [(h, payload)] }) s

/-- A value packet that has passed its checks: it adds its elements and counts (R264, R265, R267). -/
def addValues (q r : Nat) (x : SlotSt) (h payload : List Byte) (link : Nat) (cov : List Nat) (s : State) : State :=
  let partial' := cFmt h == 0xA || cFmt h == 0xB
  let a := if partial' then x.addPartial (cVcount h) payload else x.addNative (cPktIdx h) (cVcount h) payload
  let s := if partial' then count (Ctr.alyPartialWords q) a.elems s
    else count (Ctr.specialElems q) a.specials (count (Ctr.alyElems q) a.elems s)
  let s := pmcEvent q (36 + r % 8) (if partial' then 0x041 else 0x040) noInst a.elems s
  let s := count (Ctr.ovfDrop q) a.dropped s
  let y := { a.slot with maxVc := max x.maxVc (cVcount h), ovfDrop := x.ovfDrop + a.dropped }
  let s := spillAdd q r x y cov s
  if (x.scout || x.pass2) && cov.any (fun j => (y.block j).ovf) then fail q r y h link csAnchorMismatch s
  else
    let y := y.addCounts cov (cNcontrib h)
    let s := setSlot q r (some y) s
    let s := if x.action = actCgat then gatherRx q r h payload s else s
    match slotAt s q r with
    | some y => if y.complete then passDone q r y h link s else s
    | none => s

/-- A contribution or partial for a chunk whose signature and fields agree (R264 to R268, R246). -/
def applyValue (q r : Nat) (x : SlotSt) (h payload : List Byte) (link : Nat) (s : State) : State :=
  let n := cNcontrib h
  if x.state = 1 then fail q r x h link csAnchorMismatch s
  else if x.cap = 0 then
    if payload ≠ [] || cPktIdx h ≠ 0 then fail q r x h link csBadFormat s
    else if x.expect < x.count + n then fail q r x h link csOvercount (count1 (Ctr.overcount q) s)
    else
      let x := { x with count := x.count + n }
      let s := setSlot q r (some x) s
      if x.complete then passDone q r x h link s else s
  else
    let cov := (x.covers (cFmt h) (cPktIdx h)).filter x.takes
    if cov.isEmpty then
      if x.state = 3 || (x.pass2 && (x.covers (cFmt h) (cPktIdx h)) ≠ []) then lateContrib q r x link (setSlot q r (some x) s) else fail q r x h link csBadFormat s
    else if cov.any (fun j => x.expect < (x.block j).count + n) then
      fail q r x h link csOvercount (count1 (Ctr.overcount q) s)
    else
      let cause := if cFmt h == 0xA || cFmt h == 0xB then
          partCause x (cFmt h) (cPktIdx h) (cAnchor h) n payload else 0
      if cause ≠ 0 then fail q r x h link cause s else addValues q r x h payload link cov s

/-- An exponent packet for a chunk whose signature and fields agree (R231, R267, R268). -/
def applyExponent (q r : Nat) (x : SlotSt) (h payload : List Byte) (link : Nat) (s : State) : State :=
  if x.state ≠ 1 then fail q r x h link csAnchorMismatch s
  else if x.expect < x.expCount + cNcontrib h then fail q r x h link csOvercount (count1 (Ctr.overcount q) s)
  else
    let x := { x.addExponents payload with expCount := x.expCount + cNcontrib h }
    if x.expect ≤ x.expCount then
      let x := { x.scoutAnchors with state := 2 }
      sendAnchors q r x (setSlot q r (some x) s)
    else setSlot q r (some x) s

/-- A contribution or exponent packet for chunk r (R268 to R270). -/
def applyPacket (q r : Nat) (x : SlotSt) (p : UPkt) (s : State) : State :=
  let h := p.head
  if 5 ≤ x.state && x.state ≤ 8 then lateContrib q r x p.link s
  else
    let x := if x.tFirst.isNone then { x with tFirst := some (devTicks s) } else x
    let (same, x, s) := noteSig q x (cSig h) p.link s
    if x.state = 9 then absorb q r h p.link (setSlot q r (some x) s)
    else if !same then fail q r x h p.link csSigMismatch s
    else if fieldsBad x h then fail q r x h p.link csBadFormat s
    else if cScoutExp h then applyExponent q r x h (p.payload.take (hPlen h)) p.link s
    else applyValue q r x h (p.payload.take (hPlen h)) p.link s

/-- Takes the head of the engine's queue. -/
def cePop (q : Nat) (s : State) : State := setSw q { sw s q with ceIn := (sw s q).ceIn.drop 1 } s

/-- The checks that precede a chunk's own (R249, R251, R280): none when the packet has been dropped or answered, else the
live chunk, if there is one. -/
def admitPkt (q : Nat) (p : UPkt) (s : State) : Option (Option (Nat × SlotSt)) × State :=
  let h := p.head
  let k := dataK (hJob h) (cComm h) (cSeq h) (cChunk h) 0 0
  if !commServes s h then (none, logEvent q 0x0404 clsPacket 6 0 k (count1 (Ctr.noCommDrop q) s))
  else
    let at? := findSlot s q (hJob h) (cComm h) (cSeq h) (cChunk h)
    let grp := match at? with
      | some e => e.2.downGrp
      | none => rf s (Reg.comm0 (cComm h)) 11 0
    if !(groupLinks s q grp).contains p.link then
      let s := count1 (Ctr.notMemberDrop q) s
      match at? with
      | none => (none, logKeyOnce q false h p.link s)
      | some (r, x) =>
        (none, if x.nmLogged then s
          else logChunk q 0x0405 clsPacket x 0 p.link (setSlot q r (some { x with nmLogged := true }) s))
    else
      let c := epochCmp s (hJob h) (hEpoch h)
      if c = 1 then (none, sendRetry q p csEpochAhead (count1 (Ctr.epochAhead q) s))
      else if c = 2 then (none, count1 (Ctr.epochStaleDrop q) s)
      else (some at?, s)

/-- A contribution or exponent packet: it is matched, or births its chunk, or is answered (R252, R257, R283). -/
def contribution (q : Nat) (p : UPkt) (s : State) : State :=
  let h := p.head
  match admitPkt q p s with
  | (none, s) => s
  | (some (some (r, x)), s) => applyPacket q r x p s
  | (some none, s) =>
    match selectDesc s (cComm h) (cSeq h) with
    | none => sendRetry q p csNoDesc (count1 (Ctr.retryNoDesc q) s)
    | some d =>
      match birthSlot s q (cComm h) with
      | none => sendRetry q p csNoSlot (count1 (Ctr.retryNoSlot q) s)
      | some r =>
        let (d1, d2) := descWords s (cComm h) d
        let x := bornSlot s (hJob h) (cComm h) (cSeq h) (cChunk h) d1 d2
        let s := birth q r { x with tFirst := some (devTicks s) } s
        match slotAt s q r with
        | some x => applyPacket q r x p s
        | none => s

/-- What the packet at the head of the engine's queue is: 0 contribution, 1 exponent packet, 2 acknowledgement. -/
def ceClass (s : State) (q : Nat) (h : List Byte) : Nat :=
  let act := match findSlot s q (hJob h) (cComm h) (cSeq h) (cChunk h) with
    | some e => some e.2.action
    | none => (selectDesc s (cComm h) (cSeq h)).map (fun d => fld (descWords s (cComm h) d).1 31 28)
  if act == some actCbcs then 2 else if cScoutExp h then 1 else 0

/-- Runs `f` on the head of the engine's queue where it is of the given class. -/
def ceTake (q cls : Nat) (f : UPkt → State → State) (s : State) : State :=
  match (sw s q).ceIn with
  | [] => s
  | p :: _ =>
    if quadShut s q || ceClass s q p.head ≠ cls || repairing s q 0 (cComm p.head) || repairing s q 1 (hJob p.head) then s
    else f p (cePop q s)

/-- CONTRIBUTION_RX. -/
def execContributionRx (q : Quad) (s : State) : Host.Outcome State Fault Refusal := .next (ceTake q 0 (contribution q) s)

/-- EXPONENT_RX: the packet at the head of the queue is an exponent packet. -/
def execExponentRx (q : Quad) (s : State) : Host.Outcome State Fault Refusal := .next (ceTake q 1 (contribution q) s)

/-- An acknowledgement for a live broadcast (R268, R269, R277, R283 to R285). -/
def applyAck (q r : Nat) (x : SlotSt) (p : UPkt) (s : State) : State :=
  let h := p.head
  let (same, x, s) := noteSig q x (cSig h) p.link s
  let n := cNcontrib h
  if x.state = 9 then absorb q r h p.link (setSlot q r (some x) s)
  else if !same || hPlen h ≠ 0 || cPktIdx h ≠ 0 || x.expect < x.count + n then
    lateContrib q r x p.link (setSlot q r (some x) s)
  else
    let x := { x with count := x.count + n, tFirst := some (x.tFirst.getD (devTicks s)),
                      acked := if x.acked.contains p.link then x.acked else x.acked ++ [p.link] }
    let x := if x.expect ≤ x.count then noteLast x h p.link s else x
    let s := setSlot q r (some x) s
    if x.expect ≤ x.count && (x.state = 6 || x.state = 7) then releaseSlot q r x csOk s else s

/-- An acknowledgement: one for a key without a broadcast is discarded (R283). -/
def bcsAck (q : Nat) (p : UPkt) (s : State) : State :=
  match admitPkt q p s with
  | (none, s) => s
  | (some (some (r, x)), s) => applyAck q r x p s
  | (some none, s) => logKeyOnce q true p.head p.link (count1 (Ctr.lateContrib q) s)

/-- BCS_ACK_RX. -/
def execBcsAckRx (q : Quad) (s : State) : Host.Outcome State Fault Refusal := .next (ceTake q 2 (bcsAck q) s)

/-! ### Ends of deliveries (R263, R283, R285) -/

/-- Is the waiting packet one of this chunk's? -/
def isSending (x : SlotSt) (o : OriginReq) : Bool :=
  o.unit == .ce && hKind o.head == 3 && !hRetry o.head && hJob o.head == x.job && cComm o.head == x.comm &&
    cSeq o.head == x.seq && cChunk o.head == x.chunk

/-- Packets of this chunk that still wait in the engine (R263). -/
def sending (s : State) (q : Nat) (x : SlotSt) : Nat := ((sw s q).originQ.filter (isSending x)).length

/-- Does a packet of this chunk still wait in the engine (R263)? -/
def slotSending (s : State) (q : Nat) (x : SlotSt) : Bool := 0 < sending s q x

/-- DELIVERY_DONE (R263, R283). -/
def deliveryDone (q r : Nat) (s : State) : State :=
  match slotAt s q r with
  | none => s
  | some x =>
    if x.state ≠ 5 || x.stage ≠ 0 || x.stopped || x.fenced || slotAccs s q r ≠ [] || slotAcks s q r ≠ 0
        || slotSending s q x then s
    else if x.action = actCbcs then
      if x.expect ≤ x.count then releaseSlot q r x csOk s else setSlot q r (some { x with state := 6 }) s
    else releaseSlot q r x x.good s

/-- DELIVERY_DONE. -/
def execDeliveryDone (q : Quad) (slot : SlotIx) (s : State) : Host.Outcome State Fault Refusal :=
  .next (deliveryDone q slot s)

/-- BCS_TIMEOUT (R285): the record names the member links that have not acknowledged. -/
def bcsTimeout (q r : Nat) (s : State) : State :=
  match slotAt s q r with
  | none => s
  | some x =>
    if x.state ≠ 6 || x.fenced then s
    else
      let missing := (groupLinks s q x.downGrp).filter (fun k => !x.acked.contains k)
      let s := formRecordExt q r x csBcsIncomplete (linkBitmap missing) (count1 (Ctr.bcsIncomplete q) s)
      let s := logChunk q 0x0403 clsCollective x csBcsIncomplete 0 s
      let s := setRb (Reg.jobEpoch x.job) 31 true s
      let s := setSlot q r (some { x with state := 7, wasHeld := true, told := true }) s
      tellPost x csBcsIncomplete s

/-- BCS_TIMEOUT. -/
def execBcsTimeout (q : Quad) (slot : SlotIx) (s : State) : Host.Outcome State Fault Refusal :=
  .next (bcsTimeout q slot s)

/-- JOB_HOLD_CLEAR: JOB_HOLD clears by write (R286). -/
def execJobHoldClear (j : JobIx) (s : State) : Host.Outcome State Fault Refusal :=
  .next (if jobHold s j then clearHold j s else s)

/-! ### Epochs and fences (R254, R281) -/

/-- Takes back the chunk's packets that still wait in the engine (R281). -/
def dropSending (q : Nat) (x : SlotSt) (s : State) : State :=
  let w := sw s q
  setSw q { w with originQ := w.originQ.filter (fun o => !isSending x o) } s

/-- Takes running and loading tasks from the wicks that hold them: nothing is written back for them (R360). -/
def dropTasks (q r : Nat) (s : State) : State :=
  let l := lx s q
  setLx q { l with wicks := l.wicks.map (fun e =>
    (e.1, { e.2 with task := e.2.task.filter (fun t => t.1 != r) })) } s

/-- Marks the chunks of quadrant q that satisfy `p`, and logs how many (R254, R281). -/
def fenceQuad (q : Nat) (p : SlotSt → Bool) (tag job : Nat) (s : State) : State :=
  let xs := (usedSlots s q).filter (fun e => !e.2.fenced && p e.2)
  let s := forEach xs (fun e s =>
    let s := setPeers q { peers s q with out := (peers s q).out.filter (fun o => o.2.2 != AckOwner.slot e.1) } s
    setSlot q e.1 (some { e.2 with fenced := true }) (dropTasks q e.1 (dropSending q e.2 s))) s
  logEvent q 0x0408 clsCollective 6 0 (dataG (job + tag * 2 ^ 16) xs.length) s

/-- Discards the posts bound for quadrant q that satisfy `p`; their instructions count the chunks (R254, R281, R360). -/
def fencePosts (q : Nat) (p : Post → Bool) (s : State) : State :=
  let f := fi s q
  let gone := f.ring.filter p ++ f.queue.filter p
  let s := setFi q { f with ring := f.ring.filter (fun x => !p x), queue := f.queue.filter (fun x => !p x) } s
  showCe q (showFi q (forEach gone postFenced s))

/-- A write of JOB_EPOCH (R281, R286): a new EPOCH fences the job's chunks of other epochs and clears JOB_HOLD. -/
def epochWrite (j : Nat) (v : Word) (s : State) : State :=
  let a := Reg.jobEpoch j
  let e := fld v 15 0
  if e = rf s a 15 0 then
    if jobHold s j && !flag v 31 then clearHold j s else setRb a 31 (flag v 31) s
  else
    let s := setRb a 31 false (setRf a 15 0 e s)
    let s := forRange 4 (fun q s =>
      fencePosts q (fun p => p.job == j && p.epoch != e) (fenceQuad q (fun x => x.job == j && x.epoch != e) 0xFFFF j s)) s
    clearHold j s

/-- FENCE_DONE: the chunk's issued accesses have ended (R281). -/
def fenceDone (q r : Nat) (s : State) : State :=
  match slotAt s q r with
  | none => s
  | some x =>
    if !x.fenced || slotAccs s q r ≠ [] then s
    else releaseSlot q r x csEpochFenced (sendError q r x csEpochFenced (count1 (Ctr.fenced q) s))

/-- FENCE_DONE. -/
def execFenceDone (q : Quad) (slot : SlotIx) (s : State) : Host.Outcome State Fault Refusal := .next (fenceDone q slot s)

/-! ### Writes of the communicator table and of the spill slots (R252, R254, R261, R511) -/

/-- The sum of R261 for quadrant q, with entry c taken to have the given words 0 and 3. -/
def minSum (s : State) (q c : Nat) (w0 w3 : Word) : Nat :=
  let others := (validComms s).filter (fun d => d != c && servedIn (reg s (Reg.comm0 d)) q)
  (others.map (commMin s)).sum + (if flag w0 31 && servedIn w0 q then fld w3 11 0 else 0)

/-- Quadrants in which the entry's new words break R261. -/
def resvBreaks (s : State) (c : Nat) (w0 w3 : Word) : List Nat :=
  (List.range 4).filter (fun q =>
    let new := minSum s q c w0 w3
    1024 + spillCount s q < new && minSum s q c (reg s (Reg.comm0 c)) (reg s (Reg.comm3 c)) < new)

/-- Rejects a write by R261. -/
def resvReject (q c : Nat) (s : State) : State :=
  logEvent q 0x0407 clsInfo 6 0 (dataG c 0) (sqEvent (Reg.ceStatus q) 31 s)

/-- The address of word w of entry c. -/
def commAddr (c w : Nat) : Nat := Reg.comm0 c + 4 * w

/-- A write of word 0 to 5 of COMM entry c. -/
def commWrite (c w : Nat) (v : Word) (s : State) : State :=
  let a := commAddr c w
  let old0 := reg s (Reg.comm0 c)
  let new := (reg s a &&& ~~~ rwMaskAt a) ||| (v &&& rwMaskAt a)
  let w0 := if w = 0 then new else old0
  let w3 := if w = 3 then new else reg s (Reg.comm3 c)
  let bad := resvBreaks s c w0 w3
  if bad ≠ [] then forEach bad (fun q s => resvReject q c s) s
  else
    let s := setReg a new s
    let s := if w = 0 && !flag v 31 then { s with descs := Tbl.set 0 s.descs c 0 } else s
    let job := fld old0 27 16
    let s := if w = 0 && flag old0 31 && (!flag new 31 || fld new 27 16 ≠ job) then
        forRange 4 (fun q s => fencePosts q (fun p => p.job == job && p.comm == c)
          (fenceQuad q (fun x => x.job == job && x.comm == c) c job s)) s
      else s
    forRange 4 showCe s

/-- COMM_WRITE: a write of word 0. -/
def execCommWrite (c : CommIx) (v : Word) (s : State) : Host.Outcome State Fault Refusal := .next (commWrite c 0 v s)

/-- DESC_APPLY: the write of DSEQ applies the staged words and makes the descriptor valid (R252, R511). -/
def descApply (c : Nat) (d : Bool) (v : Word) (s : State) : State :=
  let addrs := if d then [Reg.comm10 c, Reg.comm11 c] else [Reg.comm7 c, Reg.comm8 c]
  let s := forEach addrs (fun a s => setReg a (stagedReg s a) { s with staged := Tbl.erase s.staged a }) s
  let s := setReg (if d then Reg.comm9 c else Reg.comm6 c) v s
  let old := Tbl.get 0 s.descs c
  { s with descs := Tbl.set 0 s.descs c (if d then old % 2 + 2 else old / 2 * 2 + 1) }

/-- DESC_APPLY. -/
def execDescApply (c : CommIx) (d : Bool) (v : Word) (s : State) : Host.Outcome State Fault Refusal :=
  .next (descApply c d v s)

/-- Would these spill values break the sum of R261? -/
def spillBreaks (s : State) (q n base : Nat) : Bool :=
  let now := minSum s q 4096 0 0
  let new := 1024 + spillActs s q n base
  new < 1024 + spillCount s q && new < now

/-- A write of CE_CFG, or of CE_SPILL_BASE (R261). -/
def spillCfgWrite (q : Nat) (r : SpillReg) (v : Word) (s : State) : State :=
  let lo := match r with
    | .baseLo => fld v 31 12
    | _ => rf s (Reg.ceSpillBaseLo q) 31 12
  let hi := match r with
    | .baseHi => fld v 8 0
    | _ => rf s (Reg.ceSpillBaseHi q) 8 0
  let n := match r with
    | .cfg => fld v 11 0
    | _ => rf s (Reg.ceCfg q) 11 0
  let bad := spillBreaks s q n (lo * 4096 + hi * 2 ^ 32)
  let s := match r with
    | .cfg => setRb (Reg.ceCfg q) 31 (flag v 31) s
    | _ => s
  if bad then resvReject q 0 s
  else applySpill q (setRf (Reg.ceCfg q) 11 0 n (setRf (Reg.ceSpillBaseLo q) 31 12 lo (setRf (Reg.ceSpillBaseHi q) 8 0 hi s)))

/-- The address of a spill register. -/
def spillRegAddr (q : Nat) : SpillReg → Nat
  | .cfg => Reg.ceCfg q
  | .baseLo => Reg.ceSpillBaseLo q
  | .baseHi => Reg.ceSpillBaseHi q

/-- SPILL_CFG_WRITE. -/
def execSpillCfgWrite (q : Quad) (r : SpillReg) (v : Word) (s : State) : Host.Outcome State Fault Refusal :=
  .next (guardReg (spillRegAddr q r) (spillCfgWrite q r v) s)

/-- A write of CE_CR_CI (R188, R190). -/
def ceCrCiWrite (q : Nat) (v : Word) (s : State) : State :=
  if (rf s (Reg.ceCrPi q) 12 0 + 8192 - fld v 12 0) % 8192 ≤ 4096 then
    crInterrupt q (showCe q (setRf (Reg.ceCrCi q) 12 0 (fld v 12 0) s))
  else s

/-- CE_CR_CI_WRITE. -/
def execCeCrCiWrite (q : Quad) (v : Word) (s : State) : Host.Outcome State Fault Refusal :=
  .next (guardReg (Reg.ceCrCi q) (ceCrCiWrite q v) s)

/-- The packets of the chunk that still wait in the engine leave stomped (R132, R289). -/
def stompSending (q : Nat) (x : SlotSt) (s : State) : State :=
  let w := sw s q
  setSw q { w with originQ := w.originQ.map (fun o => if isSending x o then { o with bad := true } else o) } s

/-- The stacks that hold a byte of spill record r fail it (R270, R289): poisoned with `cause`, also in DELIVER while none of
its packets has left the engine; after that, those that have not left leave stomped. -/
def spillLost (q r cause : Nat) (s : State) : State :=
  match slotAt s q r with
  | none => s
  | some x =>
    if x.fenced then s
    else if poisonable x.state then poisonRelease q r (poison q r x cause s)
    else if x.state = 5 && x.blocks ≠ [] then
      if x.formed ≤ sending s q x then
        poisonRelease q r (poison q r { x with tasks := [], formed := 0 } cause (dropTasks q r (dropSending q x s)))
      else stompSending q x (setSlot q r (some { x with stomp := true }) s)
    else s

/-! ### Parity errors (R132, R270) -/

/-- Counts a parity error of a packet that entered on link k, logs it with its structure code, and raises the tile's event
interrupt (R132, R139); a packet of a unit names the unit's input port and counts on no link. -/
def noteParity (q k code : Nat) (s : State) : State :=
  let s := if k < 1024 && linkQuad k = q then count1 (Ctr.parityErrCnt q (linkTile k) (linkIx k)) s else s
  if k < 1024 then tileInt (linkFiber k) (logEvent q 0x0202 clsPacket 1 (linkTile k) (dataG code k) s)
  else logEvent q 0x0202 clsPacket 0 q (dataG code k) s

/-- The link a buffered packet entered on; 1,024 and its input port for a unit's packet. -/
def QPkt.errLink (p : QPkt) : Nat := if p.inLink < 1024 then p.inLink else 1024 + p.inp

/-- The parity error of a packet of quadrant q: every copy not begun is dropped, those begun end stomped (R132). -/
def parityPkt (q code : Nat) (p : QPkt) (s : State) : State := noteParity q p.errLink code (markTail q p.rx [] false s)

/-- A packet on the bridge from quadrant q toward b fails its check: it leaves the bridge, with the copies of it that quadrant
q has not begun (R132, R154). -/
def parityBridge (q b id : Nat) (s : State) : State :=
  let o := bridge s q b
  match (o.loc ++ o.transit1 ++ o.transit2 ++ o.wire).find? (fun p => p.id == id) with
  | none => s
  | some p =>
    let keep := fun ps : List QPkt => ps.filter (fun x => x.id != id)
    let s := setBridge q b { o with loc := keep o.loc, transit1 := keep o.transit1, transit2 := keep o.transit2, wire := keep o.wire } s
    let s := arbUses (.xb (Fin.ofNat 4 q) (Fin.ofNat 3 (bridgeIx q b))) (keep o.wire).length s
    let s := if p.cells.ofOrigin then freeCells p s else s
    let r := Reg.xbAdv (p.via.getD q) (bridgeIx (p.via.getD q) p.dest.quad?) p.vc
    parityPkt q 4 p (setRf r 31 16 (min 65535 (rf s r 31 16 + p.flits)) s)

/-- The n-th packet of a unit's input queue fails its check: the unit never acts on it (R132, R134). -/
def parityUnit (q : Nat) (u : UnitDest) (n : Nat) (s : State) : State :=
  match (unitQueue (sw s q) u)[n]? with
  | none => s
  | some p =>
    let w := sw s q
    let cut := fun ps : List UPkt => ps.eraseIdx n
    noteParity q p.link 5 (setSw q (match u with
      | .ce => { w with ceIn := cut w.ceIn }
      | .ms => { w with msIn := cut w.msIn }
      | .lx => { w with lxIn := cut w.lxIn }
      | .sv => { w with svIn := cut w.svIn }
      | .peerWr => { w with peerIn := cut w.peerIn }
      | .peerAck => { w with ackIn := cut w.ackIn }) s)

/-- The units of a quadrant by number (R140). -/
def unitOf (n : Nat) : UnitDest := ([.ce, .ms, .lx, .sv, .peerWr] : List UnitDest).getD n .peerAck

/-- PARITY_ERROR: a packet not yet begun is dropped, one begun ends stomped, and a slot is poisoned. -/
def parityError (q : Nat) (loc : ParityLoc) (s : State) : State :=
  match loc with
  | .ingress k => if linkQuad k = q && (link s k).rxOpen.isSome then noteParity q k 0 (truncateRx k s) else s
  | .buffer id =>
    match (sw s q).pkts.find? (fun p => p.id == id) with
    | none => s
    | some p => parityPkt q 1 p s
  | .replay k =>
    if linkQuad k ≠ q then s
    else
      let busy := (sw s q).pkts.filter (fun p => p.dest == .link k && p.crossing.isSome)
      noteParity q k 2 (forEach busy (fun p s => markTail q p.rx [] false s) s)
  | .copier rx =>
    match (sw s q).copyQ.find? (fun j => j.pkt.rx == rx) with
    | none => s
    | some j => parityPkt q 6 j.pkt s
  | .bridge b id => if b = q then s else parityBridge q b id s
  | .unit u n => parityUnit q (unitOf u) n s
  | .slot r =>
    match slotAt s q r with
    | none => s
    | some x =>
      let s := logEvent q 0x0202 clsPacket 6 r (dataG 3 r) s
      if poisonable x.state && !x.fenced then poisonRelease q r (poison q r x csDataError s) else s
  | .operation id =>
    let l := lx s q
    setLx q { l with ops := modifyFirst (fun o => o.id == id) (fun o =>
      { o with fin := o.fin.map (fun e => if e.fault = 0 then { e with fault := 0x0A } else e) }) l.ops } s

/-- PARITY_ERROR. -/
def execParityError (q : Quad) (loc : ParityLoc) (s : State) : Host.Outcome State Fault Refusal :=
  .next (if quadShut s q then s else parityError q loc s)

end Sys2Proof.Machine
end

