-- ==== Sys2Proof/Machine/Flags.lean ====
section
/-!
DEFINITION. The sticky floating-point flags INV, DZ, OVF and UNF of WSTAT: when a lane result raises one (R293, R313, R314).
-/
namespace Sys2Proof.Machine

/-! ### Results and flags -/

/-- A lane result and the flags it raises: INV 1, DZ 2, OVF 4, UNF 8; 16 and 32 mark an UNF and an INV that the standard
leaves to the implementation (log entry 40). -/
structure FRes where
  bits : Nat
  flags : Nat
  deriving DecidableEq, Repr

def fInv : Nat := 1
def fDz : Nat := 2
def fOvf : Nat := 4
def fUnf : Nat := 8
def fUnfOpen : Nat := 16
def fInvOpen : Nat := 32

/-- The canonical quiet NaN of a format that has one, with the given flags. -/
def fNaN (f flags : Nat) : FRes := ⟨(fmtNaN f).getD 0, flags⟩

/-- Is the pattern a signaling NaN? -/
def isSNaN (f bits : Nat) : Bool := isNaN f bits && bits / 2 ^ (fmtMant f - 1) % 2 == 0

/-- INV for a signaling operand. -/
def sInv (f : Nat) (xs : List Nat) : Nat := if xs.any (isSNaN f) then fInv else 0

/-- Does `mag`, rounded to p + 1 bits with no exponent limit, become a power of two above it (tininess after rounding)? -/
def roundsToPower (p mag : Nat) : Bool :=
  let n := bitLength mag
  if n ≤ p + 1 then false
  else
    let r := n - (p + 1)
    let kept := mag / 2 ^ r
    kept + 1 == 2 ^ (p + 1) && roundUp 0 0 kept (mag % 2 ^ r) r

/-- The underflow flag of a conversion of mag · 2^k. -/
def underflow (f mag : Nat) (k : Int) (c : Conv) : Nat :=
  if !c.inexact || fmtEmin f ≤ (bitLength mag : Int) - 1 + k then 0
  else if c.tiny then fUnf
  else if roundsToPower (fmtMant f) mag then fUnfOpen else fUnf

/-- A rounded exact value (−1)^neg · mag · 2^k; zero has the sign `neg`. -/
def fRound (f : Nat) (neg : Bool) (mag : Nat) (k : Int) : FRes :=
  if mag = 0 then ⟨signed f neg 0, 0⟩
  else
    let c := fpRound f 0 0 false neg mag k
    ⟨c.bits.getD 0, (if c.ovf then fOvf else 0) + underflow f mag k c⟩

/-- A signed infinity. -/
def fInf (f : Nat) (neg : Bool) (flags : Nat) : FRes := ⟨signed f neg (fmtInfBits f), flags⟩

end Sys2Proof.Machine
end

