-- ==== Sys2Proof/Machine/Float.lean ====
section
/-!
DEFINITION. Lane arithmetic of the Lantern vector unit as pure functions: binary32 and binary64 by IEEE 754-2019 with
round-to-nearest-even (R313), and the conversions of VCVT (R314).
-/
namespace Sys2Proof.Machine

/-! ### Sums, products, quotients, roots -/

/-- A finite value or zero as a signed integer times 2^k. -/
def FVal.scaled : FVal → Int × Int
  | .fin neg m k => (if neg then -(m : Int) else m, k)
  | _ => (0, 0)

/-- The sign of a value. -/
def FVal.sign : FVal → Bool
  | .nan => false
  | .inf n => n
  | .zero n => n
  | .fin n _ _ => n

/-- The sum of two values, rounded once. -/
def fSum (f : Nat) (x y : FVal) : FRes :=
  match x, y with
  | .nan, _ => fNaN f 0
  | _, .nan => fNaN f 0
  | .inf a, .inf b => if a = b then fInf f a 0 else fNaN f fInv
  | .inf a, _ => fInf f a 0
  | _, .inf b => fInf f b 0
  | .zero a, .zero b => ⟨signed f (a && b) 0, 0⟩
  | _, _ =>
    let (a, ka) := x.scaled
    let (b, kb) := y.scaled
    let k := if a = 0 then kb else if b = 0 then ka else min ka kb
    let t := a * 2 ^ (ka - k).toNat + b * 2 ^ (kb - k).toNat
    fRound f (t < 0) t.natAbs k

/-- The exact product of two values; NaN where it is invalid. -/
def fProd (x y : FVal) : FVal :=
  let n := x.sign != y.sign
  match x, y with
  | .nan, _ => .nan
  | _, .nan => .nan
  | .inf _, .zero _ => .nan
  | .zero _, .inf _ => .nan
  | .inf _, _ => .inf n
  | _, .inf _ => .inf n
  | .zero _, _ => .zero n
  | _, .zero _ => .zero n
  | .fin _ a ka, .fin _ b kb => .fin n (a * b) (ka + kb)

/-- A value rounded to a format. -/
def fOf (f : Nat) : FVal → FRes
  | .nan => fNaN f 0
  | .inf n => fInf f n 0
  | .zero n => ⟨signed f n 0, 0⟩
  | .fin n m k => fRound f n m k

/-- A value with its sign inverted. -/
def FVal.neg : FVal → FVal
  | .nan => .nan
  | .inf n => .inf !n
  | .zero n => .zero !n
  | .fin n m k => .fin (!n) m k

/-- VADD and VSUB. -/
def fAdd (f a b : Nat) : FRes :=
  let r := fSum f (fpDecode f a 0) (fpDecode f b 0)
  ⟨r.bits, r.flags ||| sInv f [a, b]⟩
def fSub (f a b : Nat) : FRes :=
  let r := fSum f (fpDecode f a 0) (fpDecode f b 0).neg
  ⟨r.bits, r.flags ||| sInv f [a, b]⟩

/-- Is the product of the two operands ∞ × 0? -/
def infTimesZero (x y : FVal) : Bool := x != .nan && y != .nan && fProd x y == .nan

/-- VMUL. -/
def fMul (f a b : Nat) : FRes :=
  let x := fpDecode f a 0
  let y := fpDecode f b 0
  let r := fOf f (fProd x y)
  ⟨r.bits, r.flags ||| sInv f [a, b] ||| (if infTimesZero x y then fInv else 0)⟩

/-- VFMA, and VFNMA with `neg`: the product is negated, and the sum is rounded once.  Whether ∞ × 0 added to a quiet NaN is
invalid is the implementation's choice (IEEE 754-2019, 7.2). -/
def fFma (f : Nat) (neg : Bool) (a b c : Nat) : FRes :=
  let x := fpDecode f a 0
  let y := fpDecode f b 0
  let z := fpDecode f c 0
  let p := if neg then (fProd x y).neg else fProd x y
  let r := fSum f p z
  let open' := if infTimesZero x y then (if z == .nan then fInvOpen else fInv) else 0
  ⟨r.bits, r.flags ||| sInv f [a, b, c] ||| open'⟩

/-- VDIV. -/
def fDiv (f a b : Nat) : FRes :=
  let x := fpDecode f a 0
  let y := fpDecode f b 0
  let n := x.sign != y.sign
  let r := match x, y with
    | .nan, _ => fNaN f 0
    | _, .nan => fNaN f 0
    | .inf _, .inf _ => fNaN f fInv
    | .zero _, .zero _ => fNaN f fInv
    | .inf _, _ => fInf f n 0
    | _, .inf _ => ⟨signed f n 0, 0⟩
    | .zero _, _ => ⟨signed f n 0, 0⟩
    | .fin _ _ _, .zero _ => fInf f n fDz
    | .fin _ m k, .fin _ m' k' =>
      let sh := fmtMant f + 3 + bitLength m'
      let q := m * 2 ^ sh / m'
      let rest := m * 2 ^ sh % m'
      fRound f n (2 * q + b2n (rest != 0)) (k - k' - sh - 1)
  ⟨r.bits, r.flags ||| sInv f [a, b]⟩

/-- The integer square root of `x`, found bit by bit from bit `n`. -/
def rootFrom (x : Nat) : Nat → Nat → Nat
  | 0, r => r
  | n + 1, r => rootFrom x n (if (r + 2 ^ n) * (r + 2 ^ n) ≤ x then r + 2 ^ n else r)

/-- VSQRT. -/
def fSqrt (f a : Nat) : FRes :=
  let r := match fpDecode f a 0 with
    | .nan => fNaN f 0
    | .zero n => ⟨signed f n 0, 0⟩
    | .inf n => if n then fNaN f fInv else fInf f false 0
    | .fin n m k =>
      if n then fNaN f fInv
      else
        let sh := 2 * (fmtMant f + 3) + (if (k % 2 : Int) = 0 then 0 else 1)
        let x := m * 2 ^ sh
        let q := rootFrom x 90 0
        fRound f false (2 * q + b2n (q * q != x)) ((k - sh) / 2 - 1)
  ⟨r.bits, r.flags ||| sInv f [a]⟩

/-- The order of two values that are not NaN: their keys, with −0 equal to +0. -/
def fLess (f a b : Nat) : Bool :=
  match fpDecode f a 0, fpDecode f b 0 with
  | .zero _, .zero _ => false
  | _, _ => orderKey f a < orderKey f b
def fSame (f a b : Nat) : Bool :=
  match fpDecode f a 0, fpDecode f b 0 with
  | .zero _, .zero _ => true
  | _, _ => a == b

/-- VMIN and VMAX: −0 below +0, NaN if either input is one. -/
def fMinMax (f : Nat) (max : Bool) (a b : Nat) : FRes :=
  if isNaN f a || isNaN f b then fNaN f (sInv f [a, b])
  else ⟨if (orderKey f a < orderKey f b) != max then a else b, 0⟩

/-- VABS and VNEG; a NaN result is the canonical one (log entry 41). -/
def fAbs (f a : Nat) : FRes := if isNaN f a then fNaN f 0 else ⟨a % fmtSign f, 0⟩
def fNeg (f a : Nat) : FRes :=
  if isNaN f a then fNaN f 0 else ⟨if a < fmtSign f then a + fmtSign f else a - fmtSign f, 0⟩

/-- VCMP of floating-point lanes: conditions 0 EQ, 1 NE, 2 LT, 3 LE, ordered: a NaN operand gives false.  Whether a quiet
NaN in LT or LE is invalid is open (log entry 40). -/
def fCmp (f cond a b : Nat) : Bool × Nat :=
  if isNaN f a || isNaN f b then
    (false, if sInv f [a, b] ≠ 0 then fInv else if 2 ≤ cond then fInvOpen else 0)
  else
    (if cond = 0 then fSame f a b else if cond = 1 then !fSame f a b else if cond = 2 then fLess f a b
      else fLess f a b || fSame f a b, 0)

/-! ### Integer lanes -/

/-- VCMP of signed integer lanes of w bits. -/
def iCmp (w cond a b : Nat) : Bool :=
  if cond = 0 then a == b else if cond = 1 then a != b
  else if cond = 2 then toSigned w a < toSigned w b else toSigned w a ≤ toSigned w b

/-- Minimum or maximum of signed lanes. -/
def iMinMax (w : Nat) (max : Bool) (a b : Nat) : Nat := if (decide (toSigned w a < toSigned w b)) != max then a else b

/-! ### Conversions (R314) -/

/-- A converted element: its bits, none where the spec states no value, and its flags. -/
structure CRes where
  bits : Option Nat
  flags : Nat
  deriving DecidableEq, Repr

/-- The value of a source element; `x` is the scale byte of an FP4 element. -/
def cvtValue (f bits x : Nat) : FVal :=
  if fmtInt f then
    let v := toSigned (fmtBits f) bits
    if v = 0 then .zero false else .fin (v < 0) v.natAbs 0
  else elemValue f bits x

/-- A value rounded to an integer of w bits by RM and clamped (R314): NaN gives 0. -/
def toInteger (w rm word : Nat) (v : FVal) : Nat × Nat :=
  let lo : Int := -(2 ^ (w - 1) : Int)
  let hi : Int := 2 ^ (w - 1) - 1
  match v with
  | .nan => (0, fInv)
  | .inf n => (ofSigned w (if n then lo else hi), fInv)
  | .zero _ => (0, 0)
  | .fin n m k =>
    let mag := if 0 ≤ k then m * 2 ^ (min k.toNat 64)
      else
        let r := (-k).toNat
        let kept := m / 2 ^ r
        if roundUp rm word kept (m % 2 ^ r) r then kept + 1 else kept
    let t : Int := if n then -(mag : Int) else mag
    (ofSigned w (clampInt lo hi t), if t < lo || hi < t then fInv else 0)

/-- A value rounded to a floating-point format by RM; an FP4 element is the encoding of x · 2^(127 − X) (R314). -/
def toFloat (f rm word : Nat) (sat : Bool) (x : Nat) (v : FVal) : CRes :=
  match v with
  | .nan => ⟨fmtNaN f, 0⟩
  | .inf n => ⟨(infConv f sat n).bits, 0⟩
  | .zero n => ⟨some (signed f n 0), 0⟩
  | .fin n m k =>
    let k := if f = 6 then k + 127 - x else k
    let c := fpRound f rm word sat n m k
    ⟨c.bits, (if c.ovf then fOvf else 0) + underflow f m k c⟩

/-- Converts one element from format `src` to format `dst` (R314). -/
def convert (src dst rm word : Nat) (sat : Bool) (xs xd bits : Nat) : CRes :=
  let v := cvtValue src bits xs
  let inv := if fmtFloat src && src ≠ 6 && isSNaN src bits then fInv else 0
  if fmtInt dst then
    if fmtInt src then
      let i := toSigned (fmtBits src) bits
      ⟨some (intConv dst sat i), 0⟩
    else
      let (b, fl) := toInteger (fmtBits dst) rm word v
      ⟨some b, fl ||| inv⟩
  else
    let r := toFloat dst rm word sat xd v
    ⟨r.bits, r.flags ||| inv⟩

/-- Is a format code one of the wide side: F64, F32, I32? -/
def wideFmt (f : Nat) : Bool := f = 0 || f = 1 || f = 7

/-- Elements that a conversion moves (R314). -/
def cvtCount (src dst : Nat) : Nat := if src = 0 || dst = 0 then 8 else 16

/-- Does a side fill the register? -/
def cvtFull (n f : Nat) : Bool := n * fmtBits f == 512

/-- Is a conversion's form legal: a wide side, and a slice within the register (R314)? -/
def cvtLegal (src dst slice : Nat) : Bool :=
  let n := cvtCount src dst
  let fits := fun f => (slice + 1) * (n * fmtBits f) ≤ 512
  (wideFmt src || wideFmt dst) &&
    (if cvtFull n src && cvtFull n dst then slice == 0 else (cvtFull n src || fits src) && (cvtFull n dst || fits dst))

/-- The bit position of element i of a side. -/
def cvtPos (n f slice i : Nat) : Nat := (if cvtFull n f then 0 else slice * (n * fmtBits f)) + i * fmtBits f

/-! ### Lanes -/

/-- The `w`-bit piece of a register at bit `pos`. -/
def piece (v pos w : Nat) : Nat := v / 2 ^ pos % 2 ^ w

/-- A register with the `w`-bit piece at bit `pos` replaced. -/
def putPiece (v pos w x : Nat) : Nat :=
  v % 2 ^ pos + (x % 2 ^ w) * 2 ^ pos + v / 2 ^ (pos + w) * 2 ^ (pos + w)

/-- Is lane i of width w enabled by a 16-bit predicate (R293)? -/
def laneOn (p w i : Nat) : Bool := p / 2 ^ (if w = 64 then 2 * i else i) % 2 == 1

end Sys2Proof.Machine
end

