-- ==== Sys2Proof/Machine/Operands.lean ====
section
/-!
DEFINITION. Operand forms of the Scehus instructions: the fields each uses, which encodings are legal, and the scalar, vector
and predicate registers of a wick (R293, R309 to R321, R328).
-/
namespace Sys2Proof.Machine

/-! ### The shape of each instruction (R309, R310, R312 to R321, R328) -/

/-- What a register field names. -/
inductive Use where
  | none | s | v | p
  deriving DecidableEq, Repr

/-- Which fields an instruction uses: the register fields, the allowed bits of MOD, IMM16 and IMM64. -/
structure Shape where
  d : Use := .none
  a : Use := .none
  b : Use := .none
  c : Use := .none
  mod : Nat := 0
  imm16 : Bool := false
  imm64 : Bool := false

/-- The shape of ALU operation `op`; `immb` is MOD[11]. -/
def aluShape (op : Nat) (immb : Bool) : Option Shape :=
  let two : Shape := { d := .s, a := .s, b := if immb then .none else .s, mod := 0x800, imm64 := immb }
  if op = 0 then some {}
  else if op ≤ 0x0F then some two
  else if op = 0x10 then some { d := .s, imm64 := true }
  else if op = 0x12 || op = 0x13 then some { d := .s, a := .s }
  else if op = 0x20 then some { two with d := .p, mod := 0x807 }
  else if 0x21 ≤ op && op ≤ 0x23 then some { d := .p, a := .p, b := .p }
  else if op = 0x24 then some { d := .p, a := .s }
  else if op = 0x25 then some { d := .s, a := .p }
  else if op = 0x30 then some { imm64 := true }
  else if op = 0x31 then some { a := .s, imm64 := true }
  else if op = 0x32 then some { d := .s, imm64 := true }
  else none

/-- The shape of VEC operation `op`. -/
def vecShape (op mod : Nat) : Option Shape :=
  let one : Shape := { d := .v, a := .v, mod := 3 }
  let two : Shape := { one with b := .v }
  if op = 0 then some one
  else if op ≤ 0x03 then some two
  else if op ≤ 0x05 then some { two with c := .v }
  else if op ≤ 0x08 then some two
  else if op ≤ 0x0B then some one
  else if op ≤ 0x0E then some two
  else if op = 0x10 || op = 0x13 then some { one with a := .s }
  else if op = 0x11 then some { one with d := .s, imm16 := true }
  else if op = 0x12 then some { one with a := .s, imm16 := true }
  else if op = 0x14 then some { one with d := .s }
  else if op = 0x20 then some { two with d := .p, mod := 0x1F }
  else if op = 0x21 then some { two with c := .p }
  else if op = 0x30 then
    some { d := .v, a := .v, b := if mod % 16 = 6 || mod / 16 % 16 = 6 then .s else .none,
           c := if mod / 256 % 4 = 2 then .v else .none, mod := 0x7FF, imm16 := true }
  else none

/-- The shape of MEM operation `op`. -/
def memShape (op mod : Nat) : Option Shape :=
  let wide := mod % 8 == 4
  let sx := if wide then 0 else 0x40
  let reg : Use := if wide then .v else .s
  let block : Shape := { a := .s, b := .s, mod := 0x30, imm16 := true, imm64 := true }
  if op = 0 then some { d := reg, a := .s, mod := 7 + sx, imm64 := true }
  else if op = 1 then some { a := .s, b := reg, mod := 7, imm64 := true }
  else if op = 2 then some { d := reg, a := .s, mod := 0x37 + sx, imm64 := true }
  else if op = 3 then some { a := .s, b := reg, mod := 0x37, imm64 := true }
  else if op = 4 || op = 5 || op = 7 then some block
  else if op = 6 then
    some { d := .s, a := .s, b := .s, c := if mod / 256 = 2 then .s else .none, mod := 0xFB7,
           imm16 := mod / 256 == 1, imm64 := true }
  else if op = 8 then some { b := .s, mod := 0x30 }
  else if op = 9 then some { d := .s, b := .s, mod := 0x31 }
  else none

/-- The shape of COL, SYN, LPX and SYS operations. -/
def otherShape (cls op mod : Nat) : Option Shape :=
  if cls = 3 then
    if 1 ≤ op && op ≤ 7 then some { d := .s, a := .s, mod := if op = 4 then 0xF0 else 0x70, imm64 := true } else none
  else if cls = 4 then
    if op = 0 then some { mod := 0xF, imm16 := true }
    else if op = 1 then some { a := .s }
    else if op = 2 then some { imm16 := true }
    else if op = 3 || op = 4 then some {}
    else if op = 5 then some { mod := 1 }
    else none
  else if cls = 5 then
    if op = 0 then some { d := .s, a := .s, b := .s }
    else if op = 1 then some { d := .s, a := if mod % 2 = 1 then .s else .none, mod := 0x31 }
    else if op = 2 then some {}
    else if op = 3 then some { d := .s }
    else none
  else if cls = 6 then
    if op = 0 then some { a := .s, b := .s, c := if mod / 4 % 2 = 1 then .s else .none, mod := 0x37 }
    else if op = 1 then some { d := .v, a := .s, b := .s, c := .s }
    else if op = 2 then some { d := .s }
    else if op = 3 then some { d := .s, imm16 := true }
    else if op = 4 then some { a := .s, imm16 := true }
    else if op = 5 then some { d := .s }
    else if op = 6 then some {}
    else none
  else none

/-- The shape of an instruction; none where CLASS or OP is reserved. -/
def shapeOf (cls op mod : Nat) : Option Shape :=
  if cls = 0 then aluShape op (mod / 2048 % 2 == 1)
  else if cls = 1 then vecShape op mod
  else if cls = 2 then memShape op mod
  else otherShape cls op mod

/-- Does a register field obey its use?  `strict` asks the upper two bits of a field to be zero (R312). -/
def fieldOk (u : Use) (strict : Bool) (x : BitVec 5) : Bool :=
  match u with
  | .none => x == 0
  | .s => !strict || x.toNat < 8
  | .v => x.toNat < 16
  | .p => !strict || x.toNat < 8

/-- Lane type rules of VEC operations (R313): 0 F32, 1 F64, 2 I32, 3 I64. -/
def laneOk (op mod : Nat) : Bool :=
  if 0x08 ≤ op && op ≤ 0x0B then mod % 4 ≤ 1
  else if op = 0x13 then 2 ≤ mod % 4
  else if op = 0x20 then mod / 4 % 8 ≤ 3
  else true

/-- The value rules of MOD and IMM16 beyond the allowed bits. -/
def valuesOk (cls op mod imm16 : Nat) : Bool :=
  if cls = 0 then op ≠ 0x20 || mod % 8 ≤ 5
  else if cls = 1 then
    if op = 0x30 then
      mod % 16 ≤ 9 && mod / 16 % 16 ≤ 9 && mod / 256 % 4 ≤ 2 && cvtLegal (mod % 16) (mod / 16 % 16) (imm16 % 8)
    else laneOk op mod
  else if cls = 2 then
    if op ≤ 3 then mod % 8 ≤ 4
    else if op = 6 then (mod % 8 = 2 || mod % 8 = 3) && mod / 256 ≤ 5
    else if op = 4 || op = 5 || op = 7 then imm16 < 64
    else true
  else true

/-- Is an instruction legal (R310)?  The upper two bits of D, A and B are zero for CMP and the predicate operations. -/
def legal (cls op : Nat) (f : Fields) : Bool :=
  match shapeOf cls op f.mod.toNat with
  | none => false
  | some h =>
    let strict := cls == 0 && 0x20 ≤ op && op ≤ 0x25
    fieldOk h.d strict f.d && fieldOk h.a strict f.a && fieldOk h.b strict f.b && fieldOk h.c false f.c
      && f.mod.toNat &&& (0xFFF - h.mod) == 0 && (h.imm16 || f.imm16 == 0) && (h.imm64 || f.imm64 == 0)
      && valuesOk cls op f.mod.toNat f.imm16.toNat

/-- The scoreboard bit of a register field. -/
def useBit (u : Use) (x : BitVec 5) : Nat :=
  match u with
  | .s => 2 ^ x.toNat
  | .v => 2 ^ (32 + x.toNat)
  | _ => 0

/-- The registers an instruction reads or writes, as scoreboard bits. -/
def usesOf (cls op : Nat) (f : Fields) : Nat :=
  match shapeOf cls op f.mod.toNat with
  | none => 0
  | some h => useBit h.d f.d ||| useBit h.a f.a ||| useBit h.b f.b ||| useBit h.c f.c

/-- Fields of an instruction word (R309). -/
def fieldsOf (b : BitVec 128) : Fields where
  pneg := b.getLsbD 115
  pred := b.extractLsb' 112 3
  d := b.extractLsb' 107 5
  a := b.extractLsb' 102 5
  b := b.extractLsb' 97 5
  c := b.extractLsb' 92 5
  mod := b.extractLsb' 80 12
  imm16 := b.extractLsb' 64 16
  imm64 := b.extractLsb' 0 64

/-! ### Wick registers -/

/-- A scalar register. -/
def WickSt.s (x : WickSt) (r : BitVec 5) : Nat := (x.sregs.getD r.toNat 0).toNat
/-- A vector register. -/
def WickSt.v (x : WickSt) (r : BitVec 5) : Nat := (x.vregs.getD r.toNat 0).toNat
/-- A predicate: p0 reads 0xFFFF (R293). -/
def WickSt.p (x : WickSt) (i : Nat) : Nat := if i % 8 = 0 then 0xFFFF else (x.pregs.getD (i % 8) 0).toNat
/-- The governing predicate (R311). -/
def WickSt.gov (x : WickSt) (f : Fields) : Nat := if f.pneg then 0xFFFF - x.p f.pred.toNat else x.p f.pred.toNat
/-- Writes a scalar register, modulo 2^64. -/
def WickSt.setS (x : WickSt) (r v : Nat) : WickSt := { x with sregs := listPut 32 0 x.sregs r (BitVec.ofNat 64 v) }
/-- Writes a vector register. -/
def WickSt.setV (x : WickSt) (r v : Nat) : WickSt := { x with vregs := listPut 16 0 x.vregs r (BitVec.ofNat 512 v) }
/-- Writes a predicate; writes to p0 are ignored (R293). -/
def WickSt.setP (x : WickSt) (i v : Nat) : WickSt :=
  if i % 8 = 0 then x else { x with pregs := listPut 8 0 x.pregs (i % 8) (BitVec.ofNat 16 v) }
/-- WSTAT (R293). -/
def WickSt.wstat (x : WickSt) : Nat :=
  x.oc.getD 0 0 + x.oc.getD 1 0 * 2 ^ 12 + x.oc.getD 2 0 * 2 ^ 24 + x.oc.getD 3 0 * 2 ^ 36 + b2n x.ev * 2 ^ 48 + x.fp * 2 ^ 49

/-- Writes a wick; WK_STATE shows it. -/
def setWick (q e w : Nat) (x : WickSt) (s : State) : State :=
  let l := lx s q
  let s := setLx q { l with wicks := Tbl.set WickSt.init l.wicks (32 * e + w) x } s
  setReg (Reg.wkState q e w) (BitVec.ofNat 32 (x.state * 2 ^ 28 + b2n x.ev * 2 ^ 27 + x.pc.toNat)) s

end Sys2Proof.Machine
end

