-- ==== Sys2Proof/Machine/LanternCore.lean ====
section
/-!
DEFINITION. How Lantern engines issue: the scoreboards, faults, waiting and
waking, long operations, LS transfers, and the write-back of CRSU tasks (R291 to R311, R322 to R324, R351).
-/
namespace Sys2Proof.Machine

/-! ### Engines -/

/-- RUN of an engine. -/
def leRun (s : State) (q e : Nat) : Bool := rb s (Reg.leCtrl q e) 0
/-- JOB of an engine (R292). -/
def leJob (s : State) (q e : Nat) : Nat := rf s (Reg.leCfg q e) 11 0
/-- The code range an engine executes from. -/
def leRange (s : State) (q e : Nat) : Nat := rf s (Reg.leCfg q e) 19 16

/-- Is the cluster of q out of reach: absent, gated, or in a unit reset (R31, R464)? -/
def clusterDown (s : State) (q : Nat) : Bool :=
  let st := unitState s (32 + q)
  clusterGone s q || quadShut s q || st == 2 || st == 3 || st == 5 || st == 7

/-- Does the code store of q not answer?  A HELD cluster's code can be loaded and measured (R464). -/
def codeDown (s : State) (q : Nat) : Bool :=
  let st := unitState s (32 + q)
  clusterGone s q || quadShut s q || st == 2 || st == 3 || st == 7

/-- Messages queued for an engine. -/
def engineMsgs (s : State) (q e : Nat) : Nat := ((lx s q).msgs.filter (·.1 == e)).length

/-- LE_STATUS follows the engine. -/
def showEngine (q e : Nat) (s : State) : State :=
  let n := (engineOps s q e).length
  let a := Reg.leStatus q e
  setRf a 5 0 (engineMsgs s q e) (setRf a 25 16 n (setRb a 31 (!leRun s q e && n == 0) s))

/-- Bytes of the queued messages of a quadrant. -/
def msgBytes (s : State) (q : Nat) : Nat := ((lx s q).msgs.map (fun m => 64 + m.2.2.payload.length)).sum
/-- Is the message buffer full: has it no room for a message of the greatest size (log entry 42)? -/
def msgFull (s : State) (q : Nat) : Bool := 2 ^ 20 < msgBytes s q + 4160
/-- MSGBUF_FULL follows the buffer. -/
def showMsgs (q : Nat) (s : State) : State := setRb (Reg.lxStatus q) 30 (msgFull s q) s

/-- The wick an engine issues from: the first in RUN at or after its pointer (R295). -/
def issuing (s : State) (q e : Nat) : Option Nat :=
  let c := Tbl.get 0 (lx s q).cur e
  ((List.range 32).map (fun i => (c + i) % 32)).find? (fun w => (wick s q e w).state == wkRun)

/-- An engine's pointer. -/
def setCur (q e w : Nat) (s : State) : State := setLx q { lx s q with cur := Tbl.set 0 (lx s q).cur e (w % 32) } s

/-- Wick w of engine e yields (R295). -/
def yieldWick (q e w : Nat) (s : State) : State :=
  let s := setWick q e w { wick s q e w with quantum := 0 } s
  setCur q e (w + 1) (pmcEvent q 44 0x051 e 1 (count1 (Ctr.lxYields q) s))

/-! ### Faults (R322, R323, R353) -/

/-- A chunk's delivery stops with an action error (R353, R361). -/
def stopChunk (q r aerr detail : Nat) (s : State) : State :=
  match slotAt s q r with
  | none => s
  | some x =>
    if x.fenced then s
    else
      let s := match x.post with
        | some p => if x.stopped then s else logAction q p aerr s
        | none => s
      let x := if x.aerr = 0 then { x with aerr := aerr, detail := detail } else x
      setSlot q r (some { x with stopped := true }) s

/-- A fault of a wick; `trap` is IMM16 of a TRAP.  A fault without an address shows a free one.  The registers of a wick
already in FAULT keep their values. -/
def wickFault (q e w code fpc : Nat) (addr? : Option Nat) (impr : Bool) (trap : Option Nat) (s : State) : State :=
  let x := wick s q e w
  let (addr, s) := match addr? with
    | some a => (a, s)
    | none => let (v, s) := freeWord s; (v.toNat, s)
  let s := if x.state = wkFault then s else
    let s := setReg (Reg.wkFault q e w) (BitVec.ofNat 32 (b2n impr * 2 ^ 31 + fpc % 2 ^ 18 * 2 ^ 8 + code)) s
    let s := setReg64 (Reg.wkFaddrLo q e w) (Reg.wkFaddrHi q e w) addr s
    match trap with
    | some t => setReg (Reg.wkTrap q e w) (BitVec.ofNat 32 t) s
    | none => s
  let s := setWick q e w { x with state := wkFault, wait := .none } s
  let s := count1 (Ctr.lxFaults q) s
  let s := if 6 ≤ code && code ≤ 8 then count1 (Ctr.lxRegionFault q) s else s
  let s := raise (64 * q + 37) (logEvent q 0x0501 clsUnit 4 e (dataW e w code fpc addr) s)
  match x.task with
  | some (r, _) => stopChunk q r aeTaskFault code s
  | none => s

/-! ### The write-back of a task (R351) -/

/-- The bytes of `n` task elements held from vector register `r0` on, converted to format `fmt` (R314, R351): `g` is the
global index of the first, `stream` its random stream. -/
def taskBytes (p : Post) (x : WickSt) (r0 n fmt rm g stream : Nat) : List Byte :=
  let lane := if p.f64 then 64 else 32
  let per := 512 / lane
  let src := if p.f64 then 0 else 1
  ((List.range n).map (fun j =>
    let bits := piece (x.vregs.getD (r0 + j / per) 0).toNat (lane * (j % per)) lane
    let word := if rm = 2 then randomWord p.seed (g + j) p.step stream else 0
    elemBytes opSum fmt ((convert src fmt rm word false 127 127 bits).bits.getD 0))).flatten

/-- Writes part of a task's results through IG_ARB requester 1. -/
def backWrite (q r t part a : Nat) (bs : List Byte) (s : State) : State :=
  forEach (pageCuts a bs.length) (fun c s =>
    issueAccess 1 0 c.1 (.write ((bs.drop (c.1 - a)).take c.2)) (.back q r t part (c.1 - a)) s) s

/-- A task's wick has reached IDLE: its registers are converted and written (R351); nothing is written for a chunk that has
stopped or is fenced (R353, R360). -/
def taskBack (q e w r t : Nat) (s : State) : State :=
  match slotAt s q r with
  | none => s
  | some x => match x.post with
    | none => s
    | some p =>
      let n := min (taskElems p) (p.units - t * taskElems p)
      if x.stopped || x.fenced then
        setSlot q r (some { x with tasks := modifyIx x.tasks t (fun k => { k with phase := 4 }) }) s
      else
        let k := wick s q e w
        let g := x.chunk * x.cap + t * taskElems p
        let pb := fmtBits p.pfmt / 8
        let sb := fmtBits p.sfmt / 8
        let po := taskBytes p k 4 n p.pfmt p.prmode g 1
        let s := setSlot q r (some { x with tasks := modifyIx x.tasks t (fun k => { k with phase := 3, pOut := po }) }) s
        let s := backWrite q r t 0 (p.pOut + t * taskElems p * pb) po s
        forRange p.nstate (fun i s =>
          backWrite q r t (1 + i) (p.sOut + i * p.sslot + t * taskElems p * sb)
            (taskBytes p k (8 + 4 * i) n p.sfmt p.srmode g (2 + i)) s) s
where
  /-- Changes element i of a list. -/
  modifyIx (xs : List TaskSt) (i : Nat) (f : TaskSt → TaskSt) : List TaskSt :=
    listSet xs i (f (xs.getD i TaskSt.new))

/-- A wick that is HALTING or KILLING with nothing outstanding reaches IDLE (R294, R319). -/
def settle (q e w : Nat) (s : State) : State :=
  let x := wick s q e w
  if (x.state = wkHalting || x.state = wkKilling) && x.oc.all (· == 0) then
    let s := setWick q e w { x with state := wkIdle, haltInt := false, task := none } s
    let s := if x.state = wkHalting && x.haltInt then raise (64 * q + 37) s else s
    match x.task with
    | some (r, t) => taskBack q e w r t s
    | none => s
  else s

/-! ### Long operations (R298 to R301) -/

/-- Is there an engine entry, and a Lantern tag where one is needed? -/
def roomFor (s : State) (q e : Nat) (tag : Bool) : Bool :=
  (engineOps s q e).length < 512 && (!tag || lxTagsUsed s q < (ms s q).lxPool)

/-- Starts a long operation of a wick whose instruction is being issued; answers its number. -/
def startOp (w : WickId) (f : Fields) (kind : OpKind) (tag : Bool) (busy : Nat) (fin : Option OpEnd) (s : State) :
    Nat × State :=
  let q := w.q.val
  let e := w.e.val
  let (id, s) := newAcc s
  let x := wick s q e w.w
  let c := f.mod.toNat / 16 % 4
  let l := lx s q
  let op : LongOp := ⟨id, e, w.w, c, kind, (x.pc - 1).toNat, tag, fin, []⟩
  let s := setLx q { l with ops := l.ops ++ [op] } s
  let s := setWick q e w.w { x with oc := listPut 4 0 x.oc c (x.oc.getD c 0 + 1), busy := x.busy ||| BitVec.ofNat 48 busy } s
  (id, showLxTags q (showEngine q e (pmcEvent q 44 0x055 e 1 s)))

/-- What a wick in WAIT_TAG lacks (R301, R331). -/
def lacksEntry : Nat := 0
def lacksTag : Nat := 1
def lacksRecord : Nat := 2

/-- The first wick of engine e, from its rotating pointer, in WAIT_TAG for the given resource. -/
def tagWaiter (s : State) (q e kind : Nat) : Option Nat :=
  let c := Tbl.get 0 (lx s q).tagPtr e
  ((List.range 32).map (fun i => (c + i) % 32)).find? (fun w =>
    let x := wick s q e w
    x.state == wkWaitTag && (x.wait == .counters kind 0))

/-- Wakes a wick that waited for an entry or tag (R301). -/
def wakeTag (q e w : Nat) (s : State) : State :=
  let s := setWick q e w { wick s q e w with state := wkRun, wait := .none } s
  setLx q { lx s q with tagPtr := Tbl.set 0 (lx s q).tagPtr e ((w + 1) % 32) } s

/-- An entry of engine e is free again: its next waiting wick goes on. -/
def entryFreed (q e : Nat) (s : State) : State :=
  match tagWaiter s q e lacksEntry with
  | some w => wakeTag q e w s
  | none => s

/-- A tag, or a fused-instruction record, is free again: of the engines that run, the next waiting one's next wick goes on. -/
def tagFreed (q kind : Nat) (s : State) : State :=
  let c := (lx s q).engPtr
  match ((List.range 64).map (fun i => (c + i) % 64)).find? (fun e => leRun s q e && (tagWaiter s q e kind).isSome) with
  | none => s
  | some e => match tagWaiter s q e kind with
    | none => s
    | some w =>
      let s := wakeTag q e w s
      setLx q { lx s q with engPtr := (e + 1) % 64 } s

/-- TAG_POOL_APPLY: a new pool size is applied once no tag of the pool is in use; waiting wicks try again (R301, R377). -/
def execTagPoolApply (q : Quad) (lantern : Bool) (s : State) : Host.Outcome State Fault Refusal :=
  .next (if quadShut s q || !fused s then s
    else
      let s := tagPoolApply q lantern s
      if lantern then forRange (min (ms s q).lxPool 2048) (fun _ s => tagFreed q lacksTag s) s else s)

/-- A wick whose wait may be over: registers no longer pending, counters low enough (R294, R319). -/
def recheck (q e w : Nat) (s : State) : State :=
  let x := wick s q e w
  let go := match x.wait with
    | .counters sel limit =>
      if x.state = wkWaitReg then x.busy.toNat &&& sel == 0
      else x.state == wkWaitSyn && (List.range 4).all (fun c => sel / 2 ^ c % 2 == 0 || x.oc.getD c 0 ≤ limit)
    | _ => false
  if go then setWick q e w { x with state := wkRun, wait := .none } s else s

/-- The scoreboard bits that an operation's end clears. -/
def OpKind.busy : OpKind → Nat
  | .load d size _ => if size = 4 then 2 ^ (32 + d) else 2 ^ d
  | .atom d _ => 2 ^ d
  | .recv _ d _ => 2 ^ d
  | .lpc d => 2 ^ d
  | .col d _ => 2 ^ d
  | _ => 0

/-- A loaded value: `size` is SIZE, sign-extended with `sx`. -/
def loadValue (size : Nat) (sx : Bool) (bs : List Byte) : Nat :=
  let n := 2 ^ size
  let v := leNat (bs.take n)
  if sx then ofSigned 64 (toSigned (8 * n) v) else v

/-- Writes the destination registers and LS bytes of an operation that ended well. -/
def opWrites (q : Nat) (o : LongOp) (data : List Byte) (s : State) : State :=
  let x := wick s q o.engine o.wick
  let put := fun x => setWick q o.engine o.wick x s
  match o.kind with
  | .load d size sx => put (if size = 4 then x.setV d (leNat data) else x.setS d (loadValue size sx data))
  | .atom d _ => put (x.setS d (leNat data))
  | .lpc d => put (x.setS d (leNat data))
  | .col d _ => put (x.setS d (leNat data))
  | .igld l n =>
    let (bs, s) := spoil l (padTo n data) o.dirty s
    lsStore q o.engine l bs s
  | .recv l d _ =>
    let (bs, s) := spoil l data o.dirty s
    let s := lsStore q o.engine l bs s
    setWick q o.engine o.wick (x.setS d (data.length - 64)) s
  | _ => s

/-- The end of a HASH (R321): the wick's state takes the bytes; FINAL writes the digest, and leaves a state that the spec
does not describe. -/
def hashEnd (q : Nat) (o : LongOp) (l n : Nat) (wide start final : Bool) (out : Nat) (kill : Bool) (s : State) : State :=
  let rate := if wide then 72 else 136
  let (bs, s) := lsLoadOp q o l n s
  let x := wick s q o.engine o.wick
  let sp := match x.hash, start with
    | some (_, p), false => p
    | _, _ => Sponge.init
  let p := sp.absorb rate bs
  if kill then s
  else if final then
    let (d, s) := spoil out (p.finish rate (if wide then 64 else 32)) o.dirty s
    let k := Keccak.build (fun i j => Config.freeWord (s.freeCtr + i + 5 * j))
    let s := { s with freeCtr := s.freeCtr + 25 }
    lsStore q o.engine out d (setWick q o.engine o.wick { x with hash := some (wide, ⟨k, []⟩) } s)
  else setWick q o.engine o.wick { x with hash := some (wide, p) } s

/-- The end of a SEND: its packet enters the crossbar (R317). -/
def sendEnd (q : Nat) (o : LongOp) (l n : Nat) (head : List Byte) (s : State) : State :=
  let (bs, s) := lsLoadOp q o (l + 64) (n - 64) s
  (originate q (originReq .lx (74 + o.engine % 4) (.lookup none) (sealHead head bs) bs s) s).2

/-- May the operation complete: has its data, acknowledgement, commit or message come? -/
def LongOp.ready (o : LongOp) : Bool :=
  match o.kind with
  | .send _ _ _ => true
  | .hash _ _ _ _ _ _ => true
  | _ => o.fin.isSome

/-- LONG_OP_COMPLETE (R298, R300, R324): destinations written unless the wick is being killed, pending bits cleared, the
counter lowered, entry and tag freed, waiting wicks woken; a failed operation faults its wick (R322), which yields where it is
the one that issues (R295). -/
def longOpComplete (q id : Nat) (s : State) : State :=
  match (lx s q).ops.find? (fun o => o.id == id) with
  | none => s
  | some o =>
    if !o.ready then s
    else
      let e := o.engine
      let w := o.wick
      let fin := o.fin.getD ⟨0, 0, []⟩
      let kill := (wick s q e w).state == wkKilling
      let s := match o.kind with
        | .send l n h => sendEnd q o l n h s
        | .hash l n wide st fi out => hashEnd q o l n wide st fi out kill s
        | _ => if kill || fin.fault ≠ 0 then s else opWrites q o fin.data s
      let x := wick s q e w
      let x := { x with busy := x.busy &&& ~~~ BitVec.ofNat 48 o.kind.busy,
                        oc := if o.ctr < 4 then listPut 4 0 x.oc o.ctr (x.oc.getD o.ctr 0 - 1) else x.oc }
      let s := setWick q e w x s
      let s := setLx q { lx s q with ops := (lx s q).ops.filter (fun p => p.id != id) } s
      let s := showLxTags q (showEngine q e s)
      let current := x.state == wkRun && leRun s q e && issuing s q e == some w
      let s := if fin.fault ≠ 0 && !kill then
          let s := wickFault q e w fin.fault o.fpc (some fin.addr) true none s
          if current then yieldWick q e w s else s
        else settle q e w (recheck q e w s)
      let s := entryFreed q e s
      match o.kind with
      | .col _ _ => tagFreed q lacksRecord s
      | _ => if o.tag then tagFreed q lacksTag s else s

/-- LONG_OP_COMPLETE. -/
def execLongOpComplete (q : Quad) (op : Nat) (s : State) : Host.Outcome State Fault Refusal :=
  .next (if clusterDown s q then s else longOpComplete q op s)

/-! ### Issue (R295, R310, R311, R322) -/

/-- What an instruction does at issue. -/
inductive Eff where
  /-- It faults, with a faulting address, and IMM16 for TRAP. -/
  | fault (code : Nat) (addr trap : Option Nat)
  /-- It finds no entry, tag or record: which, as `lacksEntry` and the others number them. -/
  | waitTag (kind : Nat)
  /-- It waits for a table entry in repair, and nothing changes (R487). -/
  | stall
  /-- It executes. -/
  | done (s : State)
  /-- It executes and the wick yields. -/
  | yields (s : State)

/-- The quantum of an engine's wick is used up (R295). -/
def quantumSpent (s : State) (q e w : Nat) : Bool :=
  let n := rf s (Reg.leCfg q e) 27 20
  n ≠ 0 && n ≤ (wick s q e w).quantum

/-- Does engine e issue from wick w now? -/
def canIssue (s : State) (q e w : Nat) : Bool :=
  !clusterDown s q && leRun s q e && issuing s q e == some w

/-- Does the wick's PC lie in its code range (R303)? -/
def pcInRange (s : State) (q e w : Nat) : Bool :=
  (wick s q e w).pc.toNat < rf s (Reg.csRange2 q (leRange s q e)) 18 0

/-- The wick's PC moves on and the instruction counts as issued. -/
def advance (q e w : Nat) (s : State) : State :=
  let x := wick s q e w
  let s := setCur q e w (setWick q e w { x with pc := x.pc + 1, quantum := x.quantum + 1 } s)
  pmcEvent q 44 0x050 e 1 (count1 (Ctr.lxIssued q) s)

/-- Class events of an instruction. -/
def classEvent (q e cls : Nat) (s : State) : State :=
  if cls = 1 then pmcEvent q 44 0x056 e 1 s else if cls = 3 then pmcEvent q 44 0x057 e 1 s else s

/-- A wick waits for pending registers, or for an entry, tag or record. -/
def waitIn (q e w st mask : Nat) (s : State) : State :=
  yieldWick q e w (setWick q e w { wick s q e w with state := st, wait := .counters mask 0 } s)

/-- Issues an instruction of wick w (R295, R298, R301, R310, R311): `lanes` marks one that the predicate governs lane by
lane; `eff` runs on the state in which PC has moved on. -/
def issue (w : WickId) (cls op : Nat) (f : Fields) (lanes : Bool) (eff : State → Eff) (s : State) : State :=
  let q := w.q.val
  let e := w.e.val
  let n := w.w.val
  if !canIssue s q e n || !pcInRange s q e n || quantumSpent s q e n then s
  else
    let x := wick s q e n
    let uses := usesOf cls op f
    if !legal cls op f then yieldWick q e n (wickFault q e n 0x01 x.pc.toNat none false none s)
    else if !lanes && x.gov f % 2 == 0 then classEvent q e cls (advance q e n s)
    else if x.busy.toNat &&& uses ≠ 0 then waitIn q e n wkWaitReg uses s
    else
      match eff (classEvent q e cls (advance q e n s)) with
      | .fault code addr trap => yieldWick q e n (wickFault q e n code x.pc.toNat addr false trap s)
      | .stall => s
      | .waitTag kind =>
        waitIn q e n wkWaitTag kind (pmcEvent q 44 0x052 e 1 (count1 (Ctr.lxTagWait q) s))
      | .done t => t
      | .yields t => yieldWick q e n t

/-- The registers of the issuing wick. -/
def wkGet (w : WickId) (s : State) : WickSt := wick s w.q w.e w.w

/-- Changes the issuing wick. -/
def wkPut (w : WickId) (x : WickSt) (s : State) : State := setWick w.q w.e w.w x s

/-- A scalar result in D. -/
def scalarOut (w : WickId) (f : Fields) (v : Nat) (s : State) : Eff := .done (wkPut w ((wkGet w s).setS f.d.toNat v) s)

/-- The address of R303: (s[A] + IMM64) mod 2^64. -/
def WickSt.ea (x : WickSt) (f : Fields) : Nat := (x.s f.a + f.imm64.toNat) % 2 ^ 64

end Sys2Proof.Machine
end

