-- ==== Sys2Proof/Machine/Rings.lean ====
section
/-!
DEFINITION. Rings: acquisition, pilot windows, alias locks, loss of lock, temperature and HOLD (R80 to R91, R101, R107).
-/
namespace Sys2Proof.Machine

/-! ### What the loss and the lock of a ring bring (R82, R84, R101) -/

/-- A modulator ring no longer carries its slot: the lane leaves this end's transmit map (R82); `held` for HOLD. -/
def txLost (f c cause : Nat) (held : Bool) (s : State) : State :=
  match (fiberLinks s f).find? (fun k => linkUp s k && (mapPos (txMap s k) c).isSome) with
  | none => s
  | some k => showHold f (loseLane k ((mapPos (txMap s k) c).getD 0) c (!held) cause (setSlotState f c (if held then 3 else 0) s))

/-- A modulator ring is LOCKED again: the end that leads puts its lane back, unless the lane still waits for its drop ring
or a calibration (R59, R82). -/
def txBack (f c : Nat) (s : State) : State :=
  let k := slotLink s f (min 7 c)
  let pend := calPending s f c || (fiber s f).lost.any (·.1 == c) || slotFailed s f c || darkSlot s f == c
  if linkUp s k && leads s k && (linkSlots s k).contains c && !pend then
    match returnPos s k c (txMap s k) with
    | some p => showHold f (placeTx k c p s)
    | none => s
  else s

/-- A LOCKED ring has left its channel for the given cause of R68: a drop ring loses its lane, a modulator ring takes it from
this end's map, a matrix ring of an active route is counted (R82, R84, R101).  A drop ring on a wrong slot is a wrong-slot
event (R51).  A lane of S0 is lost to the PCIe link, whose Recovery waits for it (R412). -/
def ringGone (r cause : Nat) (s : State) : State :=
  let f := ringFiber r
  let c := ringSlot r
  if ringOnEngine r then
    if !ringDrop r then txLost f c cause false s
    else laneLost f c cause false (if cause == 2 then count1 (Ctr.wrongSlot (fiberQuad f) (fiberTile f) c) s else s)
  else if !ringOnS0 r && ringEntry r / 512 == activeSet s (ringQuad r) then count1 (Ctr.ringLoss (ringQuad r)) s
  else s

/-- A ring becomes LOCKED: ALIAS_LOCK clears; a drop ring may complete its link's LOCK, a modulator ring brings its lane
back (R57, R81, R82). -/
def ringLock (r : Nat) (s : State) : State :=
  let s := setRing' r .locked (setRing r { ring s r with fails := 0, sweeping := false } s)
  if ringOnEngine r then
    let s := setRb (aRing r) 23 false s
    if ringDrop r then lockCheck (slotLink s (ringFiber r) (min 7 (ringSlot r))) s else txBack (ringFiber r) (ringSlot r) s
  else s

/-- A failed acquisition attempt starts again from PREBIAS (R81, R85). -/
def attemptFailed (r : Nat) (s : State) : State := ringFailed r (ringStart r) s

/-- Runs `f` on a ring in state `st`. -/
def inRing (r : Nat) (st : RingState) (f : State → State) (s : State) : State := if ringState s r == st then f s else s

/-! ### Acquisition (R81, R86, R87) -/

/-- Is a ring pre-biased for a route of the shadow set?  It waits for the commit that makes the set active (R99). -/
def preBiased (s : State) (r : Nat) : Bool := !ringOnEngine r && !ringOnS0 r && ringEntry r / 512 != activeSet s (ringQuad r)

/-- RING_PREBIAS_SETTLED. -/
def execRingPrebiasSettled (r : RingRef) (s : State) : Host.Outcome State Fault Refusal :=
  .next (if preBiased s (ringNum r) then s else inRing (ringNum r) .prebias (setRing' (ringNum r) .search) s)

/-- RING_SEARCH_PEAK. -/
def execRingSearchPeak (r : RingRef) (s : State) : Host.Outcome State Fault Refusal :=
  .next (inRing (ringNum r) .search (setRing' (ringNum r) .track) s)

/-- RING_SEARCH_TIMEOUT. -/
def execRingSearchTimeout (r : RingRef) (s : State) : Host.Outcome State Fault Refusal :=
  .next (inRing (ringNum r) .search (attemptFailed (ringNum r)) s)

/-- RING_TRACK_SETTLED. -/
def execRingTrackSettled (r : RingRef) (s : State) : Host.Outcome State Fault Refusal :=
  .next (inRing (ringNum r) .track (setRing' (ringNum r) .verify) s)

/-- ALIAS_HEATER_STEP_DONE. -/
def execAliasHeaterStepDone (r : RingRef) (s : State) : Host.Outcome State Fault Refusal :=
  .next (inRing (ringNum r) .aliasTrim (fun s => setRing (ringNum r) { ring s (ringNum r) with sweeping := true } s) s)

/-- ALIAS_SWEEP_DONE. -/
def execAliasSweepDone (r : RingRef) (peak : Bool) (s : State) : Host.Outcome State Fault Refusal :=
  .next (inRing (ringNum r) .aliasTrim (fun s =>
    if !(ring s (ringNum r)).sweeping then s
    else if peak then setRing' (ringNum r) .track (setRing (ringNum r) { ring s (ringNum r) with sweeping := false } s)
    else attemptFailed (ringNum r) s) s)

/-! ### Pilot windows (R80, R81, R84) -/

/-- Index of the largest of the nine amplitudes. -/
def largest (amps : List Nat) : Nat :=
  (List.range 9).foldl (fun best i => if amps.getD best 0 < amps.getD i 0 then i else best) 0

/-- The detected slot of a window, where its detection is valid (R80). -/
def pilotSlot (thresh : Nat) (amps : List Nat) : Option Nat :=
  let n := largest amps
  let a := amps.getD n 0
  if thresh ≤ a && 0 < a && (List.range 9).all (fun i => i == n || 2 * amps.getD i 0 ≤ a) then some n else none

/-- Outcomes of a window (R80). -/
inductive PilotOutcome where
  | same | aliasTrim (detected : Nat) | wrong | none
  deriving DecidableEq, Repr

/-- The outcome for the expected slot. -/
def pilotOutcome (expected : Nat) : Option Nat → PilotOutcome
  | .none => .none
  | .some n => if n == expected then .same else if n == expected + 1 || n + 1 == expected then .aliasTrim n else .wrong

/-- The end of a pilot window in VERIFY (R81, R85, R86): a fabric fiber's drop ring waits for its SLOT check for at most 2 windows.  What it
does when neither brings the check the table does not say: here the attempt has failed, as one out of VERIFY (DESIGN CHOICE,
log entry 58). -/
def verifyWindow (r : Nat) (o : PilotOutcome) (s : State) : State :=
  let h := ring s r
  match o with
  | .same =>
    if !(ringOnEngine r && ringDrop r) || h.slotOk then ringLock r s
    else if 2 ≤ h.windows + 1 then attemptFailed r s
    else setRing r { h with matched := true, windows := h.windows + 1 } s
  | .aliasTrim n => ringFailed r id (aliasDeclare r n s)
  | .wrong => attemptFailed r s
  | .none => ringStart r s

/-- A pilot window of a LOCKED ring: ALIAS and WRONG are losses of lock (R84, R86). -/
def lockedWindow (r : Nat) (o : PilotOutcome) (s : State) : State :=
  match o with
  | .aliasTrim n => ringGone r 2 (aliasDeclare r n s)
  | .wrong => ringGone r 2 (ringStart r s)
  | _ => s

/-- PILOT_WINDOW. -/
def pilotWindow (r : Nat) (amps : List Nat) (s : State) : State :=
  let n := pilotSlot (calThresh s r) amps
  let o := pilotOutcome (ringTarget s r) n
  let s := if ringOnEngine r then setRf (aRing r) 27 24 (n.getD 15) s else s
  match ringState s r with
  | .verify => verifyWindow r o s
  | .locked => lockedWindow r o s
  | _ => s

/-- PILOT_WINDOW. -/
def execPilotWindow (r : RingRef) (amps : List Nat) (s : State) : Host.Outcome State Fault Refusal :=
  .next (pilotWindow (ringNum r) amps s)

/-! ### Loss of lock and HOLD (R84, R90, R91) -/

/-- The magnitude of a dither error in 0.25 GHz. -/
def errAbs (e : BitVec 16) : Nat := e.toInt.natAbs

/-- A ring's dither error, which LOCK_ERR shows for an engine's ring. -/
def setLockErr (r : Nat) (e : BitVec 16) (s : State) : State :=
  let s := setRing r { ring s r with err := some e } s
  if ringOnEngine r then setRf (aRing r) 15 0 e.toNat s else s

/-- RING_LOCK_LOSS: beyond 40 GHz, or below half the locked drop power. -/
def execRingLockLoss (r : RingRef) (err : BitVec 16) (dropHalf : Bool) (s : State) : Host.Outcome State Fault Refusal :=
  .next (inRing (ringNum r) .locked (fun s =>
    let s := setLockErr (ringNum r) err s
    if dropHalf || 160 < errAbs err then ringGone (ringNum r) 1 (ringStart (ringNum r) s) else s) s)

/-- RING_HOLD: a ring beyond 20 GHz on a slewing engine is parked, and its lane muted at both ends (R90, R91). -/
def ringHold (r : Nat) (err : BitVec 16) (s : State) : State :=
  let st := ringState s r
  if ringSlewed s r && 80 < errAbs err && st != .hold && st != .parked && st != .failed then
    let s := setRing' r .hold (setLockErr r err s)
    if !ringOnEngine r then (if st == .locked then ringGone r 1 s else s)
    else if ringDrop r then laneLost (ringFiber r) (ringSlot r) 1 true s
    else txLost (ringFiber r) (ringSlot r) 1 true s
  else s

/-- RING_HOLD. -/
def execRingHold (r : RingRef) (err : BitVec 16) (s : State) : Host.Outcome State Fault Refusal :=
  .next (ringHold (ringNum r) err s)

/-! ### Temperature (R88 to R91) -/

/-- Sensor i of a sample. -/
def sense (x : List Nat) (i : Nat) : Nat := x.getD i 0

/-- Largest change of a die sensor within the last 1 ms: over 101 samples, in 0.0625 K. -/
def stepOf (hist : List (List Nat)) : Nat :=
  ((List.range 16).map (fun i =>
    let xs := hist.map (fun x => sense x i)
    xs.foldl max 0 - xs.foldl min (xs.headD 0))).foldl max 0

/-- Magnitude of the change of sensor i over the last 100 µs, in 0.0625 K: 0 before 11 samples. -/
def change100 (hist : List (List Nat)) (i : Nat) : Nat :=
  match hist[0]?, hist[10]? with
  | some a, some b => ((sense a i : Int) - sense b i).natAbs
  | _, _ => 0

/-- A change over 100 µs as a slew in 0.01 K/ms: 0.0625 K in 0.1 ms is 0.625 K/ms. -/
def slewOf (d : Nat) : Nat := d * 125 / 2

/-- The largest slew of engine i's sensors, and of the die sensors, in 0.01 K/ms. -/
def engineSlewOf (hist : List (List Nat)) (i : Nat) : Nat :=
  slewOf (((List.range 4).map (fun j => change100 hist (16 + 4 * i + j))).foldl max 0)
def dieSlewOf (hist : List (List Nat)) : Nat := slewOf (((List.range 16).map (change100 hist)).foldl max 0)

/-- Limits in force for an engine (R89, R90): SLEW in 0.01 K/ms, STEP in 0.0625 K; with FF_EN clear a slew of 2 K/ms at
either sensor group. -/
def slewLimit (s : State) (q i : Nat) : Nat :=
  let c := reg s (Reg.peCfg q i)
  if flag c 31 then 10 * min 0x96 (fld c 15 8) else 200
def stepLimit (s : State) (q i : Nat) : Nat := 16 * min 0x1E (rf s (Reg.peCfg q i) 7 0)

/-- Does the quadrant side of engine i's limits exceed its limit? -/
def dieOver (s : State) (q i : Nat) (hist : List (List Nat)) : Bool :=
  if rb s (Reg.peCfg q i) 31 then stepLimit s q i < stepOf hist else 200 < dieSlewOf hist

/-- Is it below two thirds of the limit (R91)? -/
def dieQuiet (s : State) (q i : Nat) (hist : List (List Nat)) : Bool :=
  if rb s (Reg.peCfg q i) 31 then 3 * stepOf hist < 2 * stepLimit s q i else 3 * dieSlewOf hist < 400

/-- Does engine i's slew exceed its limit? -/
def engineOver (s : State) (q i : Nat) (hist : List (List Nat)) : Bool := slewLimit s q i < engineSlewOf hist i

/-- Is it below two thirds of the limit (R91)? -/
def engineQuiet (s : State) (q i : Nat) (hist : List (List Nat)) : Bool := 3 * engineSlewOf hist i < 2 * slewLimit s q i

/-- An entry for THERMAL_SLEW: CAUSE stands in the top byte of B (log entry 12). -/
def slewLog (p cause : Nat) (s : State) : State :=
  let hist := (therm s (p / 4)).hist
  logEvent (p / 4) 0x0108 clsUnit 2 (p % 4) (dataG (engineSlewOf hist (p % 4)) (stepOf hist + cause * 2 ^ 56)) s

/-- A LANE reset that has not come to its calibration ends with RESULT BUSY when its engine slews (R467). -/
def slewLane (p : Nat) (s : State) : State :=
  match s.unit.cmd with
  | none => s
  | some c =>
    let f := c.index / 16
    let h := fiber s f
    if c.kind = 0 && f / 8 = p && h.calSlot ≠ some (c.index % 16) then
      urEnd (some 4) (setFiber f { h with calNext := h.calNext.filter (· != c.index % 16) } s)
    else s

/-- The rings of engine p: its modulator and drop rings, and the matrix rings onto its fibers that are not parked. -/
def engineRings (s : State) (p : Nat) : List Nat :=
  (List.range 144).map (144 * p + ·) ++
    ((s.rings.filter (fun e => !ringOnEngine e.1 && ringQuad e.1 == p / 4)).map (·.1)).filter (fun r => ringEngine s r == p)

/-- THERMAL_SLEW_SET: rings whose dither error already exceeds 20 GHz enter HOLD at once (R90). -/
def slewSet (p : Nat) (s : State) : State :=
  if engineSlew s p then s
  else
    let s := slewLane p (slewLog p 1 (setRb (Reg.peTherm (p / 4) (p % 4)) 31 true s))
    forEach (engineRings s p) (fun r s =>
      match (ring s r).err with
      | some e => ringHold r e s
      | none => s) s

/-- The change of sensor i over the last 100 µs, in 0.0625 K, with its sign: 0 before 11 samples. -/
def slewSigned (hist : List (List Nat)) (i : Nat) : Int :=
  match hist[0]?, hist[10]? with
  | some a, some b => (sense a i : Int) - sense b i
  | _, _ => 0

/-- The heater drive of a ring (R88): the calibrated bias for its slot, the feedforward shift with its engine's FF_EN set,
and the loop's output.  Temperatures count in 0.0625 K, `k` and 1/`eta` in 1/65,536 (log entry 13); which sensors lie near a
ring is the implementation's. -/
def heaterDrive (s : State) (hist : List (List Nat)) (r : Nat) : Int :=
  let p := ringEngine s r
  let now := hist.headD []
  let pe := 16 + 4 * (p % 4) + Config.nearEngine r % 4
  let at' := fun off => calInt s (calRingAt r off)
  let dQd : Int := ((((List.range 16).filter (Config.nearDie r)).map (sense now)).foldl max 0 : Nat) - calNat s (calRingAt r 52) 2
  let dPe : Int := (sense now pe : Nat) - calNat s (calRingAt r 54) 2
  let shift := at' 40 * dQd + at' 44 * dPe + at' 48 * slewSigned hist pe
  at' (4 * ringTarget s r) + (if rb s (Reg.peCfg (p / 4) (p % 4)) 31 then shift * at' 36 / 2 ^ 32 else 0) +
    Config.loopOut r s.time.l

/-- The heater drives of quadrant q's rings that are not parked, in HOLD or FAILED (R81, R88). -/
def heaterDrives (s : State) (q : Nat) (hist : List (List Nat)) : List (Nat × Int) :=
  ((((List.range 4).map (fun i => engineRings s (4 * q + i))).flatten).filter (fun r =>
    !([.parked, .hold, .failed] : List RingState).contains (ringState s r))).map (fun r => (r, heaterDrive s hist r))

/-- The 32 readings of a sample: further ones are dropped, missing ones read 0. -/
def readings32 (xs : List Nat) : List Nat := (List.range 32).map (fun i => xs.getD i 0)

/-- THERMAL_SAMPLE: 16 die sensors, then 4 of each engine, in 0.0625 K above −40 °C; the heaters take their new drives
(R88), and limits that are exceeded set THERMAL_SLEW (R90). -/
def thermalSample (q : Nat) (readings : List (BitVec 12)) (s : State) : State :=
  let h := therm s q
  let hist := (readings32 (readings.map BitVec.toNat) :: h.hist).take 101
  let step := (List.range 4).any (fun i => dieOver s q i hist)
  let calm := (List.range 4).all (fun i => dieQuiet s q i hist)
  let quiet := (List.range 4).map (fun i => if calm && engineQuiet s q i hist then h.quiet.getD i 0 + 1 else 0)
  let s := emit (.heaters q (heaterDrives s q hist)) (setTherm q ⟨hist, quiet⟩ s)
  forRange 4 (fun i s =>
    let a := Reg.peTherm q i
    let hot := ((List.range 4).map (fun j => sense (hist.headD []) (16 + 4 * i + j))).foldl max 0
    let past := engineOver s q i hist
    let s := setRb a 30 (dieOver s q i hist) (setRb a 29 past s)
    let s := setRf a 27 16 hot (setRf a 15 0 (min 65535 (engineSlewOf hist i)) s)
    if step || past then slewSet (4 * q + i) s else s) s

/-- THERMAL_SAMPLE. -/
def execThermalSample (q : Quad) (readings : List (BitVec 12)) (s : State) : Host.Outcome State Fault Refusal :=
  .next (if quadShut s q then s else thermalSample q readings s)

/-- A ring in HOLD starts to re-acquire (R91). -/
def unhold (r : Nat) (s : State) : State := if ringState s r == .hold then setRing' r .prebias s else s

/-- THERMAL_SLEW_CLEAR: below two thirds of the limits for 500 µs (R91). -/
def slewClear (p : Nat) (s : State) : State :=
  let q := p / 4
  let i := p % 4
  let s := slewLog p 0 (setRb (Reg.peTherm q i) 31 false s)
  let s := forEach (engineRings s p) unhold s
  forRange 8 (fun n s =>
    let f := 8 * p + n
    let s := forRange 9 (fun c s => if slotState s f c == 3 then setSlotState f c 0 s else s) s
    showHold f (startCal f s)) s

/-- THERMAL_SLEW_CLEAR. -/
def execThermalSlewClear (p : PeIx) (s : State) : Host.Outcome State Fault Refusal :=
  .next (if engineSlew s p && 50 ≤ (therm s (p / 4)).quiet.getD (p % 4) 0 then slewClear p s else s)

end Sys2Proof.Machine
end

