-- ==== Sys2Proof/Machine/Lightpath.lean ====
section
/-!
DEFINITION. The lightpath matrix: route entries, validation, commits and gaps (R92 to R101, R162).
-/
namespace Sys2Proof.Machine

/-! ### Writes of route entries (R97) -/

/-- Offset of a word of a route entry. -/
def routeAddr (q e w : Nat) : Nat := Reg.route0 q e + 4 * w

/-- A write of a route word: accepted only in the shadow set with no commit pending (R97). -/
def routeAccepts (s : State) (q e : Nat) : Bool := !rb s (Reg.lpStatus q) 31 && e / 512 != activeSet s q

/-- A write of a route word, counted in WRITE_REJ when it is ignored. -/
def routeWrite (q e w : Nat) (v : Word) (s : State) : State :=
  if routeAccepts s q e then writeRw (routeAddr q e w) v s else count1 (Ctr.writeRej q) s

/-- ROUTE_WRITE. -/
def execRouteWrite (q : Quad) (entry : RouteIx) (word : Fin 8) (v : Word) (s : State) : Host.Outcome State Fault Refusal :=
  .next (guardReg (routeAddr q entry word) (routeWrite q entry word v) s)

/-! ### Validation (R94) -/

/-- The fiber of tile t of quadrant q. -/
def tileFiber (q t : Nat) : Nat := 32 * q + t

/-- Does any two of a list agree? -/
def anyTwo {α : Type} (f : α → α → Bool) : List α → Bool
  | [] => false
  | x :: xs => xs.any (f x) || anyTwo f xs

/-- OUT_CONFLICT: two entries that share their source, or that feed one outgoing slot. -/
def outConflict (rs : List Route) : Bool :=
  anyTwo (fun a b => a.slot == b.slot &&
    ((a.src == b.src && a.tx == b.tx) || a.outs.any (fun o => b.outs.any (·.1 == o.1)))) rs

/-- MODE_ERR of one entry. -/
def modeErr (s : State) (q : Nat) (r : Route) : Bool :=
  let ok := fun t =>
    let f := tileFiber q t
    fiberEn s f && (if r.tx then fiberMode s f == modeTerm && fiberWidth s f == 8 else fiberMode s f == modeThru)
  8 < r.slot || !ok r.src || r.outs.any (fun o => !ok o.1)

/-- The outputs of an entry as a set of tiles, ascending. -/
def outTiles (r : Route) : List Nat := (List.range 32).filter (fun t => r.outs.any (·.1 == t))

/-- MIXED_LINK: a TERM fiber fed by another fiber's modulator is fed so on all nine slots, and the nine entries of its source
list the same fibers. -/
def mixedLink (rs : List Route) : Bool :=
  let tx := rs.filter (·.tx)
  tx.any (fun r => r.outs.any (fun o => o.1 != r.src) &&
    !((List.range 9).all (fun c => tx.any (fun x => x.src == r.src && x.slot == c && outTiles x == outTiles r))))

/-- MAP_MISMATCH: a TERM output fiber's FT_MAP differs from its source's. -/
def mapMismatch (s : State) (q : Nat) (rs : List Route) : Bool :=
  rs.any (fun r => r.tx && r.outs.any (fun o => txMap s (8 * tileFiber q o.1) != txMap s (8 * tileFiber q r.src)))

/-- RING_FAULT: a matrix ring the set needs is FAILED or excluded, or its engine is out of service (R94, R467). -/
def ringFaulty (s : State) (q : Nat) (es : List (Nat × Route)) : Bool :=
  es.any (fun e => (List.range e.2.outs.length).any (fun n =>
    let h := ring s (2304 + 8192 * q + 8 * e.1 + n)
    let p := 4 * q + (e.2.outs.getD n (0, 0)).1 / 8
    h.state == .failed || h.excluded || unitState s (4 + p) != 4))

/-- The matrix rings that a set uses: one for each output of each entry. -/
def setRings (q : Nat) (es : List (Nat × Route)) : List Nat :=
  (es.map (fun e => (List.range e.2.outs.length).map (fun n => 2304 + 8192 * q + 8 * e.1 + n))).flatten

/-- The rings of quadrant q's shadow set. -/
def shadowRings (s : State) (q : Nat) : List Nat := setRings q (routeSet s q (1 - activeSet s q))

/-- COMMIT_VALIDATE: the first failing code of set x, 0 when the set is valid (R94). -/
def validate (s : State) (q x : Nat) : Nat :=
  let es := routeSet s q x
  let rs := es.map (·.2)
  if outConflict rs then 1
  else if rs.any (modeErr s q) then 2
  else if mixedLink rs then 3
  else if mapMismatch s q rs then 4
  else if ringFaulty s q es then 5
  else if (List.range 4).any (fun i => engineSlew s (4 * q + i)) then 6
  else if rs.any (fun r => r.outs.all (·.2 == 0)) then 7
  else 0

/-! ### Requests (R95, R96, R97) -/

/-- The first commit instant at or after counter value l (R95). -/
def commitInstantAt (l : Nat) : Nat := if l ≤ 15200 then 15200 else 15200 + (l - 15200 + 20799) / 20800 * 20800

/-- The first commit instant at or after `l` at which device time is not before `at` ticks (COMMIT_AT); the search starts
from the counter value that the rate gives. -/
def commitNotBefore (t : TimeSt) (l dev : Nat) : Nat :=
  let slope : Int := 65536 * 2 ^ 32 + t.rate.toInt
  let goal : Int := (dev : Int) * 65536 - t.offset.toNat - (t.lref : Int) * 65536
  let near := ((t.lref : Int) + goal * 2 ^ 32 / slope - 1).toNat
  let c := commitInstantAt (max l near)
  if dev ≤ devTimeAt t c / 65536 then c else c + 20800

/-- A failed commit (R94, R100, R107). -/
def commitFailed (q code : Nat) (owner : Option Nat) (s : State) : State :=
  let s := setRf (Reg.lpStatus q) 26 24 code (count1 (Ctr.commitFail q) s)
  let s := logEvent q 0x0109 clsInfo 10 0 (dataG code (reg64 s (Reg.lpInstantLo q) (Reg.lpInstantHi q))) s
  setLp q { lp s q with pending := none, result := owner.map (·, code) } (setRb (Reg.lpStatus q) 31 false s)

/-- ROT_HOLD of every fiber of quadrant q follows a change of the pending commit (R66). -/
def showHolds (q : Nat) (s : State) : State :=
  forRange 32 (fun t s => if fiberEn s (tileFiber q t) then showHold (tileFiber q t) s else s) s

/-- A request for a commit (R96, R97): a valid set's rings are pre-biased from then on (R99); `dev` is the device time it must not precede.  Code 8 refuses a second one. -/
def lpRequest (q : Nat) (dev : Option Nat) (owner : Option Nat) (s : State) : State :=
  if rb s (Reg.lpStatus q) 31 then
    let s := count1 (Ctr.cmdRej q) s
    match owner with
    | none => s
    | some o => setLp q { lp s q with result := some (o, 8) } s
  else
    let code := validate s q (1 - activeSet s q)
    if code ≠ 0 then commitFailed q code owner s
    else
      let l := s.time.l + 2400
      let c := match dev with
        | none => commitInstantAt l
        | some d => commitNotBefore s.time l d
      let s := setReg64 (Reg.lpInstantLo q) (Reg.lpInstantHi q) (devTimeAt s.time c / 65536) s
      let s := setLp q { lp s q with pending := some ⟨c, s.time.l, false, false, owner⟩ } (setRb (Reg.lpStatus q) 31 true s)
      showHolds q (forEach (shadowRings s q) ringStart s)

/-- LP_COMMIT. -/
def execLpCommit (q : Quad) (s : State) : Host.Outcome State Fault Refusal :=
  .next (guardReg (Reg.lpCmd q) (lpRequest q none none) s)

/-- LP_AT of quadrant q. -/
def lpAt (s : State) (q : Nat) : Nat := reg64 s (Reg.lpAtLo q) (Reg.lpAtHi q)

/-- LP_COMMIT_AT. -/
def execLpCommitAt (q : Quad) (s : State) : Host.Outcome State Fault Refusal :=
  .next (guardReg (Reg.lpCmd q) (fun s => lpRequest q (some (lpAt s q)) none s) s)

/-- CANCEL: up to 1 µs before the instant (R97).  LP_INSTANT keeps the withdrawn instant, which "the last one when none is
pending" may or may not mean, and the rings that were pre-biased are parked (DESIGN CHOICE, log entry 58). -/
def lpCancel (q : Nat) (s : State) : State :=
  match (lp s q).pending with
  | none => s
  | some c =>
    if s.time.l + 800 ≤ c.instant then
      let s := setLp q { lp s q with pending := none, result := c.owner.map (·, 9) } (setRb (Reg.lpStatus q) 31 false s)
      showHolds q (forEach (shadowRings s q) parkRing s)
    else s

/-! ### The gap (R98) -/

/-- What feeds fiber tile t's outgoing direction in set x: the routes that drop onto it or take its own modulator. -/
def feeds (s : State) (q x t : Nat) : List Route :=
  ((routeSet s q x).map (·.2)).filter (fun r => r.outs.any (·.1 == t) || (r.tx && r.src == t))

/-- The TERM fibers whose outgoing light the pending commit changes (R98). -/
def gapFibers (s : State) (q : Nat) : List Nat :=
  let a := activeSet s q
  ((List.range 32).filter (fun t => feeds s q a t != feeds s q (1 - a) t)).map (tileFiber q) |>.filter
    (fun f => fiberEn s f && fiberMode s f == modeTerm)

/-- The PERIOD of fiber f that starts at counter value b (R95). -/
def periodAt (s : State) (f b : Nat) : Nat :=
  let last := ((fiber s f).boundary.getD s.time.l) / Config.ticksPerPeriod
  (fiber s f).period.toNat + (b / Config.ticksPerPeriod - last)

/-- LP_GAP_NOTICE: LP_GAP names the commit instant and the period that ends the gap. -/
def lpGapNotice (q : Nat) (s : State) : State :=
  match (lp s q).pending with
  | none => s
  | some c =>
    if c.gapSent then s
    else
      let s := setLp q { lp s q with pending := some { c with gapSent := true } } s
      let at' := reg64 s (Reg.lpInstantLo q) (Reg.lpInstantHi q)
      forEach (gapFibers s q) (fun f s =>
        forEach (fiberLinks s f) (fun k s => txCtrl k (recGap at' (periodAt s f (c.instant + 5600))) s) s) s

/-- LP_GAP_NOTICE. -/
def execLpGapNotice (q : Quad) (s : State) : Host.Outcome State Fault Refusal := .next (lpGapNotice q s)

/-- LP_GAP_RX: losses of light, pilot and codeword lock wait for the named boundary (R98). -/
def execLpGapRx (k : LinkIx) (instant : DWord) (period : BitVec 32) (s : State) : Host.Outcome State Fault Refusal :=
  .next (if linkUp s k then gapExch k (setLink k { link s k with gap := some (instant, period) } s) else s)

/-! ### The commit (R96, R99, R100, R162) -/

/-- From half a microsecond before the instant to the boundary after it, affected TERM links send idle flits (R99, R100). -/
def quietLinks (fs : List Nat) (s : State) : State :=
  forEach ((fs.map (fiberLinks s)).flatten) (fun k s =>
    if linkUp s k then setLink k { link s k with quiet := true } s else s) s

/-- COMMIT_PRECHECK: the shadow set is checked again; on failure the commit ends and no ring moves.  The affected links'
flits wait for the next boundary either way (R99, R100). -/
def commitPrecheck (q : Nat) (s : State) : State :=
  match (lp s q).pending with
  | none => s
  | some c =>
    let code := validate s q (1 - activeSet s q)
    let s := quietLinks (gapFibers s q) s
    if code ≠ 0 then showHolds q (commitFailed q code c.owner s)
    else setLp q { lp s q with pending := some { c with checked := true } } s

/-- Is fiber tile t fed by another fiber's modulator in set x (R92, R162)? -/
def fedByOther (s : State) (q x t : Nat) : Bool :=
  (routeSet s q x).any (fun e => e.2.tx && e.2.src != t && e.2.outs.any (·.1 == t))

/-- LINK_MUTE: EG_MUTED of a link (R162). -/
def muteLink (k : Nat) (on : Bool) (s : State) : State := setRb (Reg.scLinkstat (linkQuad k) (k % 256)) 31 on s

/-- Mutes the links of the fibers that set x feeds from another modulator (R162). -/
def muteSet (q x : Nat) (s : State) : State :=
  forRange 32 (fun t s =>
    if fedByOther s q x t then forEach (fiberLinks s (tileFiber q t)) (fun k s => muteLink k true s) s else s) s

/-- Frees the links whose fibers have their own light back; waiting packets may leave (R162, R178). -/
def unmuteSet (q x : Nat) (s : State) : State :=
  forRange 32 (fun t s =>
    if fedByOther s q x t then s
    else forEach (fiberLinks s (tileFiber q t)) (fun k s =>
      if linkMuted s k then forRange 4 (fun b s => joinVoqs b k s) (resumeTx k (muteLink k false s)) else s) s) s

/-- COMMIT_INSTANT: the sets swap; the rings that only the old set used are parked, and those of the new one are trimmed to
their drop ratios, but for outputs of weight 0 (R93, R96, R99). -/
def commitInstant (q : Nat) (s : State) : State :=
  match (lp s q).pending with
  | none => s
  | some c =>
    let s := if c.checked then s else commitPrecheck q s
    if (lp s q).pending.isNone then s
    else
      let s := { s with time := { s.time with l := max s.time.l c.instant } }
      let a := activeSet s q
      let touched := ((List.range 32).map (tileFiber q)).filter (commitTouches s)
      let new := shadowRings s q
      let old := ((s.rings.filter (fun e => !ringOnEngine e.1 && ringQuad e.1 == q)).map (·.1)).filter (fun r => !new.contains r)
      let s := setLp q ⟨none, true, c.owner, c.owner.map (·, 0)⟩ (setRb (Reg.lpStatus q) 31 false s)
      let s := forEach touched (fun f s => setFiber f { fiber s f with lastCommit := some c.instant } s) s
      let s := forEach old parkRing s
      let s := forEach new (fun r s =>
        if ringDown s r || ringUnlit s r || ringState s r == .failed || ringState s r == .hold then s else setRing' r .track s) s
      let s := setRf (Reg.lpStatus q) 26 24 0 (setRf (Reg.lpStatus q) 23 16 (rf s (Reg.lpStatus q) 23 16 + 1) s)
      showHolds q (muteSet q (1 - a) (count1 (Ctr.commits q) s))

/-- COMMIT_LIGHT_ON: the new routes carry light and ACTIVE_SET flips (R99). -/
def commitLightOn (q : Nat) (s : State) : State :=
  if !(lp s q).moving then s
  else
    let a := activeSet s q
    let s := setLp q { lp s q with moving := false, movingOwner := none } (setRf (Reg.lpStatus q) 30 30 a s)
    let s := forEach (setRings q (routeSet s q a)) (fun r s => inRing r .track (ringLock r) s) s
    unmuteSet q a s

end Sys2Proof.Machine
end

