-- ==== Sys2Proof/Machine/Fused.lean ====
section
/-!
DEFINITION. Fused instructions: the checks at issue, posts, CRSU tasks, timed releases, and all-to-all phases with the
lightpath commits they steer (R308, R328 to R337, R343 to R350, R356 to R360).
-/
namespace Sys2Proof.Machine

/-! ### The checks of R308 -/

/-- Rights an access needs: bits of RGN word 0. -/
def rightR : Nat := 30
def rightW : Nat := 29
def rightA : Nat := 28

/-- Checks 3 to 7 of R308 on [a, a + n) for a wick of the given job: the fault code, 0 when all pass.  In a region whose ROLE
is MIRROR, W and A act as 0 (R386). -/
def regionCheck (s : State) (job a n right : Nat) (mirror : Bool) : Nat :=
  if n = 0 then 0
  else if !allPopulated s a n then 0x07
  else match regionOf s a n with
    | none => 0x06
    | some r =>
      if rgnJob s r ≠ job then 0x06
      else if !rb s (Reg.rgn0 r) right || (right ≠ rightR && rgnRole s r = 2) || (mirror && !rgnMirror s r) then 0x06
      else if !(stacksOf s a n).all (stackOnline s) then 0x08
      else 0

/-- The checks of R308 on an action's range: ADDR_RANGE first. -/
def rangeCheck (s : State) (job a n right : Nat) : Nat :=
  if 2 ^ 41 ≤ a || (0 < n && 2 ^ 41 < a + n) then 0x05 else regionCheck s job a n right false

/-! ### The operand block (R329) -/

/-- The common part of an operand block. -/
def obComm (b : List Byte) : Nat := leAt b 0 2
def obSeq (b : List Byte) : Nat := leAt b 4 4
def obChunk0 (b : List Byte) : Nat := leAt b 8 4
def obNchunk (b : List Byte) : Nat := leAt b 12 4
def obNunits (b : List Byte) : Nat := leAt b 16 8
def obSeed (b : List Byte) : Nat := leAt b 24 8
def obQstride (b : List Byte) : Nat := leAt b 32 8
def obProvLs (b : List Byte) : Nat := leAt b 40 4
def obProvOut (b : List Byte) : Nat := leAt b 44 4
def obStep (b : List Byte) : Nat := leAt b 56 4

/-- Fields of CRSU's action part (R348). -/
def obPfmt (b : List Byte) : Nat := byteAt b 104 % 16
def obSfmt (b : List Byte) : Nat := byteAt b 104 / 16
def obLanes64 (b : List Byte) : Bool := byteAt b 105 % 2 == 1
def obNstate (b : List Byte) : Nat := byteAt b 105 / 2 % 4
def obPrmode (b : List Byte) : Nat := byteAt b 105 / 8 % 4
def obSrmode (b : List Byte) : Nat := byteAt b 105 / 32 % 4

/-- Are bytes [i, j) of the block zero? -/
def zeroIn (b : List Byte) (i j : Nat) : Bool := ((b.take j).drop i).all (· == 0)

/-- Are the bytes that OP's action part does not name zero (R329)? -/
def unnamedZero (op : Nat) (b : List Byte) : Bool :=
  zeroIn b 2 4 && zeroIn b 60 64 &&
  (if op = colCred then zeroIn b 72 256
   else if op = colCrsu then zeroIn b 106 108 && zeroIn b 112 128 && zeroIn b 192 256
   else if op = colCbcs then zeroIn b 76 256
   else if op = colCgat then zeroIn b 82 256
   else if op = colCa2a then zeroIn b 78 80 && zeroIn b 84 256
   else zeroIn b 64 256)

/-- CAP of an instruction: CBYTES for CBCS, else the descriptor's CAPACITY (R333). -/
def colCap (op : Nat) (b : List Byte) (x : SlotSt) : Nat := if op = colCbcs then leAt b 72 4 else x.cap

/-- Does an instruction address Ingot memory (R333)? -/
def colAddressed (op : Nat) : Bool := op = colCred || op = colCrsu || op = colCbcs || op = colCgat

/-- ACTION an instruction requires (R336). -/
def colAction (op : Nat) : Nat :=
  if op = colCarb then actCarb else if op = colCred then actCred else if op = colCrsu then actCrsu
  else if op = colCbcs then actCbcs else if op = colCgat then actCgat else actBar

/-- Check 4 of R330: the descriptor meets R336; `x` is the chunk as it would be born. -/
def descMatches (op : Nat) (b : List Byte) (x : SlotSt) : Bool :=
  x.action = colAction op && birthCause x true = 0 && (op = colCbcs || flag x.d1 9) &&
  (if op = colCred then x.cap % 256 = 0 && (x.rfmt ≤ 5 || fmtInt x.rfmt)
   else if op = colCrsu then x.cap % 256 = 0 && x.op = opSum && x.rfmt = (if obLanes64 b then 0 else 1)
   else if op = colCgat then x.cap % 256 = 0 && x.op = opOr && x.fmt = 9 && x.rfmt = 9 && x.policy = 0
   else if op = colCarb then true
   else x.cap = 0)

/-- The phase table of CA2A (R344): NPH, PLAN_LS, and entry k as (NENT, ENT_LS). -/
def obNph (b : List Byte) : Nat := leAt b 76 2
def obPlan (b : List Byte) : Nat := leAt b 80 4
def obPeriod (b : List Byte) : Nat := leAt b 72 4

/-- Entry k of the phase table at `plan`. -/
def phaseEntry (s : State) (q e plan k : Nat) : Nat × Nat :=
  let b := lsRead s q e (plan + 16 * k) 16
  (leAt b 0 2, leAt b 4 4)

/-- The limits of CA2A's operands (R344). -/
def planOk (s : State) (q e : Nat) (b : List Byte) : Bool :=
  let n := obNph b
  0 < obPeriod b && obPeriod b % 20800 = 0 && 1 ≤ n && n ≤ 256 && obPlan b + 16 * (n + 1) ≤ lsSize &&
    (List.range (n + 1)).all (fun k =>
      let p := phaseEntry s q e (obPlan b) k
      p.1 ≤ 512 && p.2 % 32 = 0 && p.2 + 32 * p.1 ≤ lsSize)

/-- Check 5 of R330. -/
def operandsOk (s : State) (q e op : Nat) (prov : Bool) (b : List Byte) (x : SlotSt) (span : Nat) : Bool :=
  let n := obNchunk b
  let cap := colCap op b x
  unnamedZero op b && 1 ≤ n && n ≤ 2 ^ 20 &&
  (!colAddressed op || ((n - 1) * cap < obNunits b && obNunits b ≤ n * cap && obChunk0 b % span = 0)) &&
  (if op = colCbar || op = colCa2a then n = 1 && obNunits b = 0 else true) &&
  (if op = colCbcs then 64 ≤ cap && cap ≤ 262144 && cap % 64 = 0 else true) &&
  (if op = colCgat then (n + span - 1) / span * cap ≤ leAt b 72 8 else true) &&
  (if op = colCrsu then obPfmt b ≤ 5 && obSfmt b ≤ 3 && obNstate b ≤ 2 && obPrmode b ≤ 2 && obSrmode b ≤ 2
      && byteAt b 105 < 128 && leAt b 108 4 < 2 ^ 18 else true) &&
  (if op = colCa2a then planOk s q e b else true) &&
  (!prov || (op ≤ colCgat && obProvLs b % 64 = 0 && obProvLs b + 64 * n ≤ lsSize && obProvOut b % 64 = 0
      && obProvOut b + 32 ≤ lsSize))

/-- Chunks of quadrant position k of `n` chunks over a span. -/
def posChunks (n span k : Nat) : Nat := (n + span - 1 - k) / span

/-- Units of quadrant position k: every chunk is full but the last. -/
def posUnits (n span cap units k : Nat) : Nat :=
  posChunks n span k * cap - (if (n - 1) % span = k then n * cap - units else 0)

/-- The Ingot ranges of an instruction as (position, address, bytes, right), buffer by buffer (R333, R340, R348). -/
def colRanges (op : Nat) (b : List Byte) (x : SlotSt) (span : Nat) : List (Nat × Nat × Nat × Nat) :=
  let cap := colCap op b x
  let n := obNchunk b
  let buf := fun (a w right : Nat) => (List.range span).map (fun k =>
    (k, (a + k * obQstride b) % 2 ^ 64, posUnits n span cap (obNunits b) k * w, right))
  if op = colCred then buf (leAt b 64 8) (fmtBits x.rfmt / 8) rightW
  else if op = colCbcs then buf (leAt b 64 8) 1 rightR
  else if op = colCgat then (List.range span).map (fun k =>
    (k, (leAt b 64 8 + k * obQstride b) % 2 ^ 64,
      if posChunks n span k = 0 then 0 else leAt b 80 2 * leAt b 72 8, rightW))
  else if op = colCrsu then
    let pw := fmtBits (obPfmt b) / 8
    let sw := fmtBits (obSfmt b) / 8
    let states := fun (i right : Nat) => ((List.range (obNstate b)).map (fun j =>
      buf ((leAt b i 8 + j * leAt b 96 8) % 2 ^ 64) sw right)).flatten
    buf (leAt b 64 8) pw rightR ++ buf (leAt b 72 8) pw rightW ++ states 80 rightR ++ states 88 rightW
  else []

/-- Check 6 of R330: the first range that fails R308, with its fault. -/
def rangesFault (s : State) (job : Nat) : List (Nat × Nat × Nat × Nat) → Option (Nat × Nat)
  | [] => none
  | (_, a, n, right) :: rs =>
    let c := rangeCheck s job a n right
    if c ≠ 0 then some (c, a) else rangesFault s job rs

/-- Check 7 of R330: a range outside its chunk's reducing quadrant, or mirrored over another quadrant's fiber. -/
def rangesAway (s : State) (base : Nat) : List (Nat × Nat × Nat × Nat) → Option Nat
  | [] => none
  | (k, a, n, _) :: rs =>
    let q := (base + k) % 4
    let home := homeQuad a = q && homeQuad (a + n - 1) = q
    let mirror := match regionOf s a n with
      | some r => !rgnMirror s r || fiberQuad (rgnFiber s r) = q
      | none => true
    if n ≠ 0 && !(home && mirror) then some a else rangesAway s base rs

/-- DIGEST of a code range (R325). -/
def rangeDigest (s : State) (q m : Nat) : List Byte :=
  ((List.range 8).map (fun j => leBytes 4 (reg s (Reg.csDigest q m j)).toNat)).flatten

/-- Is engine e of quadrant p an eligible task engine for a job and a digest (R349)? -/
def taskEngine (s : State) (p e job : Nat) (digest : List Byte) : Bool :=
  !clusterDown s p && leRun s p e && leJob s p e = job && reg s (Reg.leTask p e) ≠ 0
    && rangeDigest s p (leRange s p e) = digest

/-- Check 8 of R330: the lowest-numbered reducing quadrant of a CRSU without an eligible engine. -/
def lacksEngine (s : State) (base span n job : Nat) (digest : List Byte) : Option Nat :=
  let qs := (List.range (min span n)).map (fun k => (base + k) % 4)
  (List.range 4).find? (fun p => qs.contains p && !(List.range 64).any (fun e => taskEngine s p e job digest))

/-! ### Issue (R330 to R332) -/

/-- The posts of an instruction, in chunk order (R332, R333). -/
def postsOf (q ix op job epoch span : Nat) (prov repair : Bool) (digest : List Byte) (b : List Byte) (x : SlotSt) : List Post :=
  let cap := colCap op b x
  let n := obNchunk b
  let w := if op = colCred then fmtBits x.rfmt / 8 else if op = colCrsu then fmtBits (obPfmt b) / 8 else 1
  (List.range n).map (fun i =>
    let at' := fun (a w : Nat) => (a + (obChunk0 b + i) % span * obQstride b + i / span * cap * w) % 2 ^ 64
    let sw := fmtBits (obSfmt b) / 8
    { q := q, ix := ix, op := op, job := job, comm := obComm b, seq := obSeq b, chunk := (obChunk0 b + i) % 2 ^ 32,
      epoch := epoch, seed := obSeed b, step := obStep b,
      units := if colAddressed op then min cap (obNunits b - i * cap) else 0, repair := repair, prov := prov,
      base := at' (leAt b 64 8) w, pOut := at' (leAt b 72 8) w, sIn := at' (leAt b 80 8) sw, sOut := at' (leAt b 88 8) sw,
      sslot := leAt b 96 8, mstride := leAt b 72 8, nmemb := leAt b 80 2, pfmt := obPfmt b, sfmt := obSfmt b,
      f64 := obLanes64 b, nstate := obNstate b, prmode := obPrmode b, srmode := obSrmode b, entry := leAt b 108 4 % 2 ^ 18,
      hp := (List.range 8).map (fun i => BitVec.ofNat 64 (leAt b (128 + 8 * i) 8)), digest := digest })

/-- Puts posts on the rings of their reducing quadrants. -/
def sendPosts (ps : List Post) (s : State) : State :=
  forRange 4 (fun p s =>
    let mine := ps.filter (fun x => reducingQuad s x.comm x.chunk == p)
    if mine.isEmpty then s else setFi p { fi s p with ring := (fi s p).ring ++ mine } s) s

/-- A COL instruction ended at issue by an AERR (R330). -/
def colEnds (w : WickId) (f : Fields) (aerr detail : Nat) (s : State) : Eff :=
  let word := 0xFF + aerr * 2 ^ 8 + detail * 2 ^ 16 + 0xFFFFFFFF * 2 ^ 32
  let s := count1 (Ctr.fiDone w.q) (count1 (Ctr.fiAerr w.q) s)
  .yields (startOp w f (.col f.d.toNat 256) false (2 ^ f.d.toNat) (some ⟨0, 0, leBytes 8 word⟩) s).2

/-- The record of an instruction that has passed its checks (R331). -/
def colRecord (w : WickId) (op block id job : Nat) (prov : Bool) (digest b : List Byte) : FiRec where
  op := op
  engine := w.e
  wick := w.w
  job := job
  comm := obComm b
  seq := obSeq b
  chunk0 := obChunk0 b
  nchunk := obNchunk b
  lop := id
  block := block
  prov := prov
  provLs := obProvLs b
  provOut := obProvOut b
  posted := 0
  ends := []
  fail := none
  run := none
  release := none
  digest := digest

/-! ### All-to-all phases (R344 to R347) -/

/-- The chunk a plan notice is laid out for (R345): it is sent with the instruction's key. -/
def noticeSlot (s : State) (r : FiRec) (u : PhaseRun) : SlotSt :=
  { bornSlot s r.job r.comm r.seq 0xFFFFFFFF u.d1 u.d2 with epoch := u.epoch }

/-- The plan notice, with the first phase that will not run (R345). -/
def planNotice (q : Nat) (r : FiRec) (u : PhaseRun) (abortAt : Nat) (s : State) : State :=
  let x0 := noticeSlot s r u
  let x := { x0 with sigs := [(sigOf x0.op x0.fmt x0.acc64 x0.policy x0.cap r.comm u.epoch x0.salt, [])] }
  let pl := leBytes 8 u.c0dev ++ leBytes 4 u.period ++ leBytes 2 u.nph ++ leBytes 2 abortAt ++ leBytes 1 q ++
    leBytes 5 u.rate.toNat ++ zeroBytes 42
  sendDown q 0 x (downHead s x x.fmt 0 1 0 0 0 csOk true false false pl) pl s

/-- A run ends before its barrier (R347): no further commit, the notice again, no barrier. -/
def runAborts (q ix : Nat) (r : FiRec) (u : PhaseRun) (phase status code : Nat) (s : State) : State :=
  let s := planNotice q r u phase s
  let s := count1 (Ctr.a2aAbort q) s
  let s := logEvent q 0x0504 clsCollective 6 0 (dataW r.engine r.wick aeLpFail ix (r.chunk0 + r.seq * 2 ^ 32)) s
  let r := { r with fail := some (status, aeLpFail, code), run := some { u with ended := true, pending := false } }
  fiTry q ix (setRec q ix (some r) s)

/-- Writes set k of a run into the shadow set (R344). -/
def writePhase (q e plan k : Nat) (s : State) : State :=
  let (nent, ls) := phaseEntry s q e plan k
  let base := 512 * (1 - activeSet s q)
  let clear := (List.range 512).filter (fun i => nent ≤ i && rb s (Reg.route0 q (base + i)) 31)
  let s := forEach clear (fun i s => setRb (Reg.route0 q (base + i)) 31 false s) s
  forRange (min 512 nent) (fun i s =>
    let (bs, s) := lsLoad q e (ls + 32 * i) 32 s
    forRange 8 (fun j s => writeRw (routeAddr q (base + i) j) (BitVec.ofNat 32 (leAt bs (4 * j) 4)) s) s) s

/-- The barrier chunk of a run is posted (R344). -/
def postBarrier (q ix : Nat) (r : FiRec) (u : PhaseRun) (s : State) : State :=
  let b := padTo 256 (leBytes 2 r.comm ++ zeroBytes 2 ++ leBytes 4 r.seq ++ leBytes 4 r.chunk0 ++ leBytes 4 1)
  let x := noticeSlot s r u
  sendPosts (postsOf q ix colCbar r.job u.epoch 1 false false r.digest b x) s

/-- A commit of a run has ended with an LPC code (R344, R347). -/
def phaseEnded (q ix code : Nat) (s : State) : State :=
  match fiRec? s q ix with
  | none => s
  | some r => match r.run with
    | none => s
    | some u =>
      if u.ended then s
      else if code ≠ 0 then runAborts q ix r u u.next (u.abort.getD 0xFF) code s
      else
        let s := count1 (Ctr.a2aCommits q) s
        let u := { u with next := u.next + 1, pending := false }
        match u.abort with
        | some st => runAborts q ix r u u.next st 9 s
        | none =>
          if u.nph < u.next then
            postBarrier q ix r u (setRec q ix (some { r with run := some { u with ended := true } }) s)
          else setRec q ix (some { r with run := some u }) s

/-- Requests the commit of the run's next phase; its notice follows the first acceptance (R344). -/
def requestPhase (q ix : Nat) (r : FiRec) (u : PhaseRun) (s : State) : State :=
  let k := u.next
  let s := if rb s (Reg.lpStatus q) 31 then s else writePhase q r.engine u.plan k s
  let dev := devTimeAt s.time (u.c0 + k * u.period) / 65536
  let u := { u with pending := true }
  let s := setRec q ix (some { r with run := some u }) s
  let s := lpRequest q (some (dev - 8000)) (some r.lop) s
  match (lp s q).result with
  | some (_, code) => phaseEnded q ix code (setLp q { lp s q with result := none } s)
  | none => if k = 0 then planNotice q r u 0xFFFF s else s

/-- A commit asked for by a Lantern operation has ended: the operation takes its result (R320, R344). -/
def lpSettle (q : Nat) (s : State) : State :=
  match (lp s q).result with
  | none => s
  | some (o, code) =>
    let s := setLp q { lp s q with result := none } s
    match (lx s q).ops.find? (fun x => x.id == o) with
    | none => s
    | some x => match x.kind with
      | .lpc _ => opEnds q o ⟨0, 0, leBytes 8 (code + rf s (Reg.lpStatus q) 23 16 * 2 ^ 8)⟩ s
      | .col _ ix => phaseEnded q ix code s
      | _ => s

/-- A run whose commit has brought its light on goes on with its next phase. -/
def runGoesOn (q o : Nat) (s : State) : State :=
  match (lx s q).ops.find? (fun x => x.id == o) with
  | none => s
  | some x => match x.kind with
    | .col _ ix => match fiRec? s q ix with
      | none => s
      | some r => match r.run with
        | none => s
        | some u => if u.ended || u.pending then s else requestPhase q ix r u s
    | _ => s

/-- Ends the runs whose record satisfies `p` (R344, R360): a commit more than 1 µs away is cancelled, a nearer one takes
place first. -/
def abortRuns (p : FiRec → Bool) (status : Nat) (s : State) : State :=
  forRange 4 (fun q s => forEach (fi s q).recs (fun e s =>
    match fiRec? s q e.1 with
    | none => s
    | some r => match r.run with
      | none => s
      | some u =>
        if u.ended || !p r then s
        else if u.pending then
          let s := setRec q e.1 (some { r with run := some { u with abort := some status } }) s
          lpSettle q (lpCancel q s)
        else runAborts q e.1 r u u.next status 9 s) s) s

/-- TIME_SET (R344, R405). -/
def execTimeSet (v : Word) (s : State) : Host.Outcome State Fault Refusal := .next (abortRuns (fun _ => true) 0xFF (timeSet v s))

/-- TIME_STEP (R344, R405). -/
def execTimeStep (v : Word) (s : State) : Host.Outcome State Fault Refusal := .next (abortRuns (fun _ => true) 0xFF (timeStep v s))

/-- A write of JOB_EPOCH: a fence aborts the job's runs (R281, R360). -/
def jobEpochWrite (j : Nat) (v : Word) (s : State) : State :=
  let s := if fld v 15 0 = rf s (Reg.jobEpoch j) 15 0 then s else abortRuns (fun r => r.job == j) csEpochFenced s
  epochWrite j v s

/-- EPOCH_WRITE. -/
def execEpochWrite (j : JobIx) (v : Word) (s : State) : Host.Outcome State Fault Refusal := .next (jobEpochWrite j v s)

/-- LP_CANCEL. -/
def execLpCancel (q : Quad) (s : State) : Host.Outcome State Fault Refusal :=
  .next (guardReg (Reg.lpCmd q) (fun s => lpSettle q (lpCancel q s)) s)

/-- COMMIT_PRECHECK. -/
def execCommitPrecheck (q : Quad) (s : State) : Host.Outcome State Fault Refusal := .next (lpSettle q (commitPrecheck q s))

/-- COMMIT_INSTANT. -/
def execCommitInstant (q : Quad) (s : State) : Host.Outcome State Fault Refusal := .next (lpSettle q (commitInstant q s))

/-- COMMIT_LIGHT_ON: a run's next set is written once its commit is done (R344). -/
def execCommitLightOn (q : Quad) (s : State) : Host.Outcome State Fault Refusal :=
  .next (match (lp s q).moving, (lp s q).movingOwner with
    | true, some o => runGoesOn q o (commitLightOn q s)
    | _, _ => commitLightOn q s)

/-! ### COL instructions -/

/-- A COL instruction whose checks have passed: it takes its record and posts its chunks, or starts its run. -/
def colStart (w : WickId) (f : Fields) (op ix a span : Nat) (prov : Bool) (digest b : List Byte) (x : SlotSt) (s : State) :
    State :=
  let q := w.q.val
  let job := leJob s q w.e
  let epoch := rf s (Reg.jobEpoch job) 15 0
  let (id, s) := startOp w f (.col f.d.toNat ix) false (2 ^ f.d.toNat) none s
  let r := colRecord w op a id job prov digest b
  let s := count1 (Ctr.fiIssued q) s
  if op = colCa2a then
    let c0 := commitNotBefore s.time s.time.l (max (leAt b 64 8) (devTicks s + 32000))
    let u : PhaseRun := ⟨obPeriod b, obNph b, obPlan b, 0, false, c0, devTimeAt s.time c0 / 65536, s.time.rate, epoch,
      x.d1, x.d2, none, false⟩
    requestPhase q ix { r with run := some u } u (setRec q ix (some { r with run := some u }) s)
  else sendPosts (postsOf q ix op job epoch span prov (f.mod.getLsbD 7) digest b x) (setRec q ix (some r) s)

/-- Checks 3 to 8 of R330. -/
def colChecks (w : WickId) (f : Fields) (op a ix : Nat) (b : List Byte) (s : State) : Eff :=
  let q := w.q.val
  let e := w.e.val
  let job := leJob s q e
  let c := obComm b
  if 4096 ≤ c || !rb s (Reg.comm0 c) 31 || commJob s c ≠ job then colEnds w f aeNoDesc 0 s
  else match selectDesc s c (obSeq b) with
    | none => colEnds w f aeNoDesc 0 s
    | some d =>
      let (d1, d2) := descWords s c d
      let x := bornSlot s job c (obSeq b) (obChunk0 b) d1 d2
      let span := spanOf (reg s (Reg.comm0 c))
      let base := rf s (Reg.comm0 c) 15 14
      let prov := f.mod.getLsbD 6
      let rs := colRanges op b x span
      let digest := rangeDigest s q (leRange s q e)
      if !descMatches op b x then colEnds w f aeDescMismatch 0 s
      else if !operandsOk s q e op prov b x span then colEnds w f aeBadOperand 0 s
      else match rangesFault s job rs, rangesAway s base rs with
        | some (code, addr), _ => .fault code (some addr) none
        | none, some addr => .fault 0x06 (some addr) none
        | none, none =>
          match if op = colCrsu then lacksEngine s base span (obNchunk b) job digest else none with
          | some p => colEnds w f aeNoTaskEngine p s
          | none => .yields (colStart w f op ix a span prov digest b x s)

/-- The COL instructions (R328, R330, R331). -/
def colIssue (w : WickId) (f : Fields) (op : Nat) (s : State) : State :=
  issue w 3 op f false (fun s =>
    let q := w.q.val
    let e := w.e.val
    let a := (wkGet w s).ea f
    if s.repairs.any (fun r => r.2.2 == q) then .stall
    else if !roomFor s q e false then .waitTag lacksEntry
    else match freeRec s q with
      | none => .waitTag lacksRecord
      | some ix =>
        if a % 64 ≠ 0 then .fault 0x03 (some a) none
        else if lsSize < a + 256 then .fault 0x04 (some a) none
        else if op = colCa2a && !rb s (Reg.leCfg q e) 31 then .fault 0x09 none none
        else
          let (b, s) := lsLoad q e a 256 s
          colChecks w f op a ix b s) s

/-- CARB. -/
def execCarb (w : WickId) (f : Fields) (s : State) : Host.Outcome State Fault Refusal := .next (colIssue w f colCarb s)
/-- CRED. -/
def execCred (w : WickId) (f : Fields) (s : State) : Host.Outcome State Fault Refusal := .next (colIssue w f colCred s)
/-- CRSU. -/
def execCrsu (w : WickId) (f : Fields) (s : State) : Host.Outcome State Fault Refusal := .next (colIssue w f colCrsu s)
/-- CBCS. -/
def execCbcs (w : WickId) (f : Fields) (s : State) : Host.Outcome State Fault Refusal := .next (colIssue w f colCbcs s)
/-- CGAT. -/
def execCgat (w : WickId) (f : Fields) (s : State) : Host.Outcome State Fault Refusal := .next (colIssue w f colCgat s)
/-- CA2A. -/
def execCa2a (w : WickId) (f : Fields) (s : State) : Host.Outcome State Fault Refusal := .next (colIssue w f colCa2a s)
/-- CBAR. -/
def execCbar (w : WickId) (f : Fields) (s : State) : Host.Outcome State Fault Refusal := .next (colIssue w f colCbar s)

/-! ### Posts (R257, R263, R332, R334, R340, R342) -/

/-- Gives chunk r its post: member data that waited for it is written, and a READY chunk is delivered. -/
def postAttach (q r : Nat) (x : SlotSt) (p : Post) (s : State) : State :=
  let held := x.gather
  let s := setSlot q r (some { x with post := some p, gather := [] }) s
  let s := forEach held (fun h s => match slotAt s q r with
    | some x => gatherWrite q r x p h.1 h.2 s
    | none => s) s
  match slotAt s q r with
  | none => s
  | some x => if x.state = 4 then deliver q r x s else if x.state = 9 then poisonRelease q r s else s

/-- A post meets quadrant q: none while it must wait for a slot record. -/
def postMeets (q : Nat) (p : Post) (s : State) : Option State :=
  let c := epochCmp s p.job p.epoch
  if c ≠ 0 then some (postFenced p (count1 (if c = 1 then Ctr.epochAhead q else Ctr.epochStaleDrop q) s))
  else match findSlot s q p.job p.comm p.seq p.chunk with
    | some (r, x) =>
      if x.post.isNone then some (postAttach q r x p s)
      else if p.repair && x.state = 7 then
        some (deliver q r { x with post := some p, told := false, count := 0, acked := [] } s)
      else
        let s := logAction q p aeDupPost (count1 (Ctr.dupPost p.q) s)
        some (chunkDone p ⟨p.chunk, csOk, aeDupPost, 0, zeroBytes 32, zeroBytes 32⟩ s)
    | none =>
      match if 4096 ≤ p.comm || !rb s (Reg.comm0 p.comm) 31 || commJob s p.comm ≠ p.job then none
        else selectDesc s p.comm p.seq with
      | none => none
      | some d =>
        match birthSlot s q p.comm with
        | none => none
        | some r =>
          let (d1, d2) := descWords s p.comm d
          let s := birth q r (bornSlot s p.job p.comm p.seq p.chunk d1 d2) s
          some (match slotAt s q r with
            | none => s
            | some x =>
              let x := { x with post := some p }
              if x.state = 9 then poisonRelease q r (setSlot q r (some x) s)
              else if x.action = actCbcs then deliver q r x s
              else setSlot q r (some x) s)

/-- The record of a post counts it as posted. -/
def notePosted (p : Post) (s : State) : State :=
  let s := count1 (Ctr.posts p.q) s
  match fiRec? s p.q p.ix with
  | none => s
  | some r => setRec p.q p.ix (some { r with posted := r.posted + 1 }) s

/-- POST_RX: the post at the head of the quadrant's ring arrives; one without a slot joins the queue (R257, R332). -/
def postRx (q : Nat) (s : State) : State :=
  let f := fi s q
  match f.ring with
  | [] => s
  | p :: rest =>
    if 1024 ≤ f.queue.length then s
    else
      let s := notePosted p (setFi q { f with ring := rest } s)
      showCe q (showFi q ((postMeets q p s).getD (setFi q { fi s q with queue := (fi s q).queue ++ [p] } s)))

/-- POST_RX. -/
def execPostRx (q : Quad) (s : State) : Host.Outcome State Fault Refusal := .next (if quadShut s q then s else postRx q s)

/-- The first queued post that can go on, and the state it leads to. -/
def postFirst (q : Nat) (s : State) : List Post → Option (Post × State)
  | [] => none
  | p :: ps =>
    match postMeets q p s with
    | some t => some (p, t)
    | none => postFirst q s ps

/-- POST_RETRY (R257). -/
def postRetry (q : Nat) (s : State) : State :=
  match postFirst q s (fi s q).queue with
  | none => s
  | some (p, t) => showCe q (showFi q (setFi q { fi t q with queue := eraseFirst (· == p) (fi t q).queue } t))

/-- POST_RETRY. -/
def execPostRetry (q : Quad) (s : State) : Host.Outcome State Fault Refusal := .next (if quadShut s q then s else postRetry q s)

/-- CBAR_RELEASE_TIME: device time reaches T (R288, R343). -/
def cbarReleaseTime (q ix : Nat) (s : State) : State :=
  match fiRec? s q ix with
  | none => s
  | some r => match r.release with
    | none => s
    | some t => if t ≤ devTicks s then fiTry q ix (setRec q ix (some { r with release := none }) s) else s

/-- CBAR_RELEASE_TIME. -/
def execCbarReleaseTime (q : Quad) (rec : Fin 256) (s : State) : Host.Outcome State Fault Refusal :=
  .next (cbarReleaseTime q rec s)

/-! ### CRSU tasks (R348 to R350) -/

/-- The first task that waits for a wick: record, task, chunk and post. -/
def waitingTask (s : State) (q : Nat) : Option (Nat × Nat × SlotSt × Post) :=
  (usedSlots s q).findSome? (fun e =>
    let x := e.2
    if x.state = 5 && x.stage = 3 && !x.stopped && !x.fenced then
      match x.tasks.findIdx? (fun t => t.phase == 0), x.post with
      | some t, some p => some (e.1, t, x, p)
      | _, _ => none
    else none)

/-- The IDLE task wick of engine e that comes next (R349). -/
def taskWickOf (s : State) (q e : Nat) : Option Nat :=
  let c := Tbl.get 0 (lx s q).taskWick e
  ((List.range 32).map (fun i => (c + i) % 32)).find? (fun w =>
    flag (reg s (Reg.leTask q e)) w && (wick s q e w).state == wkIdle && (wick s q e w).task.isNone)

/-- The engine and wick that take the next task: rotating over eligible engines, then over their wicks. -/
def nextTaskWick (s : State) (q job : Nat) (digest : List Byte) : Option (Nat × Nat) :=
  let c := (lx s q).taskEng
  ((List.range 64).map (fun i => (c + i) % 64)).findSome? (fun e =>
    if taskEngine s q e job digest then (taskWickOf s q e).map (fun w => (e, w)) else none)

/-- Elements of task t below n_c. -/
def taskSpan (p : Post) (t : Nat) : Nat := min (taskElems p) (p.units - t * taskElems p)

/-- TASK_DISPATCH: a task is given to a wick, and its loads are issued (R349, R350); a task that finds none counts
TASK_WAIT. -/
def taskDispatch (q : Nat) (s : State) : State :=
  match waitingTask s q with
  | none => s
  | some (r, t, x, p) =>
    match nextTaskWick s q x.job p.digest with
    | none => count1 (Ctr.taskWait q) s
    | some (e, w) =>
      let n := taskSpan p t
      let pb := n * (fmtBits p.pfmt / 8)
      let sb := n * (fmtBits p.sfmt / 8)
      let st := fun i => zeroBytes (if i < p.nstate then sb else 0)
      let s := setSlot q r (some { x with tasks := listSet x.tasks t ⟨1, e, w, zeroBytes pb, st 0, st 1, []⟩ }) s
      let s := setWick q e w { wick s q e w with task := some (r, t) } s
      let l := lx s q
      let s := setLx q { l with taskEng := (e + 1) % 64, taskWick := Tbl.set 0 l.taskWick e ((w + 1) % 32) } s
      let load := fun (part a len : Nat) s => forEach (pageCuts a len) (fun c s =>
        issueAccess 1 0 c.1 (.read c.2) (.load q r t part (c.1 - a)) s) s
      let s := load 0 (p.base + t * taskElems p * (fmtBits p.pfmt / 8)) pb s
      forRange p.nstate (fun i s =>
        load (1 + i) (p.sIn + i * p.sslot + t * taskElems p * (fmtBits p.sfmt / 8)) sb s) s

/-- TASK_DISPATCH. -/
def execTaskDispatch (q : Quad) (s : State) : Host.Outcome State Fault Refusal :=
  .next (if clusterDown s q then s else taskDispatch q s)

/-- An element of format `fmt` converted exactly to a lane of format `lane` (R350); none where no exact value exists. -/
def laneExact (fmt lane bits : Nat) : Option Nat :=
  if fmt = lane then some bits
  else
    let r := convert fmt lane 0 0 false 127 127 bits
    match fpDecode fmt bits 0, r.bits with
    | .fin neg m k, some b =>
      if (fpRound lane 0 0 false neg m k).inexact then none else some b
    | _, b => b

/-- A register group of a task (R350): lanes from `r0` on take `get j`; a lane without a value is free. -/
def fillRegs (q e w r0 : Nat) (f64 : Bool) (get : Nat → Option Nat) (s : State) : State :=
  let lane := if f64 then 64 else 32
  let per := 512 / lane
  forRange 4 (fun g s =>
    let c := s.freeCtr
    let vals := (List.range per).map (fun i =>
      ((get (g * per + i)).getD ((Config.freeWord (c + i)).toNat % 2 ^ lane)) * 2 ^ (lane * i))
    setWick q e w ((wick s q e w).setV (r0 + g) vals.sum) { s with freeCtr := c + per }) s

/-- TASK_LOAD_DONE: a task whose loads have ended starts at SUB_ENTRY with its registers filled (R350). -/
def taskLoadDone (w : WickId) (s : State) : State :=
  let q := w.q.val
  let e := w.e.val
  let n := w.w.val
  match (wick s q e n).task with
  | none => s
  | some (r, t) => match slotAt s q r with
    | none => s
    | some x => match x.post, x.tasks[t]? with
      | some p, some k =>
        let loading := (quadAccs s q).any (fun a => match a.owner with
          | .load q' r' t' _ _ => q' == q && r' == r && t' == t
          | _ => false)
        if k.phase ≠ 1 || loading || x.stopped || x.fenced then s
        else
          let m := taskSpan p t
          let e0 := t * taskElems p
          let lane := if p.f64 then 0 else 1
          let elem := fun (fmt : Nat) (bs : List Byte) (j : Nat) =>
            if j < m then laneExact fmt lane (leAt bs (j * (fmtBits fmt / 8)) (fmtBits fmt / 8)) else none
          let s := fillRegs q e n 0 p.f64 (fun j => (x.resultElem (e0 + j)).bits) s
          let s := fillRegs q e n 4 p.f64 (elem p.pfmt k.pIn) s
          let s := fillRegs q e n 8 p.f64 (if p.nstate = 0 then fun _ => some 0 else elem p.sfmt k.s0In) s
          let s := fillRegs q e n 12 p.f64 (if p.nstate < 2 then fun _ => some 0 else elem p.sfmt k.s1In) s
          let y := wick s q e n
          let vals := [x.chunk * x.cap + e0, e0, x.chunk, p.step, p.seed, x.expect, x.vcount, 0] ++ p.hp.map (·.toNat)
          let y := vals.zipIdx.foldl (fun y v => y.setS v.2 v.1) y
          let per := if p.f64 then 8 else 16
          let y := (List.range 4).foldl (fun y g => y.setP (g + 1)
            (((List.range per).filter (fun i => g * per + i < m)).map (fun i => 2 ^ (if p.f64 then 2 * i else i))).sum) y
          let s := setWick q e n { y with pc := BitVec.ofNat 18 p.entry, state := wkRun, quantum := 0 } s
          count1 (Ctr.tasks q) (setSlot q r (some { x with tasks := listSet x.tasks t { k with phase := 2 } }) s)
      | _, _ => s

/-- TASK_LOAD_DONE. -/
def execTaskLoadDone (w : WickId) (s : State) : Host.Outcome State Fault Refusal :=
  .next (if clusterDown s w.q then s else taskLoadDone w s)

end Sys2Proof.Machine
end

