-- ==== Sys2Proof/Machine/LanternMem.lean ====
section
/-!
DEFINITION. The Scehus instructions of class MEM: LS and Ingot loads and stores, block transfers, atomics, mirror writes and
messages (R302 to R308, R315 to R318), and how a PEER_WR leaves (R138, R144, R316, R355).
-/
namespace Sys2Proof.Machine

/-! ### PEER_WR (R138, R144) -/

/-- The first RTAG number from `n` on that is not in use, among `fuel` of them. -/
def freeTagFrom (used : List Nat) : Nat → Nat → Nat
  | 0, n => n % 16384
  | fuel + 1, n => if used.contains (n % 16384) then freeTagFrom used fuel (n + 1) else n % 16384

/-- The link that carries PEER_WRs of PEER fiber f, where it is PEER and UP. -/
def peerLink (s : State) (f : Nat) : Option Nat := if isPeer s f then (fiberLinks s f).find? (linkUp s) else none

/-- Sends a PEER_WR of quadrant q for an owner over fiber f; none where the fiber is not PEER and UP.  Answers its tag. -/
def sendPeer (q f addr job epoch : Nat) (u : UnitDest) (owner : AckOwner) (bs : List Byte) (s : State) : Option (Nat × State) :=
  match peerLink s f with
  | none => none
  | some k =>
    let ps := peers s q
    let tag := freeTagFrom (ps.out.map (·.1)) 16384 ps.next
    let s := setPeers q { ps with next := (tag + 1) % 16384, out := ps.out ++ [(tag, k, owner)] } s
    let dst := ((link s k).partner.map (·.epid.toNat)).getD 0
    let head := sealHead (commonHead dst s.fuses.epid.toNat 1 0 5 job epoch 0 bs.length 0 ++
      memClass addr 2 0 0 (16384 * q + tag) 0 0 0 0) bs
    some (tag, (originate q (originReq u 70 (.link k) head bs s) s).2)

/-! ### Checks at issue (R303, R304, R308) -/

/-- Bytes of an access of SIZE. -/
def sizeBytes (f : Fields) : Nat := if f.mod.toNat % 8 = 4 then 64 else 2 ^ (f.mod.toNat % 8)

/-- The fault of an LS access of n bytes at a that must be aligned to `al`, 0 for none. -/
def lsFault (a n al : Nat) : Nat := if lsSize < a + n then 0x04 else if a % al ≠ 0 then 0x03 else 0

/-- The fault of a single Ingot access of n bytes at a, 0 for none (R308). -/
def igFault (s : State) (w : WickId) (a n al right : Nat) (mirror : Bool) : Nat :=
  if 2 ^ 41 ≤ a then 0x05
  else if a % al ≠ 0 then 0x03
  else regionCheck s (leJob s w.q w.e) a n right mirror

/-- Runs `k` where `code` is 0, else faults. -/
def orFault (code a : Nat) (k : Eff) : Eff := if code = 0 then k else .fault code (some a) none

/-! ### LS loads and stores -/

/-- LDL. -/
def ldlEff (w : WickId) (f : Fields) (s : State) : Eff :=
  let a := (wkGet w s).ea f
  let n := sizeBytes f
  orFault (lsFault a n n) a (
    let (bs, s) := lsLoad w.q w.e a n s
    let x := wkGet w s
    let size := f.mod.toNat % 8
    .done (wkPut w (if size = 4 then x.setV f.d.toNat (leNat bs)
      else x.setS f.d.toNat (loadValue size (f.mod.getLsbD 6) bs)) s))

/-- LDL. -/
def execLdl (w : WickId) (f : Fields) (s : State) : Host.Outcome State Fault Refusal := .next (issue w 2 0x00 f false (ldlEff w f) s)

/-- The bytes a store of SIZE takes from B. -/
def storeBytes (x : WickSt) (f : Fields) : List Byte :=
  if f.mod.toNat % 8 = 4 then leBytes 64 (x.v f.b) else leBytes (sizeBytes f) (x.s f.b)

/-- STL. -/
def stlEff (w : WickId) (f : Fields) (s : State) : Eff :=
  let x := wkGet w s
  let a := x.ea f
  orFault (lsFault a (sizeBytes f) (sizeBytes f)) a (.done (lsStore w.q w.e a (storeBytes x f) s))

/-- STL. -/
def execStl (w : WickId) (f : Fields) (s : State) : Host.Outcome State Fault Refusal := .next (issue w 2 0x01 f false (stlEff w f) s)

/-! ### Ingot accesses (R302) -/

/-- Sends the access of long operation `id`: to the stack in the engine's own quadrant, else as a memory request over the
bridge to the service of the quadrant that homes the address (R23, R302); `head` is that request's class part and flags. -/
def igSend (w : WickId) (id a : Nat) (op : MemOp) (flags : Nat) (cls payload : List Byte) (s : State) : State :=
  let q := w.q.val
  let h := homeQuad a
  if h = q then issueAccess 1 0 a op (.op q id) s
  else
    let job := leJob s q w.e
    let me := s.fuses.epid.toNat
    let head := sealHead (commonHead me me 1 0 1 job (rf s (Reg.jobEpoch job) 15 0) 0 payload.length flags ++ cls) payload
    (originate q { originReq .lx 74 (.unit h .ms) head payload s with wick := some (q, id) } s).2

/-- A read for a long operation. -/
def igRead (w : WickId) (id a n : Nat) (s : State) : State := igSend w id a (.read n) 0 (memClass a 1 0 n 0 0 0 0 0) [] s
/-- A write for a long operation. -/
def igWrite (w : WickId) (id a : Nat) (bs : List Byte) (s : State) : State :=
  igSend w id a (.write bs) 0 (memClass a 2 0 0 0 0 0 0 0) bs s

/-- A long operation with a tag, once its room and its checks are met. -/
def tagged (w : WickId) (code a : Nat) (k : Eff) (s : State) : Eff :=
  if (match regionOf s a 1 with
      | some r => repairing s w.q 2 r || repairing s w.q 3 r
      | none => false) then .stall
  else if roomFor s w.q w.e true then orFault code a k else .waitTag (if (engineOps s w.q w.e).length < 512 then lacksTag else lacksEntry)

/-- LDI. -/
def ldiEff (w : WickId) (f : Fields) (s : State) : Eff :=
  let a := (wkGet w s).ea f
  let n := sizeBytes f
  tagged w (igFault s w a n n rightR false) a (
    let k : OpKind := .load f.d.toNat (f.mod.toNat % 8) (f.mod.getLsbD 6)
    let (id, s) := startOp w f k true k.busy none s
    .yields (igRead w id a n s)) s

/-- LDI. -/
def execLdi (w : WickId) (f : Fields) (s : State) : Host.Outcome State Fault Refusal := .next (issue w 2 0x02 f false (ldiEff w f) s)

/-- STI: the source register is read at issue. -/
def stiEff (w : WickId) (f : Fields) (s : State) : Eff :=
  let x := wkGet w s
  let a := x.ea f
  let n := sizeBytes f
  tagged w (igFault s w a n n rightW false) a (
    let (id, s) := startOp w f .store true 0 none s
    .yields (igWrite w id a (storeBytes x f) s)) s

/-- STI. -/
def execSti (w : WickId) (f : Fields) (s : State) : Host.Outcome State Fault Refusal := .next (issue w 2 0x03 f false (stiEff w f) s)

/-- Length of an IGLD, IGST or PWR. -/
def blockLen (f : Fields) : Nat := (f.imm16.toNat % 64 + 1) * 64

/-- The fault of a block transfer, with its address: ADDR_RANGE, ALIGN, LS_RANGE, then the rest of R308. -/
def blockFault (s : State) (w : WickId) (f : Fields) (right : Nat) (mirror : Bool) : Nat × Nat :=
  let x := wkGet w s
  let a := x.ea f
  let l := x.s f.b
  let n := blockLen f
  if 2 ^ 41 ≤ a then (0x05, a)
  else if a % 64 ≠ 0 || 4096 < a % 4096 + n then (0x03, a)
  else if l % 64 ≠ 0 then (0x03, l)
  else if lsSize < l + n then (0x04, l)
  else (regionCheck s (leJob s w.q w.e) a n right mirror, a)

/-- IGLD. -/
def igldEff (w : WickId) (f : Fields) (s : State) : Eff :=
  let x := wkGet w s
  let c := blockFault s w f rightR false
  tagged w c.1 c.2 (
    let (id, s) := startOp w f (.igld (x.s f.b) (blockLen f)) true 0 none s
    .yields (igRead w id (x.ea f) (blockLen f) s)) s

/-- IGLD. -/
def execIgld (w : WickId) (f : Fields) (s : State) : Host.Outcome State Fault Refusal := .next (issue w 2 0x04 f false (igldEff w f) s)

/-- IGST: bytes the program rewrites before its completion are undefined (R305). -/
def igstEff (w : WickId) (f : Fields) (s : State) : Eff :=
  let x := wkGet w s
  let c := blockFault s w f rightW false
  tagged w c.1 c.2 (
    let (bs, s) := lsLoad w.q w.e (x.s f.b) (blockLen f) s
    let (id, s) := startOp w f (.igst (x.s f.b) (blockLen f)) true 0 none s
    .yields (igWrite w id (x.ea f) bs s)) s

/-- IGST. -/
def execIgst (w : WickId) (f : Fields) (s : State) : Host.Outcome State Fault Refusal := .next (issue w 2 0x05 f false (igstEff w f) s)

/-- The operand an ATOM sends: s[B], or for FADD_ALLOY its rounding onto the anchor; none where the format or the grid
refuses it (R226, R316, R376). -/
def atomOperand (x : WickSt) (f : Fields) (wide : Bool) : Option Nat :=
  let b := x.s f.b
  if f.mod.toNat / 256 = 1 then
    let fmt := f.imm16.toNat / 4096
    if fmt ≤ 5 || (fmt = 0xA && !wide) || (fmt = 0xB && wide) then
      match alloyOperand fmt wide (toSigned 12 f.imm16.toNat) b with
      | .inl _ => none
      | .inr q => some (ofSigned (accW wide) q)
    else none
  else some (b % 2 ^ accW wide)

/-- ATOM: a FADD_ALLOY operand that the grid refuses ends the operation with DATA_ERROR, as its status would (R374). -/
def atomEff (w : WickId) (f : Fields) (s : State) : Eff :=
  let x := wkGet w s
  let a := x.ea f
  let n := sizeBytes f
  let wide := n == 8
  tagged w (igFault s w a n n rightA false) a (
    let k : OpKind := .atom f.d.toNat wide
    match atomOperand x f wide with
    | none => .yields (startOp w f k true k.busy (some ⟨0x0A, a, []⟩) s).2
    | some opa =>
      let (id, s) := startOp w f k true k.busy none s
      let aop := f.mod.toNat / 256
      let opb := x.s f.c
      let b33 := (if wide then 3 else 2) + 4 * b2n (f.mod.getLsbD 7) + 16 * (if aop = 1 then (if wide then 0xB else 0xA) else 0)
      let anchor := if aop = 1 then ofSigned 16 (toSigned 12 f.imm16.toNat) else 0
      let cls := memClass a (0x10 + aop) b33 0 0 anchor opa (if aop = 2 then opb else 0) 0
      .yields (igSend w id a (.atomic (0x10 + aop) wide opa opb (f.mod.getLsbD 7)) (if aop ≤ 1 then 16 else 0) cls [] s)) s

/-- ATOM. -/
def execAtom (w : WickId) (f : Fields) (s : State) : Host.Outcome State Fault Refusal := .next (issue w 2 0x06 f false (atomEff w f) s)

/-- PWR: from another quadrant than the one that homes the region and holds its MIRROR_FIBER it faults; without a working
fiber it completes with PEER_STATUS (R316). -/
def pwrEff (w : WickId) (f : Fields) (s : State) : Eff :=
  let q := w.q.val
  let x := wkGet w s
  let a := x.ea f
  let l := x.s f.b
  let n := blockLen f
  let c := blockFault s w f rightW true
  let fib := match regionOf s a n with
    | some r => rgnFiber s r
    | none => 0
  let c := if c.1 = 0 && (homeQuad a ≠ q || fiberQuad fib ≠ q) then (0x06, a) else c
  tagged w c.1 c.2 (
    let job := leJob s q w.e
    let (bs, s) := lsLoad q w.e l n s
    let id := s.accCtr
    match sendPeer q fib a job (rf s (Reg.jobEpoch job) 15 0) .lx (.op id) bs s with
    | none => .yields (startOp w f (.pwr l n 0) true 0 (some ⟨0x0B, a, []⟩) s).2
    | some (tag, s) => .yields (startOp w f (.pwr l n tag) true 0 none s).2) s

/-- PWR. -/
def execPwr (w : WickId) (f : Fields) (s : State) : Host.Outcome State Fault Refusal := .next (issue w 2 0x07 f false (pwrEff w f) s)

/-! ### Messages (R317, R318) -/

/-- The header of a SEND: SRC, JOB and EPOCH set, flags cleared (R317). -/
def sendHead (epid job epoch : Nat) (h : List Byte) : List Byte :=
  putBytes (putBytes (putBytes (putBytes h 3 (leBytes 3 epid)) 7 (leBytes 2 job)) 9 (leBytes 2 epoch)) 17 [0]

/-- Is the image one that SEND sends: BULK on VC6 or MGT on VC7, PLEN at most 4,096? -/
def sendable (h : List Byte) : Bool :=
  ((hVc h == 6 && hKind h == 0) || (hVc h == 7 && hKind h == 4)) && hPlen h ≤ 4096

/-- SEND. -/
def sendEff (w : WickId) (f : Fields) (s : State) : Eff :=
  let q := w.q.val
  let l := (wkGet w s).s f.b
  if !roomFor s q w.e false then .waitTag lacksEntry
  else if l % 64 ≠ 0 then .fault 0x03 (some l) none
  else if lsSize < l + 64 then .fault 0x04 (some l) none
  else
    let (h, s) := lsLoad q w.e l 64 s
    if !sendable h then .fault 0x0C (some l) none
    else if lsSize < l + 64 + hPlen h then .fault 0x04 (some l) none
    else
      let job := leJob s q w.e
      let head := sendHead s.fuses.epid.toNat job (rf s (Reg.jobEpoch job) 15 0) h
      .yields (startOp w f (.send l (64 + hPlen h) head) false 0 none s).2

/-- SEND. -/
def execSend (w : WickId) (f : Fields) (s : State) : Host.Outcome State Fault Refusal := .next (issue w 2 0x08 f false (sendEff w f) s)

/-- The oldest queued message a RECV of wick w takes (R318): one for any wick has wick byte 0x1F. -/
def recvMsg (s : State) (w : WickId) (any : Bool) : Option (Nat × Nat × UPkt) :=
  (lx s w.q).msgs.find? (fun m => m.1 == w.e.val && m.2.1 == (if any then 31 else w.w.val))

/-- RECV: it takes a message at once, or its wick waits in WAIT_SYN for one. -/
def recvEff (w : WickId) (f : Fields) (s : State) : Eff :=
  let q := w.q.val
  let l := (wkGet w s).s f.b
  let any := f.mod.getLsbD 0
  if !roomFor s q w.e false then .waitTag lacksEntry
  else if l % 64 ≠ 0 then .fault 0x03 (some l) none
  else if lsSize < l + 4160 then .fault 0x04 (some l) none
  else
    match recvMsg s w any with
    | some m =>
      let fin : OpEnd := ⟨0, 0, padTo 64 m.2.2.head ++ m.2.2.payload⟩
      let s := setLx q { lx s q with msgs := eraseFirst (· == m) (lx s q).msgs } s
      .yields (showMsgs q (startOp w f (.recv l f.d.toNat any) false (2 ^ f.d.toNat) (some fin) s).2)
    | none =>
      let s := (startOp w f (.recv l f.d.toNat any) false (2 ^ f.d.toNat) none s).2
      .yields (wkPut w { wkGet w s with state := wkWaitSyn, wait := .message } s)

/-- RECV. -/
def execRecv (w : WickId) (f : Fields) (s : State) : Host.Outcome State Fault Refusal := .next (issue w 2 0x09 f false (recvEff w f) s)

end Sys2Proof.Machine
end

