-- ==== Sys2Proof/Machine/StackOps.lean ====
section
/-!
DEFINITION. How an Ingot access ends and what follows for its owner: responses, long operations, collective actions with
their mirror writes, spills, CRSU tasks, host accesses; and stacks taken offline (R305, R351 to R355, R372, R373, R390, R429).
-/
namespace Sys2Proof.Machine

/-! ### Mirror writes (R354, R355) -/

/-- A PEER_WR of a chunk failed: AERR MIRROR_FAIL with the status in DETAIL; the chunk goes on (R355, R361). -/
def mirrorFail (q r detail : Nat) (s : State) : State :=
  match slotAt s q r with
  | none => s
  | some x =>
    let s := count1 (Ctr.mirrorFail q) s
    let s := match x.post with
      | some p => logAction q p aeMirrorFail s
      | none => s
    if x.aerr = 0 then setSlot q r (some { x with aerr := aeMirrorFail, detail := detail }) s else s

/-- MIRROR_WRITE_SEND: a completed action write to a mirrored region is sent to its MIRROR_FIBER (R354).  Without a fiber
that is PEER and UP it fails, with DETAIL 0xFF (R355 gives no status there). -/
def mirrorWrite (q r a : Nat) (bs : List Byte) (s : State) : State :=
  match slotAt s q r, regionOf s a bs.length with
  | some x, some g =>
    if x.stopped || x.fenced || !rgnMirror s g then s
    else match sendPeer q (rgnFiber s g) a x.job x.epoch .ce (.slot r) bs s with
      | some (_, s) => count (Ctr.mirrorBytes q) bs.length s
      | none => mirrorFail q r 0xFF s
  | _, _ => s

/-- PEER_ACK_RX: an acknowledgement ends the PEER_WR with its RTAG (R138, R316, R355). -/
def peerAckRx (q : Nat) (s : State) : State :=
  match (sw s q).ackIn with
  | [] => s
  | p :: rest =>
    let s := setSw q { sw s q with ackIn := rest } s
    let st := mStatus p.head
    match (peers s q).out.find? (fun o => o.1 == mRtag p.head % 16384) with
    | none => s
    | some o =>
      let s := setPeers q { peers s q with out := eraseFirst (fun x => x == o) (peers s q).out } s
      match o.2.2 with
      | .op id => opEnds q id ⟨if st = 0 then 0 else 0x0B, mAddr p.head, []⟩ s
      | .slot r => slotProgress q r (if st = 0 then s else mirrorFail q r st s)

/-- PEER_ACK_RX. -/
def execPeerAckRx (q : Quad) (s : State) : Host.Outcome State Fault Refusal :=
  .next (if quadShut s q then s else peerAckRx q s)

/-- Ends every PEER_WR outstanding on link k that has left UP (R360). -/
def peersLost (k : Nat) (s : State) : State :=
  forRange 4 (fun q s =>
    let gone := (peers s q).out.filter (fun o => o.2.1 == k)
    let s := if gone.isEmpty then s
      else setPeers q { peers s q with out := (peers s q).out.filter (fun o => o.2.1 != k) } s
    forEach gone (fun o s => match o.2.2 with
      | .op id => opEnds q id ⟨0x0B, 0, []⟩ s
      | .slot r => slotProgress q r (mirrorFail q r 0xFF s)) s) s

/-! ### CRSU tasks (R350 to R352) -/

/-- A part of a task's loads has arrived. -/
def loadArrived (q r t part off : Nat) (data : List Byte) (s : State) : State :=
  match slotAt s q r with
  | none => s
  | some x => match x.tasks[t]? with
    | none => s
    | some k =>
      let k := if part = 0 then { k with pIn := putBytes k.pIn off data }
        else if part = 1 then { k with s0In := putBytes k.s0In off data }
        else { k with s1In := putBytes k.s1In off data }
      setSlot q r (some { x with tasks := listSet x.tasks t k }) s

/-- Elements of a down packet of CRSU: 4,096 bytes of PFMT elements (R224, R352). -/
def paramPer (p : Post) : Nat := 32768 / fmtBits p.pfmt

/-- Sends the down packet of the new parameters that task t belongs to, once every task of it is written back (R352). -/
def sendParams (q r t : Nat) (x : SlotSt) (p : Post) (s : State) : State :=
  let per := paramPer p
  let tasksPer := per / taskElems p
  let i := t / tasksPer
  let ts := (x.tasks.drop (i * tasksPer)).take tasksPer
  if ts.all (·.phase == 4) && !devFault s then
    let pl := (ts.map (·.pOut)).flatten
    let total := (p.units + per - 1) / per
    let x := (slotAt s q r).getD x
    sendDown q r x (downHead s x p.pfmt i total p.units x.expect 0 x.good (i + 1 == total) false false pl) pl
      (count1 (Ctr.resultPkts q) (setSlot q r (some { x with formed := x.formed + 1 }) s))
  else s

/-- A task's write-back is complete: its packet may leave, and the chunk's data is complete with its last task (R351, R352,
R359, R440). -/
def taskWritten (q r t : Nat) (s : State) : State :=
  match slotAt s q r with
  | none => s
  | some x => match x.tasks[t]?, x.post with
    | some k, some p =>
      let x := { x with tasks := listSet x.tasks t { k with phase := 4 } }
      let s := setSlot q r (some x) s
      if x.stopped || x.fenced || k.phase ≠ 3 then s
      else
        let s := sendParams q r t x p s
        if x.tasks.all (·.phase == 4) then
          let read := (x.tasks.map (·.pIn)).flatten ++ (x.tasks.map (·.s0In)).flatten ++ (x.tasks.map (·.s1In)).flatten
          let x := (slotAt s q r).getD x
          let x := { x with stage := 0, result := (x.tasks.map (·.pOut)).flatten,
                            dw := if p.prov then sha3_256 read else x.dw }
          setSlot q r (some x) s
        else s
    | _, _ => s

/-- Does an access of task t's write-back remain? -/
def backLeft (s : State) (q r t : Nat) : Bool :=
  (quadAccs s q).any (fun a => match a.owner with
    | .back q' r' t' _ _ => q' == q && r' == r && t' == t
    | _ => false)

/-! ### Host accesses (R429, R433) -/

/-- All-ones data of `n` bytes. -/
def onesBytes (n : Nat) : List Byte := List.replicate n 0xFF

/-- A BAR2 access whose parts have all ended completes (R429). -/
def winFinish (id : Nat) (w : WinAcc) (s : State) : State :=
  let s := { s with host := { s.host with wins := Tbl.set none s.host.wins id none } }
  let s := if w.bad then count1 Ctr.winErr s else s
  if w.kind = 1 then s else emit (.completion (if w.bad then onesBytes w.data.length else w.data)) s

/-- A part of a BAR2 access has ended. -/
def winPart (id off st : Nat) (data : List Byte) (s : State) : State :=
  match Tbl.get none s.host.wins id with
  | none => s
  | some w =>
    let w := { w with data := if w.kind = 1 then w.data else putBytes w.data off data, left := w.left - 1,
                      bad := w.bad || st != 0 }
    if w.left = 0 then winFinish id w s
    else { s with host := { s.host with wins := Tbl.set none s.host.wins id (some w) } }

/-- A part of a DMA descriptor's data has ended; the first failure is its status (R434). -/
def dmaPart (i id off st : Nat) (data : List Byte) (s : State) : State :=
  let d := dma s i
  match d.job with
  | none => s
  | some j =>
    if j.id ≠ id then s else
    let code := if st = 0 then 0 else if st = 4 then 3 else 4
    setDma i { d with job := some { j with data := putBytes j.data off data,
                                           status := if j.status = 0 then code else j.status } } s

/-! ### The end of an access (R373) -/

/-- What follows for the owner of an access that ended with a status: 0, 4 STACK_OFFLINE or 5 DATA_ERROR. -/
def accessEnds (n : Nat) (a : Access) (st : Nat) (data : List Byte) (s : State) : State :=
  let aerr := if st = 5 && !a.op.writes then aeReadError else aeWriteError
  match a.owner with
  | .request p =>
    let s := msAnswer (n / 3) p st data (hEcn p.head) false s
    showMs (n / 3) s
  | .comb q id =>
    match (ms s q).combs.find? (fun c => c.id == id) with
    | none => showMs q s
    | some c => showMs q (combAnswer q c st data s)
  | .peer q p => peerAnswer q p st (if st = 0 then count (Ctr.igPeerWrApplied (n / 3) (n % 3)) a.op.len s else s)
  | .op q id => opEnds q id ⟨statusFault st, a.addr, data⟩ s
  | .slot q r off =>
    if st ≠ 0 then stopChunk q r aerr 0 s
    else match a.op with
      | .write bs => slotProgress q r (mirrorWrite q r a.addr bs s)
      | _ => match slotAt s q r with
        | none => s
        | some x =>
          let d := data.zipIdx.foldl (fun t b => Tbl.set 0 t (off + b.2) b.1) x.data
          slotProgress q r (setSlot q r (some { x with data := d }) s)
  | .spill q r => if st = 0 then slotProgress q r (readBack q r a.op a.addr data s) else spillLost q r (if st = 4 then csUnitLost else csDataError) s
  | .load q r t part off => if st = 0 then loadArrived q r t part off data s else stopChunk q r aerr 0 s
  | .back q r t _ _ =>
    if st ≠ 0 then stopChunk q r aerr 0 s
    else
      let s := match a.op with
        | .write bs => mirrorWrite q r a.addr bs s
        | _ => s
      if backLeft s q r t then s else taskWritten q r t s
  | .window id off => winPart id off st data s
  | .dma i id off => dmaPart i id off st data s

/-- The long operation an access is made for, by quadrant and number. -/
def Access.opOf (a : Access) : Option (Nat × Nat) :=
  match a.owner with
  | .op q id => some (q, id)
  | .request p => p.wick
  | _ => none

/-- The bytes an access stores: those of an IGST whose source the program has rewritten meanwhile are free (R305). -/
def spoilWrite (a : Access) (s : State) : MemOp × State :=
  match a.op, a.opOf with
  | .write bs, some (q, id) =>
    match (lx s q).ops.find? (fun o => o.id == id) with
    | some o => match o.kind with
      | .igst l _ => let (bs, s) := spoil l bs o.dirty s; (.write bs, s)
      | _ => (a.op, s)
    | none => (a.op, s)
  | _, _ => (a.op, s)

/-- STACK_ACCESS_DONE: a granted access completes, with the symbol errors that its lines show; on a stack that is not ONLINE
it ends with STACK_OFFLINE. -/
def stackAccessDone (n id : Nat) (errs : List SymErr) (s : State) : State :=
  match (stack s n).accs.find? (fun a => a.id == id) with
  | none => s
  | some a =>
    if !a.granted || !accReady s n a then s
    else if !stackOnline s n then accessEnds n a 4 [] (count1 (Ctr.igOfflineEnded (n / 3) (n % 3)) (dropAccess n id s))
    else
      let (op, s) := spoilWrite a s
      let (st, data, s) := perform n a.addr op errs s
      accessEnds n { a with op := op } st data (dropAccess n id s)

/-- STACK_ACCESS_DONE. -/
def execStackAccessDone (n : StackIx) (acc : Nat) (errs : List SymErr) (s : State) : Host.Outcome State Fault Refusal :=
  .next (stackAccessDone n acc errs s)

/-! ### OFFLINE (R390) -/

/-- An access ended by OFFLINE: a write or atomic may or may not have been applied. -/
def endOffline (n : Nat) (a : Access) (s : State) : State :=
  let s := count1 (Ctr.igOfflineEnded (n / 3) (n % 3)) s
  let (done, s) := freeBool s
  let s := if done && a.op.writes then
      let (op, s) := spoilWrite a s
      (applyOp a.addr op s).2
    else s
  accessEnds n a 4 [] (dropAccess n a.id s)

/-- Ends everything that uses stack n: its accesses, open adds, and the chunks spilled to it (R270, R289, R390, R391). -/
def stackLeaves (n : Nat) (s : State) : State :=
  let q := n / 3
  let s := forEach (stack s n).accs (endOffline n) s
  let open' := (openCombs s q).filter (fun c => c.kind != 0 && stackOf s c.addr == n)
  let s := forEach open' (fun c s => showMs q (combAnswer q c 4 [] s)) s
  let spilled := (usedSlots s q).filter (fun e => 1024 ≤ e.1 && (stacksOf s (spillAddr s q e.1) spillBytes).contains n)
  showCe q (forEach spilled (fun e s => spillLost q e.1 csUnitLost s) s)

/-- A stack's STATE changes; the spill slots that are free follow (R256, R389). -/
def enterState (n st : Nat) (s : State) : State := showCe (n / 3) (setStackState n st s)

/-- OFFLINE is set (R390): an ONLINE stack drains; in TRAINING the bit is held. -/
def stackOfflineSet (n : Nat) (s : State) : State :=
  let a := Reg.igCtrl (n / 3) (n % 3)
  if rb s a 31 then s
  else
    let s := setRb a 31 true s
    if stackState s n ≠ stOnline then s
    else stackLeaves n (setUnitState (20 + n) 6 1 (enterState n stDraining s))

/-- STACK_OFFLINE_SET. -/
def execStackOfflineSet (n : StackIx) (s : State) : Host.Outcome State Fault Refusal :=
  .next (guardReg (Reg.igCtrl (n / 3) (n % 3)) (stackOfflineSet n) s)

/-- STACK_DRAINED: a DRAINING stack without accesses enters OFFLINE, or ONLINE when OFFLINE has been cleared (R389, R390). -/
def stackDrained (n : Nat) (s : State) : State :=
  if stackState s n ≠ stDraining || (stack s n).accs ≠ [] then s
  else if rb s (Reg.igCtrl (n / 3) (n % 3)) 31 then enterState n stOffline s
  else setUnitState (20 + n) 4 1 (enterState n stOnline s)

/-- STACK_DRAINED. -/
def execStackDrained (n : StackIx) (s : State) : Host.Outcome State Fault Refusal :=
  .next (if stackGone s n then s else stackDrained n s)

/-- OFFLINE is cleared (R390). -/
def stackOfflineClear (n : Nat) (s : State) : State :=
  let a := Reg.igCtrl (n / 3) (n % 3)
  if !rb s a 31 then s
  else
    let s := setRb a 31 false s
    if stackState s n = stOffline then setUnitState (20 + n) 4 1 (enterState n stOnline s) else s

/-- STACK_OFFLINE_CLEAR. -/
def execStackOfflineClear (n : StackIx) (s : State) : Host.Outcome State Fault Refusal :=
  .next (guardReg (Reg.igCtrl (n / 3) (n % 3)) (stackOfflineClear n) s)

end Sys2Proof.Machine
end

