-- ==== Sys2Proof/Machine/Arbiters.lean ====
section
/-!
DEFINITION. Decisions of the calendar-and-lottery arbiters and congestion maps (R208 to R220, R378, R396, R432).
-/
namespace Sys2Proof.Machine

/-! ### Arbiters -/

/-- Does DMA engine i ask for the PCIe requester: it has a descriptor to fetch and no grant (R208, R432)? -/
def dmaAsks (s : State) (i : Nat) : Bool :=
  let q := i / 8
  let e := i % 8
  !(dma s i).granted && (dma s i).job.isNone && rb s (Reg.dmaCtl q e) 31 && !rb s (Reg.dmaStatus q e) 30 &&
    rf s (Reg.dmaHead q e) 16 0 != rf s (Reg.dmaTail q e) 16 0

/-- DMA_ARB's DRAINED follows the engines that hold a grant (R214). -/
def showDmaArb (s : State) : State :=
  arbUses .dma ((List.range 32).filter (fun i => (dma s i).granted)).length s

/-- DMA_ARB grants engine i the PCIe requester for one descriptor: from its fetch to its completion (R208, R432, log entry
65). -/
def dmaGrant (i : Nat) (s : State) : State := showDmaArb (setDma i { dma s i with granted := true } s)

/-- The requesters of an arbiter that request now (R208). -/
def arbRequests (s : State) : ArbRef → List Nat
  | .xb q p => xbRequests s q p
  | .ig q n => igRequests s (3 * q + n)
  | .ap q => apRequests s q
  | .dma => (List.range 32).filter (dmaAsks s)

/-- A grant takes effect: a packet starts on the bridge, a request enters the stack's port, an Alloy unit takes the Ingot
port, or a DMA engine takes the PCIe requester for a descriptor. -/
def arbServe (a : ArbRef) (r : Nat) (s : State) : State :=
  match a with
  | .xb q p => bridgeStart q p r s
  | .ig q n => igGrant (3 * q + n) r s
  | .ap q => apGrant q r s
  | .dma => dmaGrant r s

/-- Is the arbiter's unit out of service? -/
def arbDown (s : State) (a : ArbRef) : Bool := regGated s (arbPage a)

/-- ARB_DECISION: `sampled` holds the requests sampled in the cycle before (R209 to R212). -/
def execArbDecision (a : ArbRef) (sampled : BitVec 32) (s : State) : Host.Outcome State Fault Refusal :=
  .next (if arbDown s a then s
    else
      match arbDecide a ((List.range 32).filter sampled.getLsbD) (arbRequests s a) s with
      | (some r, s) => arbServe a r s
      | (none, s) => s)

/-- STARVE_DETECT: STARVE bits follow the counters (R215). -/
def execStarveDetect (a : ArbRef) (s : State) : Host.Outcome State Fault Refusal :=
  .next (if arbDown s a then s else starveBits a s)

/-! ### Congestion maps (R216 to R220) -/

/-- CMAP_INTERVAL in µs: values above 1,000 act as 1,000. -/
def cmapInterval (s : State) (q : Nat) : Nat := min 1000 (rf s (Reg.cmapCfg q) 9 0)

/-- The link record of link k in quadrant q's map: the peak starts from the occupancy at the sample before. -/
def linkRecord (s : State) (q k : Nat) : List Byte :=
  let c := (sw s q).cmap
  let occ := linkQueued s q k
  let enq := Tbl.get 0 c.enq k
  let frac := if enq = 0 then 0 else min 255 (Tbl.get 0 c.marked k * 256 / enq)
  leBytes 8 (min occ (2 ^ 22 - 1) + min (max occ (Tbl.get 0 c.peak k)) (2 ^ 22 - 1) * 2 ^ 22 + frac * 2 ^ 44)

/-- The occupancy of every link that has packets in quadrant q: the peaks the next interval starts from. -/
def occNow (s : State) (q : Nat) : Tbl Nat :=
  (sw s q).pkts.foldl (fun t p => match p.dest with
    | .link k => Tbl.set 0 t k (linkQueued s q k)
    | _ => t) []

/-- A fraction as ⌊F × 65,536⌋, saturating (R217); 0 over an empty interval. -/
def frac16 (num den : Nat) : Nat := if den = 0 then 0 else min 65535 (num * 65536 / den)

/-- What a resource of quadrant q has carried since the last sample. -/
def usedOf (s : State) (q key : Nat) : Nat := Tbl.get 0 (sw s q).cmap.use key

/-- Ticks since the last sample. -/
def cmapTicks (s : State) (q : Nat) : Nat := s.time.l - (sw s q).cmap.since

/-- INGRESS_PEAK: a fiber carries 500 bytes in a tick (R43). -/
def ingressPeak (s : State) (q : Nat) : Nat :=
  ((List.range 32).map (fun t => frac16 (usedOf s q (useIngest t)) (500 * cmapTicks s q))).foldl max 0

/-- The busy cycles of the crossbar's output ports (R140, R152). -/
def portUses (s : State) (q : Nat) : List Nat :=
  ((List.range 39).map (fun o => (List.range (outPorts o)).map (fun p => usedOf s q (usePort o p)))).flatten

/-- Charged-length utilisation of the UP links of quadrant q: a lane carries 62.5 bytes in a tick (R43, R199). -/
def egressUses (s : State) (q : Nat) : List Nat :=
  ((List.range 256).filter (fun i => linkUp s (256 * q + i))).map (fun i =>
    frac16 (2 * usedOf s q (useLink i)) (125 * mapLanes (txMap s (256 * q + i)) * cmapTicks s q))

/-- The mean of a list of fractions. -/
def mean (xs : List Nat) : Nat := xs.sum / max 1 xs.length

/-- A stack's LOST_GRANT counter and a bridge's. -/
def lostGrants (s : State) (q i : Nat) : Nat :=
  (ctr s (arbPage (if i < 3 then .xb (Fin.ofNat 4 q) (Fin.ofNat 3 i) else .ig (Fin.ofNat 4 q) (Fin.ofNat 3 i)) + 0x50)).toNat

/-- The utilisation words of bridge p: of its 40 flits a cycle, the shares of what it carried, and the cycles without credit. -/
def bridgeUses (s : State) (q p : Nat) : List Byte :=
  let loc := usedOf s q (useLocal p)
  let tr := usedOf s q (useTransit p)
  let cycles := 2 * cmapTicks s q
  leBytes 2 (frac16 (loc + tr) (40 * cycles)) ++ leBytes 2 (frac16 loc (loc + tr)) ++ leBytes 2 (frac16 tr (loc + tr)) ++
    leBytes 2 (frac16 (usedOf s q (useNoCredit p)) cycles)

/-- The 128 bytes of part 2 (R217); the data busy fraction of a stack's channels, which depends on the memory's own timing, is
free (log entry 43). -/
def levelRecords (s : State) (q : Nat) : List Byte × State :=
  let c := (sw s q).cmap
  let (f, s) := freeBytes 6 s
  let lost := fun (i : Nat) => leBytes 4 (lostGrants s q i - Tbl.get 0 c.lost i)
  let ports := (portUses s q).map (fun n => frac16 n (2 * cmapTicks s q))
  let links := egressUses s q
  let top := leBytes 2 (ingressPeak s q) ++ leBytes 2 (mean ports) ++ leBytes 2 (ports.foldl max 0) ++
    leBytes 2 (mean links) ++ leBytes 2 (links.foldl max 0)
  let bridge := fun (p : Nat) => bridgeUses s q p ++ lost p ++ zeroBytes 4
  let stack := fun (i : Nat) =>
    if stackGone s (3 * q + i) then zeroBytes 16
    else leBytes 2 (frac16 (usedOf s q (useStack i)) (4 * cmapTicks s q)) ++ (f.drop (2 * i)).take 2 ++
      leBytes 2 (min 65535 (Tbl.get 0 c.depth i)) ++ zeroBytes 2 ++ lost (3 + i) ++ zeroBytes 4
  (top ++ zeroBytes 6 ++ bridge 0 ++ bridge 1 ++ bridge 2 ++ stack 0 ++ stack 1 ++ stack 2 ++ zeroBytes 16, s)

/-- The head of part i of a map. -/
def cmapHead (s : State) (q i seq t : Nat) (payload : List Byte) : List Byte :=
  sealHead (commonHead (rf s (Reg.cmapDst q) 23 0) s.fuses.epid.toNat 7 (rf s (Reg.cmapCfg q) 30 29) 4
    (rf s (Reg.cmapJob q) 11 0) 0 0 payload.length 0 ++
    leBytes 2 0x0010 ++ leBytes 1 q ++ leBytes 1 i ++ leBytes 4 seq ++ leBytes 8 t ++ leBytes 2 (cmapInterval s q) ++
    zeroBytes 18) payload

/-- Is the packet a map packet? -/
def isMap (h : List Byte) : Bool := hKind h == 4 && leAt h 24 2 == 0x0010

/-- Sends a map from the service port, unless packets of the previous one still wait (R218); a failed lookup drops it. -/
def cmapSend (q seq t : Nat) (parts : List (List Byte)) (s : State) : State :=
  if (sw s q).originQ.any (fun o => o.unit == .sv && isMap o.head) then count1 (Ctr.cmapSkip q) s
  else
    let send := fun (i : Nat) (s : State) =>
      let pl := parts.getD i []
      originate q (originReq .sv 78 (.lookup (some 0)) (cmapHead s q i seq t pl) pl s) s
    match send 0 s with
    | (false, s) => logEvent q 0x0308 clsInfo 6 0 (dataG seq 0) (count1 (Ctr.cmapDrop q) s)
    | (true, s) => count1 (Ctr.cmapSent q) (send 2 (send 1 s).2).2

/-- Does device time reach in this tick a boundary above the last one sampled, and which (R216, R396)? -/
def cmapEdge (s : State) (q : Nat) : Option Nat :=
  let period := 800 * cmapInterval s q
  let edge := devTicks s / max 1 period * period
  if period ≠ 0 && s.time.was.all (· < edge) && (sw s q).cmap.last.all (· < edge) then some edge else none

/-- The maps' measures start afresh after the sample at the boundary `edge`, from the queues as they stand. -/
def cmapRestart (q edge : Nat) (s : State) : State :=
  let w := sw s q
  let waiting := fun i => ((stack s (3 * q + i)).accs.filter (fun a => !a.granted)).length
  let table := fun (n : Nat) (f : Nat → Nat) => (List.range n).foldl (fun t i => Tbl.set 0 t i (f i)) ([] : Tbl Nat)
  setSw q { w with cmap := { w.cmap with
    last := some edge, since := s.time.l, use := [], enq := [], marked := [], peak := occNow s q,
    depth := table 3 waiting, lost := table 6 (lostGrants s q) } } s

/-- CMAP_SAMPLE: at a boundary the map is published and sent (R216 to R219, R396); at any other instant there is no sample. -/
def cmapSample (q : Nat) (s : State) : State :=
  match cmapEdge s q with
  | none => s
  | some edge =>
    let now := devTicks s
    let recs := fun lo => ((List.range 512).map (fun i => linkRecord s q (lo + i))).flatten
    let p0 := recs 0
    let p1 := recs 512
    let (p2, s) := levelRecords s q
    let seq := (reg s (Reg.cmapSeq q)).toNat + 1
    let buf := p0 ++ p1 ++ p2
    let s := cmapRestart q edge s
    let w := sw s q
    let c := { w.cmap with buf0 := if seq % 2 = 0 then buf else w.cmap.buf0,
                           buf1 := if seq % 2 = 1 then buf else w.cmap.buf1 }
    let s := setReg (Reg.cmapSeq q) (BitVec.ofNat 32 seq) (setSw q { w with cmap := c } s)
    if rb s (Reg.cmapCfg q) 31 then cmapSend q seq now [p0, p1, p2] s else s

/-- CMAP_SAMPLE. -/
def execCmapSample (q : Quad) (s : State) : Host.Outcome State Fault Refusal := .next (if quadShut s q then s else cmapSample q s)

end Sys2Proof.Machine
end

