-- ==== Sys2Proof/Machine/Mldsa.lean ====
section
/-!
DEFINITION. ML-DSA-87 verification, which R17 takes from FIPS 204 (PRESUMED: the standard's text is outside the spec, log
entry 68): pure signatures with an empty context string, as R453 and R460 have them.
-/
namespace Sys2Proof

/-! ### The ring: 256 coefficients modulo q -/

/-- The prime q. -/
def dsaQ : Nat := 8380417

/-- A polynomial: its 256 coefficients, each below q. -/
abbrev DsaPoly := List Nat

/-- A polynomial by its coefficients. -/
def DsaPoly.ofFn (f : Nat → Nat) : DsaPoly := (List.range 256).map (fun i => f i % dsaQ)

/-- Coefficient by coefficient. -/
def DsaPoly.zip (f : Nat → Nat → Nat) (a b : DsaPoly) : DsaPoly := List.zipWith (fun x y => f x y % dsaQ) a b

/-- Powers of `g`, `n` of them from `x` on. -/
def dsaPowers (g : Nat) : Nat → Nat → List Nat
  | 0, _ => []
  | n + 1, x => x :: dsaPowers g n (x * g % dsaQ)

/-- The powers of the 512-th root of unity 1753. -/
def dsaRoots : Array Nat := (dsaPowers 1753 512 1).toArray

/-- The eight bits of a number in reverse order. -/
def bitRev8 (i : Nat) : Nat := (List.range 8).foldl (fun v j => 2 * v + i / 2 ^ j % 2) 0

/-- Value `i` of the transform is the polynomial at root 2 bitRev8(i) + 1. -/
def dsaNtt (a : DsaPoly) : DsaPoly :=
  DsaPoly.ofFn (fun i =>
    let e := 2 * bitRev8 i + 1
    a.zipIdx.foldl (fun v c => (v + c.1 * dsaRoots.getD (e * c.2 % 512) 0) % dsaQ) 0)

/-- The inverse transform: 8347681 is the inverse of 256. -/
def dsaNttInv (a : DsaPoly) : DsaPoly :=
  let w := a.zipIdx.map (fun c => (c.1, 2 * bitRev8 c.2 + 1))
  DsaPoly.ofFn (fun j => 8347681 * w.foldl (fun v c => (v + c.1 * dsaRoots.getD ((512 - c.2 * j % 512) % 512) 0) % dsaQ) 0)

/-! ### Packing -/

/-- `n` numbers of `w` bits each, least significant bit first. -/
def dsaUnpack (w n : Nat) (bs : List Byte) : List Nat :=
  let x := leNat bs
  (List.range n).map (fun i => x / 2 ^ (w * i) % 2 ^ w)

/-- Four bits to a coefficient, the lower nibble first. -/
def dsaPack4 : List Nat → List Byte
  | a :: b :: r => BitVec.ofNat 8 (a + 16 * b) :: dsaPack4 r
  | _ => []

/-! ### Sampling -/

/-- Coefficients below q from groups of three bytes, bit 23 unused. -/
def dsaReject : List Byte → List Nat
  | a :: b :: c :: r =>
    let z := a.toNat + 256 * b.toNat + 65536 * (c.toNat % 128)
    if z < dsaQ then z :: dsaReject r else dsaReject r
  | _ => []

/-- Entry (r, s) of the public matrix, transformed: SHAKE128 of the seed and the two indices.  Ten blocks hold 560 candidates
of which one in 1,023 is refused. -/
def dsaExpand (rho : List Byte) (r s : Nat) : DsaPoly :=
  (dsaReject (shakeBlocks 168 10 (rho ++ [BitVec.ofNat 8 s, BitVec.ofNat 8 r]))).take 256

/-- The exchanges that place the 60 signs: coefficient j moves to i and the sign of step `t` to j, with j the next byte not
above i. -/
def dsaBall (signs : Nat) : Nat → Nat → DsaPoly → List Byte → DsaPoly
  | 0, _, c, _ => c
  | _ + 1, _, c, [] => c
  | fuel + 1, t, c, b :: r =>
    if t = 60 then c
    else if 196 + t < b.toNat then dsaBall signs fuel t c r
    else
      let j := b.toNat
      let c := listSet c (196 + t) (c.getD j 0)
      dsaBall signs fuel (t + 1) (listSet c j (if signs / 2 ^ t % 2 = 1 then dsaQ - 1 else 1)) r

/-- The challenge of a seed: 60 coefficients are 1 or -1. -/
def dsaChallenge (seed : List Byte) : DsaPoly :=
  let h := shakeBlocks 136 8 seed
  dsaBall (leAt h 0 8) h.length 0 (List.replicate 256 0) (h.drop 8)

/-! ### Hints -/

/-- Reads the places of the hints of `k` polynomials from position `at`: each polynomial's rise, and the bytes beyond the last
are zero. -/
def dsaHints (y : List Byte) : Nat → Nat → Nat → Option (List (List Nat))
  | 0, _, at' => if (y.drop at').take (75 - at') |>.all (· == 0) then some [] else none
  | k + 1, i, at' =>
    let stop := byteAt y (75 + i)
    let mine := ((y.drop at').take (stop - at')).map (·.toNat)
    if stop < at' || 75 < stop || !((mine.zip (mine.drop 1)).all (fun e => decide (e.1 < e.2))) then none
    else (dsaHints y k (i + 1) stop).map (mine :: ·)

/-- Twice γ2. -/
def dsaAlpha : Nat := 523776

/-- High part of a coefficient, and is its low part above zero? -/
def dsaHigh (r : Nat) : Nat × Bool :=
  let low := r % dsaAlpha
  if 2 * low ≤ dsaAlpha then
    (if r - low = dsaQ - 1 then 0 else r / dsaAlpha, decide (0 < low) && r - low ≠ dsaQ - 1)
  else (if r - low + dsaAlpha = dsaQ - 1 then 0 else r / dsaAlpha + 1, false)

/-- The high part that a hint corrects, modulo 16. -/
def dsaUseHint (hint : Bool) (r : Nat) : Nat :=
  let (h, up) := dsaHigh r
  if !hint then h else if up then (h + 1) % 16 else (h + 15) % 16

/-! ### Verification -/

/-- SHAKE256, `n` bytes of at most 136. -/
def dsaH (n : Nat) (bs : List Byte) : List Byte := (shakeBlocks 136 1 bs).take n

/-- Row `r` of A z - c t1 2^13, with everything transformed. -/
def dsaRow (rho : List Byte) (r : Nat) (z : List DsaPoly) (c t1 : DsaPoly) : DsaPoly :=
  let az := z.zipIdx.foldl (fun v e => DsaPoly.zip (· + ·) v (DsaPoly.zip (· * ·) (dsaExpand rho r e.2) e.1)) (List.replicate 256 0)
  dsaNttInv (DsaPoly.zip (fun x y => x + (dsaQ - y)) az (DsaPoly.zip (· * ·) c (dsaNtt (t1.map (fun x => x * 8192 % dsaQ)))))

/-- Does a signature of 4,627 bytes verify over a message under a key of 2,592 bytes? -/
def mldsaVerify (key msg sig : List Byte) : Bool :=
  let rho := key.take 32
  let seed := sig.take 64
  let z := (List.range 7).map (fun i => dsaUnpack 20 256 ((sig.drop (64 + 640 * i)).take 640))
  match dsaHints ((sig.drop 4544).take 83) 8 0 0 with
  | none => false
  | some hints =>
    let mu := dsaH 64 (dsaH 64 key ++ [0, 0] ++ msg)
    let c := dsaNtt (dsaChallenge seed)
    let zt := z.map (fun p => dsaNtt (p.map (fun v => (524288 + dsaQ - v) % dsaQ)))
    let w1 := hints.zipIdx.map (fun e =>
      let t1 := dsaUnpack 10 256 ((key.drop (32 + 320 * e.2)).take 320)
      dsaPack4 ((dsaRow rho e.2 zt c t1).zipIdx.map (fun w => dsaUseHint (e.1.contains w.2) w.1)))
    key.length == 2592 && sig.length == 4627 && z.all (·.all (fun v => 120 < v && v < 1048456)) &&
      dsaH 64 (mu ++ w1.flatten) == seed

end Sys2Proof
end

