-- ==== Sys2Proof/Machine/Calibration.lean ====
section
/-!
DEFINITION. The stored calibration set: export, unlock and programming (R103 to R107).  The export window is 4 MiB; its
image is a set's 64-byte header (log entry 13) and its body.
-/
namespace Sys2Proof.Machine

/-- The 64-byte header (R103; its offsets are the model's choice, log entry 13). -/
def CalSet.header (c : CalSet) : List Byte :=
  padTo 64 (leBytes 4 c.magic.toNat ++ leBytes 4 c.version.toNat ++ leBytes 8 c.serial.toNat ++ leBytes 4 c.origin.toNat ++
    leBytes 4 c.writes.toNat ++ leBytes 4 c.len.toNat ++ padTo 32 c.digest)

/-- The image of a set. -/
def CalSet.image (c : CalSet) : List Byte := c.header ++ c.body

/-- The set an image holds. -/
def calSetOf (b : List Byte) : CalSet :=
  let len := leAt b 24 4
  ⟨BitVec.ofNat 32 (leAt b 0 4), BitVec.ofNat 32 (leAt b 4 4), BitVec.ofNat 64 (leAt b 8 8), BitVec.ofNat 32 (leAt b 16 4),
    BitVec.ofNat 32 (leAt b 20 4), BitVec.ofNat 32 len, (b.drop 28).take 32, (b.drop 64).take len⟩

/-- Largest body that the 4 MiB window holds. -/
def calMaxBody : Nat := 0x400000 - 64

/-- The first check a set fails, as PROG_ERR counts it: 1 MAGIC, 2 serial, 3 length, 4 digest, 0 none (R104, R106). -/
def calCheck (serial : DWord) (c : CalSet) : Nat :=
  if c.magic ≠ 0xA31C0CA1 then 1
  else if c.serial ≠ serial then 2
  else if calMaxBody < c.len.toNat || c.body.length ≠ c.len.toNat then 3
  else if sha3_256 c.body ≠ c.digest then 4
  else 0

/-- CAL_STATUS.BUSY follows the export and the programming. -/
def calBusy (s : State) : State := setRb Reg.calStatus 29 (s.cal.exporting || s.cal.programming) s

/-- EXPORT (R105): ignored while the block is BUSY. -/
def calExport (s : State) : State :=
  if s.cal.exporting || s.cal.programming then s else calBusy { s with cal := { s.cal with exporting := true } }

/-- CAL_EXPORT. -/
def execCalExport (s : State) : Host.Outcome State Fault Refusal := .next (calExport s)

/-- CAL_EXPORT_DONE: the window reads the stored set. -/
def execCalExportDone (s : State) : Host.Outcome State Fault Refusal :=
  .next (if s.cal.exporting then
    setRb Reg.calStatus 28 true (calBusy { s with cal := { s.cal with exporting := false, window := s.cal.stored.image } })
  else s)

/-- A write of the first unlock word: it counts once an export has completed since the warm reset (R105). -/
def calUnlock1 (s : State) : State :=
  { s with cal := { s.cal with unlockFirst := if rb s Reg.calStatus 28 then some s.time.l else none } }

/-- CAL_UNLOCK_FIRST. -/
def execCalUnlockFirst (s : State) : Host.Outcome State Fault Refusal := .next (calUnlock1 s)

/-- A write of the second unlock word: in force within 1 ms of the first (R105). -/
def calUnlock2 (s : State) : State :=
  let ok := s.cal.unlockFirst.any (fun t => s.time.l ≤ t + Config.ticksPerMs)
  let s := { s with cal := { s.cal with unlockFirst := none } }
  if ok then setRb Reg.calStatus 30 true { s with cal := { s.cal with unlockedAt := some s.time.l } } else s

/-- CAL_UNLOCK_SECOND. -/
def execCalUnlockSecond (s : State) : Host.Outcome State Fault Refusal := .next (calUnlock2 s)

/-- A write of CAL_UNLOCK: any other word breaks the sequence. -/
def calUnlockWrite (v : Word) (s : State) : State :=
  if v == 0x0000CA1B then calUnlock1 s
  else if v == 0x000035E4 then calUnlock2 s
  else { s with cal := { s.cal with unlockFirst := none } }

/-- The unlock ends. -/
def calLock (s : State) : State := setRb Reg.calStatus 30 false { s with cal := { s.cal with unlockedAt := none } }

/-- CAL_UNLOCK_LAPSE: 1 s after the unlock (R105). -/
def execCalUnlockLapse (s : State) : Host.Outcome State Fault Refusal := .next (calLock s)

/-- The entry every PROGRAM writes (R107). -/
def calLog (err : Nat) (s : State) : State := logSd 0x010B clsInfo 0 err 0 s

/-- PROGRAM: the staged image is checked before anything is erased (R106); ignored while BUSY. -/
def calProgram (s : State) : State :=
  if s.cal.exporting || s.cal.programming then s
  else if s.cal.unlockedAt.isNone then calLog 5 (setRf Reg.calStatus 26 24 5 s)
  else
    let err := calCheck s.fuses.serial (calSetOf s.cal.window)
    let s := setRf Reg.calStatus 26 24 err (calLock s)
    if err ≠ 0 then calLog err s
    else calBusy { s with cal := { s.cal with programming := true } }

/-- CAL_PROGRAM. -/
def execCalProgram (s : State) : Host.Outcome State Fault Refusal := .next (calProgram s)

/-- CAL_PROGRAM_DONE: the NOR holds the new set; after a NOR fault it holds a partial one, which no check passes (R106). -/
def execCalProgramDone (norFault : Bool) (s : State) : Host.Outcome State Fault Refusal :=
  .next (if s.cal.programming then
    let c := calSetOf s.cal.window
    let c := if norFault then { c with magic := 0 } else c
    let s := calBusy { s with cal := { s.cal with programming := false, stored := c } }
    let s := setRb Reg.calStatus 0 (c.origin == 1) s
    if norFault then calLog 6 (setRf Reg.calStatus 26 24 6 s) else calLog 0 (setRb Reg.calStatus 27 true s)
  else s)

/-- A write into the export window: only while UNLOCKED, and into the window's 4 MiB. -/
def calWindowWrite (off : Nat) (bytes : List Byte) (s : State) : State :=
  if rb s Reg.calStatus 30 && off + bytes.length ≤ 0x400000 then
    let w := s.cal.window ++ zeroBytes (off + bytes.length - s.cal.window.length)
    { s with cal := { s.cal with window := putBytes w off bytes } }
  else s

/-- The boot ROM's check of the stored set: CAL_BAD, ORIGIN, and the working set it loads (R103, R104). -/
def calBoot (s : State) : State :=
  let bad := calCheck s.fuses.serial s.cal.stored ≠ 0
  let s := { s with cal := { s.cal with
    working := s.cal.stored, refit := [], window := [], unlockFirst := none, unlockedAt := none,
    exporting := false, programming := false } }
  setRb Reg.calStatus 0 (s.cal.stored.origin == 1) (setRb Reg.calStatus 31 bad s)

end Sys2Proof.Machine
end

