-- ==== Sys2Proof/Machine/HostPort.lean ====
section
/-!
DEFINITION. The host interface: the S0 sideband, PERST_N, the PCIe link and function, MSI-X, Ingot windows and DMA engines
(R412 to R417, R428 to R437, R443, R514, R517).
-/
namespace Sys2Proof.Machine

/-! ### The host interface unit's reset (R415, R435, R514) -/

/-- Is the BAR0 offset in the reset domain of the host interface unit, its live status apart? -/
def hifAddr (a : Nat) : Bool :=
  (0x10000 ≤ a && a < 0x18100) || (0x20000 ≤ a && a < 0x22000) || (0x22004 ≤ a && a < 0x22838) ||
    (inQuad a && 0x400000 ≤ a % 0x800000 && a % 0x800000 < 0x400800)

/-- The boot stage (R450). -/
def bootStage (s : State) : Nat := rf s Reg.bootStatus 15 0
def setStage (n : Nat) (s : State) : State := setRf Reg.bootStatus 15 0 n s
def stTrain : Nat := 0x10
def stWait : Nat := 0x20
def stFetch : Nat := 0x21
def stVerify : Nat := 0x30
def stFirmware : Nat := 0x40

/-- A reset of the host interface unit in WAIT_IMAGE or VERIFY discards the staged image (R451). -/
def discardImage (s : State) : State :=
  if bootStage s = stWait || bootStage s = stVerify then
    setStage stWait { s with boot := { s.boot with staging := [], image := [] } }
  else s

/-- The PCIe link leaves L0: unfinished BAR2 accesses get no completion, and the event is logged (R443, R514). -/
def linkDown (s : State) : State :=
  let s := { s with host := { s.host with wins := [] } }
  if rb s Reg.hifStatus 31 then logSd 0x0802 clsInfo 0 0 0 (setRb Reg.hifStatus 31 false s) else s

/-- Reset of the host interface unit (R415): its registers, slots and engines; accesses already issued still complete. -/
def hifReset (s : State) : State :=
  let s := resetRegs hifAddr (discardImage s)
  linkDown (showDmaArb { s with host := { s.host with
    slots := [], dma := [], wins := [], devReady := false, d3hot := false, bars := HostSt.init.bars } })

/-- FUNCTION_LEVEL_RESET: as PERST_N, but the link stays up and the endpoint is ready (R415). -/
def functionLevelReset (s : State) : State :=
  let s := resetRegs hifAddr (discardImage s)
  showDmaArb { s with host := { s.host with slots := [], dma := [], wins := [], d3hot := false, bars := HostSt.init.bars } }

/-- FUNCTION_LEVEL_RESET. -/
def execFunctionLevelReset (s : State) : Host.Outcome State Fault Refusal :=
  .next (if perstHigh s then functionLevelReset s else s)

/-- ENDPOINT_CONFIG_READY (R415). -/
def execEndpointConfigReady (s : State) : Host.Outcome State Fault Refusal :=
  .next (if perstHigh s then { s with host := { s.host with devReady := true } } else s)

/-! ### The sideband (R413, R414, R416) -/

/-- WAKE while the device needs the host and has no link (R416). -/
def setWake (on : Bool) (s : State) : State := setRb Reg.hifStatus 27 on s

/-- PERST_N in force and SB_LOST follow the sideband; every change of either is logged, and PERST_N at 0 resets the host
interface unit (R414, R415, R443). -/
def sidebandForce (lost : Bool) (s : State) : State :=
  let wasLost := rb s Reg.hifStatus 30
  let was := perstHigh s
  let now := s.host.sbFlags.getD 0 false && !lost
  let s := setRb Reg.hifStatus 29 now (setRb Reg.hifStatus 30 lost s)
  let s := if was && !now then hifReset s else s
  if was != now || wasLost != lost then logSd 0x0801 clsInfo 0 (b2n lost) (b2n now) s else s

/-- A candidate value after one more frame that shows `v`. -/
def candNext (c : Bool × Nat) (v : Bool) : Bool × Nat := if c.1 = v then (v, min 8 (c.2 + 1)) else (v, 1)

/-- SIDEBAND_FRAME_RX: the flags of a good frame; a change acts after 8 frames show it (R414, R416). -/
def sidebandGood (b0 : Nat) (s : State) : State :=
  let h := s.host
  let cands := (List.range 3).map (fun i => candNext (h.sbCand.getD i (false, 0)) (b0 / 2 ^ i % 2 == 1))
  let flags := (List.range 3).map (fun i =>
    let c := cands.getD i (false, 0)
    if c.2 = 8 then c.1 else h.sbFlags.getD i false)
  let good := min 64 (h.sbGood + 1)
  let s := { s with host := { h with sbCand := cands, sbFlags := flags, sbBad := 0, sbGood := good } }
  let s := setRb Reg.hifStatus 28 (flags.getD 1 false) s
  let s := if flags.getD 2 false then setWake false s else s
  sidebandForce (rb s Reg.hifStatus 30 && good < 64) s

/-- A frame that is missing or fails its CRC (R414). -/
def sidebandBad (s : State) : State :=
  let h := s.host
  let bad := min 8 (h.sbBad + 1)
  let s := { s with host := { h with sbCand := h.sbCand.map (fun c => (c.1, 0)), sbBad := bad, sbGood := 0 } }
  sidebandForce (rb s Reg.hifStatus 30 || bad == 8) (count1 Ctr.sbBadFrame s)

/-- SIDEBAND_FRAME_RX: a frame whose CRC fails counts as bad. -/
def execSidebandFrameRx (frame : List Byte) (s : State) : Host.Outcome State Fault Refusal :=
  .next (if frame.length = 4 && crc8 (frame.take 3) == byteAt frame 3 then sidebandGood (byteAt frame 0) s else sidebandBad s)

/-- SIDEBAND_FRAME_MISSED. -/
def execSidebandFrameMissed (s : State) : Host.Outcome State Fault Refusal := .next (sidebandBad s)

/-- The frame the device sends (R413). -/
def sidebandFrame (s : State) : List Byte :=
  let b0 := b2n (rb s Reg.hifStatus 27) + 2 * b2n s.host.devReady + 4 * b2n (rb s Reg.pwrStatus 31) +
    8 * b2n (rb s Reg.faultStatus 31)
  let bs := leBytes 1 b0 ++ leBytes 2 (rf s Reg.bootStatus 15 0)
  bs ++ leBytes 1 (crc8 bs)

/-- SIDEBAND_FRAME_TX. -/
def execSidebandFrameTx (s : State) : Host.Outcome State Fault Refusal := .next (emit (.sideband (sidebandFrame s)) s)

/-! ### The PCIe link and function (R412, R416, R417, R443, R514) -/

/-- Are all eight lanes of S0 verified (R412)? -/
def s0Lanes (s : State) : Bool := rf s Reg.hifStatus 7 0 == 0xFF

/-- PCIE_LINK_UP: the link trains only with all eight lanes verified (R412); WAKE is answered (R416).  S0 stays down while the
device waits for ROOT_LOCK (R41). -/
def pcieLinkUp (s : State) : State :=
  if !perstHigh s || !s.host.devReady || s.power.waitLock || !s0Lanes s then s
  else
    let s := setWake false s
    if rb s Reg.hifStatus 31 then s else logSd 0x0802 clsInfo 0 1 0 (setRb Reg.hifStatus 31 true s)

/-- PCIE_LINK_UP. -/
def execPcieLinkUp (s : State) : Host.Outcome State Fault Refusal := .next (pcieLinkUp s)

/-- PCIE_LINK_DOWN. -/
def execPcieLinkDown (s : State) : Host.Outcome State Fault Refusal := .next (linkDown s)

/-- S0_RECOVERY_TIMEOUT: a lane is still not verified, and the link goes down (R412). -/
def s0RecoveryTimeout (s : State) : State := if s0Lanes s then s else linkDown s

/-- S0_RECOVERY_TIMEOUT. -/
def execS0RecoveryTimeout (s : State) : Host.Outcome State Fault Refusal := .next (s0RecoveryTimeout s)

/-- POWER_MANAGEMENT_STATE (R417). -/
def execPowerManagementState (d3hot : Bool) (s : State) : Host.Outcome State Fault Refusal :=
  .next (if perstHigh s then { s with host := { s.host with d3hot := d3hot } } else s)

/-- Does the function perform BAR accesses (R415, R417)? -/
def barsOn (s : State) : Bool := !s.host.d3hot

/-- An Unsupported Request, an uncorrectable error of Advanced Error Reporting: bit 20 of its status (R417, R443; the bit PRESUMED
from PCI Express, log entry 57). -/
def urError (s : State) : State := logSd 0x0804 clsUnit 0 (2 ^ 20) 0 s

/-- Runs a host access of BAR0 or BAR4: nothing reaches a function in reset, and in D3hot it is an Unsupported Request (R415,
R417). -/
def onBar (f : State → State) (s : State) : State :=
  if !perstHigh s then s else if !barsOn s then urError s else f s

/-- Bytes that BAR n covers (R419); BAR2 of an -S part is not implemented (R14), and keeps its size in SWITCH (R32). -/
def barSize (s : State) (n : Nat) : Nat :=
  if n = 0 then 2 ^ 28 else if n = 2 then (if partCode s = 3 then 0 else 2 ^ 36) else if n = 4 then 2 ^ 24 else 0

/-- The type bits of a 64-bit memory BAR, BAR2 prefetchable (R419; PRESUMED from PCI Express, log entry 57). -/
def barType (n : Nat) : Nat := if n = 2 then 0xC else 4

/-- The 64-bit BAR register n: its address above its size, and its type; zero where it is not implemented (R14). -/
def barReg (s : State) (n : Nat) : DWord :=
  if barSize s n = 0 then 0
  else BitVec.ofNat 64 ((s.host.bars.getD (n / 2) 0).toNat / barSize s n * barSize s n + barType n)

/-- A configuration write of BAR n: an unimplemented BAR accepts nothing, so all ones read back as no size (R14). -/
def barWrite (n : Nat) (v : DWord) (s : State) : State :=
  if !perstHigh s || barSize s n = 0 then s else { s with host := { s.host with bars := listPut 3 0 s.host.bars (n / 2) v } }

/-- A write of a vector's control word: unmasking sends the pending message (R436). -/
def msixCtrlWrite (n : Nat) (v : Word) (s : State) : State :=
  let s := setRb (Reg.msixCtrl n) 0 (flag v 0) s
  if !flag v 0 && rb s (Reg.msixPba (n / 32)) (n % 32) then sendMsix n (setRb (Reg.msixPba (n / 32)) (n % 32) false s) else s

/-- MSIX_VECTOR_UNMASK. -/
def execMsixVectorUnmask (n : Fin 2048) (s : State) : Host.Outcome State Fault Refusal :=
  .next (onBar (msixCtrlWrite n 0) s)

/-! ### Ingot windows (R428 to R431, R511) -/

/-- WIN_APPLY: word 0 applies the staged base and EN. -/
def winApply (i : Nat) (v : Word) (s : State) : State :=
  let s := forEach [Reg.win1 i, Reg.win2 i] (fun a s => setReg a (stagedReg s a) { s with staged := Tbl.erase s.staged a }) s
  writeRw (Reg.win0 i) v s

/-- WIN_APPLY. -/
def execWinApply (i : Fin 16) (v : Word) (s : State) : Host.Outcome State Fault Refusal :=
  .next (onBar (guardReg (Reg.win0 i) (winApply i v)) s)

/-- The Ingot address of BAR2 offset x, where its aperture is enabled (R428). -/
def winAddr (s : State) (x : Nat) : Option Nat :=
  let i := x / 2 ^ 32 % 16
  if regGated s (Reg.win0 i) || !rb s (Reg.win0 i) 31 then none
  else some ((rf s (Reg.win1 i) 31 12 * 4096 + rf s (Reg.win2 i) 8 0 * 2 ^ 32 + x % 2 ^ 32) % 2 ^ 41)

/-- The parts of a BAR2 access as (Ingot address, offset, length), cut at 4 KiB; none where a condition of R429 holds. -/
def winParts (s : State) (x n : Nat) : Option (List (Nat × Nat × Nat)) :=
  (pageCuts x n).mapM (fun c =>
    match winAddr s c.1 with
    | none => none
    | some a => if allPopulated s a c.2 && stackOnline s (stackOf s a) then some (a, c.1 - x, c.2) else none)

/-- Starts a BAR2 access of `n` bytes; `ops` gives the operations of the part of `k` bytes at offset `off`, each with its place in
the part (R428, R429). -/
def winBegin (kind x n : Nat) (ops : Nat → Nat → List (Nat × MemOp)) (s : State) : State :=
  if !perstHigh s then s
  else if !barsOn s || partCode s = 3 then urError (if kind = 1 then s else emit .unsupported s)
  else
    let (id, s) := newAcc s
    let w : WinAcc := ⟨kind, onesBytes n, 0, false⟩
    match winParts s x n with
    | none => winFinish id { w with bad := true } s
    | some ps =>
      let xs := (ps.map (fun p => (ops p.2.1 p.2.2).map (fun o => (p.1 + o.1, p.2.1 + o.1, o.2)))).flatten
      if xs.isEmpty then winFinish id w s
      else
        let s := { s with host := { s.host with wins := Tbl.set none s.host.wins id (some { w with left := xs.length }) } }
        forEach xs (fun x s => issueAccess 4 0 x.1 x.2.2 (.window id x.2.1) s) s

/-- WINDOW_READ. -/
def execWindowRead (x len : Nat) (s : State) : Host.Outcome State Fault Refusal :=
  .next (winBegin 0 x len (fun _ n => [(0, .read n)]) s)

/-- The runs of enabled bytes of a write, with their offsets (R517). -/
def byteRuns (off : Nat) : List (Option Byte) → List (Nat × List Byte)
  | [] => []
  | none :: xs => byteRuns (off + 1) xs
  | some b :: xs =>
    match byteRuns (off + 1) xs with
    | [] => [(off, [b])]
    | (o, r) :: rest => if o = off + 1 then (off, b :: r) :: rest else (off, [b]) :: (o, r) :: rest

/-- WINDOW_WRITE: only enabled bytes change (R517). -/
def execWindowWrite (x : Nat) (bytes : List (Option Byte)) (s : State) : Host.Outcome State Fault Refusal :=
  .next (winBegin 1 x bytes.length (fun off n =>
    (byteRuns 0 ((bytes.drop off).take n)).map (fun r => (r.1, .write r.2))) s)

/-- The opcode, OPA and OPB of an AtomicOp; `a` is its add or swap operand, `b` its compare operand (R431). -/
def atomicOpcode : BusAtomic → Nat
  | .fetchAdd => 0x10
  | .swap => 0x13
  | .cas => 0x12

/-- WINDOW_ATOMIC: one that is not aligned to its size is no request PCIe allows (R517). -/
def execWindowAtomic (x : Nat) (op : BusAtomic) (a b : DWord) (wide : Bool) (s : State) : Host.Outcome State Fault Refusal :=
  let n := if wide then 8 else 4
  .next (if x % n ≠ 0 then s
    else winBegin 2 x n (fun _ _ =>
      [(0, .atomic (atomicOpcode op) wide (a.toNat % 2 ^ (8 * n)) (b.toNat % 2 ^ (8 * n)) false)]) s)

/-! ### DMA engines (R432 to R435) -/

/-- Entries of engine e's ring. -/
def dmaEntries (s : State) (q e : Nat) : Nat := 2 ^ max 4 (min 15 (rf s (Reg.dmaCtl q e) 3 0))

/-- A write of DMA_CTL: RING_LOG changes only while EN is 0; setting EN ends an error halt; clearing it gives up a grant that
has fetched nothing (R432, R434, R435). -/
def dmaCtlWrite (q e : Nat) (v : Word) (s : State) : State :=
  let a := Reg.dmaCtl q e
  let was := rb s a 31
  let s := if was then s else setRf a 3 0 (fld v 3 0) s
  let s := setRb a 31 (flag v 31) s
  let d := dma s (8 * q + e)
  let s := if flag v 31 || d.job.isSome || !d.granted then s else showDmaArb (setDma (8 * q + e) DmaSt.init s)
  if flag v 31 && !was then setRb (Reg.dmaStatus q e) 30 false s else s

/-- Runs `f` while the engine's page answers. -/
def dmaPage (q e : Nat) (f : State → State) (s : State) : State :=
  if perstHigh s then guardReg (Reg.dmaCtl q e) f s else s

/-- Runs a host write of the engine's page. -/
def dmaWrite (q e : Nat) (f : State → State) (s : State) : State := onBar (guardReg (Reg.dmaCtl q e) f) s

/-- DMA_ENABLE. -/
def execDmaEnable (q : Quad) (e : Fin 8) (s : State) : Host.Outcome State Fault Refusal :=
  .next (dmaWrite q e (fun s => dmaCtlWrite q e (setFld (reg s (Reg.dmaCtl q e)) 31 31 1) s) s)

/-- DMA_DISABLE: the descriptor in progress still completes (R435). -/
def execDmaDisable (q : Quad) (e : Fin 8) (s : State) : Host.Outcome State Fault Refusal :=
  .next (dmaWrite q e (fun s => dmaCtlWrite q e (setFld (reg s (Reg.dmaCtl q e)) 31 31 0) s) s)

/-- A write of DMA_TAIL: one more than the ring's entries ahead of HEAD is ignored. -/
def dmaTailWrite (q e : Nat) (v : Word) (s : State) : State :=
  let m := 2 * dmaEntries s q e
  let t := fld v 16 0 % m
  if (t + m - rf s (Reg.dmaHead q e) 16 0 % m) % m ≤ dmaEntries s q e then setRf (Reg.dmaTail q e) 16 0 t s else s

/-- DMA_TAIL_WRITE. -/
def execDmaTailWrite (q : Quad) (e : Fin 8) (v : Word) (s : State) : Host.Outcome State Fault Refusal :=
  .next (dmaWrite q e (dmaTailWrite q e v) s)

/-- A write of a word of DMA_RING, while EN is 0. -/
def dmaRingWrite (q e a : Nat) (v : Word) (s : State) : State := if rb s (Reg.dmaCtl q e) 31 then s else writeRw a v s

/-- Fields of a descriptor. -/
def dDir (d : List Byte) : Nat := bitsOf (byteAt d 3) 5 4
def dIrq (d : List Byte) : Bool := bitsOf (byteAt d 3) 7 7 == 1
def dLen (d : List Byte) : Nat := leAt d 0 4 % 2 ^ 19 * 64
def dHost (d : List Byte) : Nat := leAt d 8 8
def dDev (d : List Byte) : Nat := leAt d 16 8

/-- The status a descriptor gets as it is fetched (R434). -/
def dmaCheck (s : State) (q : Nat) (d : List Byte) : Nat :=
  let n := dLen d
  let a := dDev d
  if dDir d = 3 || n = 0 || 2 ^ 24 < n || dHost d % 64 ≠ 0 || a % 64 ≠ 0 || bitsOf (leAt d 0 4) 30 30 ≠ 0
      || bitsOf (leAt d 0 4) 27 19 ≠ 0 || leAt d 4 4 ≠ 0 || 2 ^ 41 ≤ a || byteAt d 25 / 2 ≠ 0 || leAt d 26 2 ≠ 0 then 1
  else if dDir d = 2 then
    if clusterGone s q then 7 else if 2 ^ 22 < a + n then 2 else 0
  else if !fused s || partCode s = 3 then 7
  else if homeQuad a ≠ q || !allPopulated s a n then 2
  else if !(stacksOf s a n).all (stackOnline s) then 3
  else 0

/-- Issues the Ingot accesses of a descriptor. -/
def dmaIssue (q e id a n : Nat) (op : Nat → Nat → MemOp) (s : State) : State :=
  forEach (pageCuts a n) (fun c s => issueAccess 4 0 c.1 (op (c.1 - a) c.2) (.dma (8 * q + e) id (c.1 - a)) s) s

/-- BUSY follows the descriptor in progress, DMA_ARB's DRAINED the grants. -/
def showDma (q e : Nat) (s : State) : State :=
  showDmaArb (setRb (Reg.dmaStatus q e) 31 (dma s (8 * q + e)).job.isSome s)

/-- DMA_DESC_FETCH: an engine that DMA_ARB has granted takes its next descriptor, which is checked; an I2H transfer reads
Ingot (R208, R432). -/
def dmaFetch (q e : Nat) (desc : List Byte) (s : State) : State :=
  let a := Reg.dmaStatus q e
  if !rb s (Reg.dmaCtl q e) 31 || rb s a 30 || (dma s (8 * q + e)).job.isSome || !(dma s (8 * q + e)).granted || s.host.d3hot
      || rf s (Reg.dmaHead q e) 16 0 = rf s (Reg.dmaTail q e) 16 0 then s
  else
    let d := padTo 32 desc
    let st := dmaCheck s q d
    let (id, s) := newAcc s
    let i2h := st = 0 && dDir d = 1
    let s := setDma (8 * q + e) ⟨some ⟨id, d, st, i2h, if i2h then zeroBytes (dLen d) else []⟩, true⟩ s
    let s := showDma q e s
    if i2h then dmaIssue q e id (dDev d) (dLen d) (fun _ n => .read n) s else s

/-- DMA_DESC_FETCH. -/
def execDmaDescFetch (q : Quad) (e : Fin 8) (desc : List Byte) (s : State) : Host.Outcome State Fault Refusal :=
  .next (dmaPage q e (dmaFetch q e desc) s)

/-- Does the code-store byte range overlap a VALID code range (R325)? -/
def csBusy (s : State) (q a n : Nat) : Bool :=
  (List.range 16).any (fun m => rb s (Reg.csRange0 q m) 31 && 0 < rf s (Reg.csRange2 q m) 18 0 &&
    meets a n (16 * rf s (Reg.csRange1 q m) 17 0) (16 * rf s (Reg.csRange2 q m) 18 0))

/-- Writes code-store bytes of quadrant q. -/
def csWrite (q a : Nat) (bs : List Byte) (s : State) : State :=
  let l := lx s q
  setLx q { l with code := bs.zipIdx.foldl (fun t b => Tbl.set 0 t (a + b.2) b.1) l.code } s

/-- Completes the descriptor in progress (R433, R434): data, status, HEAD and interrupt in that order. -/
def dmaFinish (q e : Nat) (j : DmaJob) (s : State) : State :=
  let d := j.desc
  let m := 2 * dmaEntries s q e
  let h := rf s (Reg.dmaHead q e) 16 0
  let slot := rf s (Reg.dmaRingLo q e) 31 12 * 4096 + (reg s (Reg.dmaRingHi q e)).toNat * 2 ^ 32 + 32 * (h % dmaEntries s q e)
  let s := if j.status = 0 && dDir d = 1 then emit (.hostWrite (dHost d) j.data) s else s
  let s := emit (.hostWrite (slot + 24) (leBytes 1 j.status ++ leBytes 1 (byteAt d 25 / 2 * 2 + 1))) s
  let s := setRf (Reg.dmaHead q e) 16 0 ((h + 1) % m) s
  let s := setRf (Reg.dmaStatus q e) 7 0 j.status s
  let s := showDma q e (setDma (8 * q + e) DmaSt.init s)
  let s := count1 (Ctr.dmaDescDone q e) s
  let s := if j.status = 0 then count (Ctr.dmaBytes q e) (dLen d) s
    else logEvent q 0x0803 clsUnit 8 e (dataG j.status ((h + 1) % m)) (setRb (Reg.dmaStatus q e) 30 true s)
  if dIrq d then raise (64 * q + 38 + e) s else s

/-- Do Ingot accesses of the engine's descriptor remain? -/
def dmaLeft (s : State) (q e id : Nat) : Bool :=
  (quadAccs s q).any (fun a => match a.owner with
    | .dma i d _ => i == 8 * q + e && d == id
    | _ => false)

/-- DMA_DESC_COMPLETE: the host data of an H2I transfer goes to Ingot first, that of an H2C one into the code store; the
descriptor completes once its data has arrived. -/
def dmaComplete (q e : Nat) (hostData : List Byte) (hostErr : Bool) (s : State) : State :=
  match (dma s (8 * q + e)).job with
  | none => s
  | some j =>
    let n := dLen j.desc
    let a := dDev j.desc
    let bs := padTo n hostData
    if dmaLeft s q e j.id then s
    else if j.status ≠ 0 || j.moved then dmaFinish q e j s
    else if hostErr then dmaFinish q e { j with status := 6 } s
    else if dDir j.desc = 2 then
      if csBusy s q a n then dmaFinish q e { j with status := 5 } (count1 (Ctr.csWriteRej q) s)
      else dmaFinish q e j (csWrite q a bs s)
    else dmaIssue q e j.id a n (fun off k => .write ((bs.drop off).take k))
      (setDma (8 * q + e) ⟨some { j with moved := true }, true⟩ s)

/-- DMA_DESC_COMPLETE. -/
def execDmaDescComplete (q : Quad) (e : Fin 8) (hostData : List Byte) (hostErr : Bool) (s : State) :
    Host.Outcome State Fault Refusal :=
  .next (dmaPage q e (dmaComplete q e hostData hostErr) s)

end Sys2Proof.Machine
end

