-- ==== Sys2Proof/Machine/Lantern.lean ====
section
/-!
DEFINITION. The scalar Scehus instructions: classes ALU, SYN, LPX and SYS (R312, R319 to R321), and what stops or starts a
wick, an engine or a code range from outside (R293 to R295, R303, R310, R318, R322 to R327).
-/
namespace Sys2Proof.Machine

/-! ### ALU (R312) -/

/-- b of R312: IMM64 with IMMB, else s[B]. -/
def aluB (x : WickSt) (f : Fields) : Nat := if f.mod.getLsbD 11 then f.imm64.toNat else x.s f.b

/-- An operation s[D] := g a b. -/
def aluOp (w : WickId) (op : Nat) (f : Fields) (g : Nat → Nat → Nat) (s : State) : State :=
  issue w 0 op f false (fun s => let x := wkGet w s; scalarOut w f (g (x.s f.a) (aluB x f)) s) s

/-- A 64-bit value as a signed integer. -/
def sx64 (a : Nat) : Int := toSigned 64 a

/-- Ones in a 64-bit value. -/
def popCount (a : Nat) : Nat := ((List.range 64).filter (fun i => a / 2 ^ i % 2 == 1)).length

/-- NOP. -/
def execNop (w : WickId) (f : Fields) (s : State) : Host.Outcome State Fault Refusal := .next (issue w 0 0x00 f false .done s)
/-- ADD. -/
def execAdd (w : WickId) (f : Fields) (s : State) : Host.Outcome State Fault Refusal := .next (aluOp w 0x01 f (· + ·) s)
/-- SUB. -/
def execSub (w : WickId) (f : Fields) (s : State) : Host.Outcome State Fault Refusal :=
  .next (aluOp w 0x02 f (fun a b => a + 2 ^ 64 - b) s)
/-- MUL. -/
def execMul (w : WickId) (f : Fields) (s : State) : Host.Outcome State Fault Refusal := .next (aluOp w 0x03 f (· * ·) s)
/-- MULHU. -/
def execMulhu (w : WickId) (f : Fields) (s : State) : Host.Outcome State Fault Refusal :=
  .next (aluOp w 0x04 f (fun a b => a * b / 2 ^ 64) s)
/-- MULHS. -/
def execMulhs (w : WickId) (f : Fields) (s : State) : Host.Outcome State Fault Refusal :=
  .next (aluOp w 0x05 f (fun a b => ofSigned 64 (sx64 a * sx64 b / 2 ^ 64)) s)
/-- AND. -/
def execAnd (w : WickId) (f : Fields) (s : State) : Host.Outcome State Fault Refusal := .next (aluOp w 0x06 f (· &&& ·) s)
/-- OR. -/
def execOr (w : WickId) (f : Fields) (s : State) : Host.Outcome State Fault Refusal := .next (aluOp w 0x07 f (· ||| ·) s)
/-- XOR. -/
def execXor (w : WickId) (f : Fields) (s : State) : Host.Outcome State Fault Refusal := .next (aluOp w 0x08 f (· ^^^ ·) s)
/-- SHL. -/
def execShl (w : WickId) (f : Fields) (s : State) : Host.Outcome State Fault Refusal :=
  .next (aluOp w 0x09 f (fun a b => a * 2 ^ (b % 64)) s)
/-- SHR. -/
def execShr (w : WickId) (f : Fields) (s : State) : Host.Outcome State Fault Refusal :=
  .next (aluOp w 0x0A f (fun a b => a / 2 ^ (b % 64)) s)
/-- SAR. -/
def execSar (w : WickId) (f : Fields) (s : State) : Host.Outcome State Fault Refusal :=
  .next (aluOp w 0x0B f (fun a b => ofSigned 64 (sx64 a / 2 ^ (b % 64))) s)
/-- MINS. -/
def execMins (w : WickId) (f : Fields) (s : State) : Host.Outcome State Fault Refusal :=
  .next (aluOp w 0x0C f (fun a b => if sx64 a < sx64 b then a else b) s)
/-- MAXS. -/
def execMaxs (w : WickId) (f : Fields) (s : State) : Host.Outcome State Fault Refusal :=
  .next (aluOp w 0x0D f (fun a b => if sx64 a < sx64 b then b else a) s)
/-- MINU. -/
def execMinu (w : WickId) (f : Fields) (s : State) : Host.Outcome State Fault Refusal := .next (aluOp w 0x0E f min s)
/-- MAXU. -/
def execMaxu (w : WickId) (f : Fields) (s : State) : Host.Outcome State Fault Refusal := .next (aluOp w 0x0F f max s)
/-- MOVI. -/
def execMovi (w : WickId) (f : Fields) (s : State) : Host.Outcome State Fault Refusal :=
  .next (issue w 0 0x10 f false (scalarOut w f f.imm64.toNat) s)
/-- CLZ. -/
def execClz (w : WickId) (f : Fields) (s : State) : Host.Outcome State Fault Refusal :=
  .next (aluOp w 0x12 f (fun a _ => 64 - bitLength a) s)
/-- POPC. -/
def execPopc (w : WickId) (f : Fields) (s : State) : Host.Outcome State Fault Refusal :=
  .next (aluOp w 0x13 f (fun a _ => popCount a) s)

/-- The condition MOD[2:0] of CMP. -/
def cmpHolds (c a b : Nat) : Bool :=
  if c = 0 then a == b else if c = 1 then a != b
  else if c = 2 then sx64 a < sx64 b else if c = 3 then sx64 a ≤ sx64 b
  else if c = 4 then a < b else a ≤ b

/-- An operation that writes predicate p[D & 7]. -/
def predOp (w : WickId) (op : Nat) (f : Fields) (g : WickSt → Nat) (s : State) : State :=
  issue w 0 op f false (fun s => let x := wkGet w s; .done (wkPut w (x.setP f.d.toNat (g x)) s)) s

/-- CMP. -/
def execCmp (w : WickId) (f : Fields) (s : State) : Host.Outcome State Fault Refusal :=
  .next (predOp w 0x20 f (fun x => if cmpHolds (f.mod.toNat % 8) (x.s f.a) (aluB x f) then 0xFFFF else 0) s)
/-- PAND. -/
def execPand (w : WickId) (f : Fields) (s : State) : Host.Outcome State Fault Refusal :=
  .next (predOp w 0x21 f (fun x => x.p f.a.toNat &&& x.p f.b.toNat) s)
/-- POR. -/
def execPor (w : WickId) (f : Fields) (s : State) : Host.Outcome State Fault Refusal :=
  .next (predOp w 0x22 f (fun x => x.p f.a.toNat ||| x.p f.b.toNat) s)
/-- PXOR. -/
def execPxor (w : WickId) (f : Fields) (s : State) : Host.Outcome State Fault Refusal :=
  .next (predOp w 0x23 f (fun x => x.p f.a.toNat ^^^ x.p f.b.toNat) s)
/-- PMOV. -/
def execPmov (w : WickId) (f : Fields) (s : State) : Host.Outcome State Fault Refusal :=
  .next (predOp w 0x24 f (fun x => x.s f.a % 65536) s)
/-- SMOVP. -/
def execSmovp (w : WickId) (f : Fields) (s : State) : Host.Outcome State Fault Refusal :=
  .next (issue w 0 0x25 f false (fun s => scalarOut w f ((wkGet w s).p f.a.toNat) s) s)

/-- PC := the index of this instruction + IMM64, in instructions; the state has PC one further on. -/
def branchTo (x : WickSt) (f : Fields) : BitVec 18 := x.pc - 1 + BitVec.ofNat 18 f.imm64.toNat

/-- BR. -/
def execBr (w : WickId) (f : Fields) (s : State) : Host.Outcome State Fault Refusal :=
  .next (issue w 0 0x30 f false (fun s => let x := wkGet w s; .done (wkPut w { x with pc := branchTo x f } s)) s)
/-- JMP. -/
def execJmp (w : WickId) (f : Fields) (s : State) : Host.Outcome State Fault Refusal :=
  .next (issue w 0 0x31 f false (fun s => let x := wkGet w s; .done (wkPut w { x with pc := BitVec.ofNat 18 (x.ea f) } s)) s)
/-- CALL. -/
def execCall (w : WickId) (f : Fields) (s : State) : Host.Outcome State Fault Refusal :=
  .next (issue w 0 0x32 f false (fun s =>
    let x := wkGet w s
    .done (wkPut w ({ x with pc := branchTo x f }.setS f.d.toNat ((x.pc - 1).toNat + 1)) s)) s)

/-! ### SYN (R319) -/

/-- Do the selected counters allow the wick to go on? -/
def countersMet (x : WickSt) (sel limit : Nat) : Bool :=
  (List.range 4).all (fun c => sel / 2 ^ c % 2 == 0 || x.oc.getD c 0 ≤ limit)

/-- A wait: it goes on at once where its condition holds, else the wick yields in WAIT_SYN. -/
def waitFor (w : WickId) (met : Bool) (wait : WaitFor) (s : State) : Eff :=
  if met then .done s else .yields (wkPut w { wkGet w s with state := wkWaitSyn, wait := wait } s)

/-- WAITCNT. -/
def execWaitcnt (w : WickId) (f : Fields) (s : State) : Host.Outcome State Fault Refusal :=
  .next (issue w 4 0x00 f false (fun s =>
    let sel := f.mod.toNat % 16
    let lim := f.imm16.toNat % 4096
    waitFor w (countersMet (wkGet w s) sel lim) (.counters sel lim) s) s)
/-- WAITT. -/
def execWaitt (w : WickId) (f : Fields) (s : State) : Host.Outcome State Fault Refusal :=
  .next (issue w 4 0x01 f false (fun s =>
    let t := (wkGet w s).s f.a
    waitFor w (t ≤ devTicks s) (.time t) s) s)

/-- Sets the event flag of a wick; one in EVWAIT takes it and goes on (R319, R324). -/
def signal (q e w : Nat) (s : State) : State :=
  let x := wick s q e w
  if x.state = wkWaitSyn && x.wait = .event then setWick q e w { x with ev := false, state := wkRun, wait := .none } s
  else setWick q e w { x with ev := true } s

/-- EVSIG. -/
def execEvsig (w : WickId) (f : Fields) (s : State) : Host.Outcome State Fault Refusal :=
  .next (issue w 4 0x02 f false (fun s =>
    let i := f.imm16.toNat
    let q := i / 2 ^ 14
    let e := i / 2 ^ 6 % 64
    if !clusterPresent s q then .fault 0x07 none none
    else if clusterDown s q || !leRun s q e then .done (count1 (Ctr.evLost w.q) s)
    else .done (signal q e (i % 32) s)) s)
/-- EVWAIT. -/
def execEvwait (w : WickId) (f : Fields) (s : State) : Host.Outcome State Fault Refusal :=
  .next (issue w 4 0x03 f false (fun s =>
    let x := wkGet w s
    waitFor w x.ev .event (if x.ev then wkPut w { x with ev := false } s else s)) s)
/-- YIELD. -/
def execYield (w : WickId) (f : Fields) (s : State) : Host.Outcome State Fault Refusal :=
  .next (issue w 4 0x04 f false .yields s)
/-- HALT. -/
def execHalt (w : WickId) (f : Fields) (s : State) : Host.Outcome State Fault Refusal :=
  .next (issue w 4 0x05 f false (fun s =>
    .yields (settle w.q w.e w.w
      (wkPut w { wkGet w s with state := wkHalting, haltInt := f.mod.getLsbD 0 } s))) s)

/-! ### LPX (R320) -/

/-- An LPX instruction: PRIV unless LPX_EN is 1. -/
def lpxOp (w : WickId) (op : Nat) (f : Fields) (eff : State → Eff) (s : State) : State :=
  issue w 5 op f false (fun s => if rb s (Reg.leCfg w.q w.e) 31 then eff s else .fault 0x09 none none) s

/-- LPW: an entry beyond the table is ignored like one of R97. -/
def execLpw (w : WickId) (f : Fields) (s : State) : Host.Outcome State Fault Refusal :=
  .next (lpxOp w 0x00 f (fun s =>
    let x := wkGet w s
    let e := x.s f.a
    let a := x.s f.b
    if lsSize < a + 32 then .fault 0x04 (some a) none
    else if 1024 ≤ e || !routeAccepts s w.q e then scalarOut w f 1 (count1 (Ctr.writeRej w.q) s)
    else
      let (bs, s) := lsLoad w.q w.e a 32 s
      scalarOut w f 0 (forRange 8 (fun j s => routeWrite w.q e j (BitVec.ofNat 32 (leAt bs (4 * j) 4)) s) s)) s)
/-- LPC. -/
def execLpc (w : WickId) (f : Fields) (s : State) : Host.Outcome State Fault Refusal :=
  .next (lpxOp w 0x01 f (fun s =>
    if !roomFor s w.q w.e false then .waitTag lacksEntry
    else
      let dev := if f.mod.getLsbD 0 then some ((wkGet w s).s f.a) else none
      let (id, s) := startOp w f (.lpc f.d.toNat) false (2 ^ f.d.toNat) none s
      .yields (lpSettle w.q (lpRequest w.q dev (some id) s))) s)
/-- LPCAN. -/
def execLpcan (w : WickId) (f : Fields) (s : State) : Host.Outcome State Fault Refusal :=
  .next (lpxOp w 0x02 f (fun s => .done (lpSettle w.q (lpCancel w.q s))) s)
/-- LPST. -/
def execLpst (w : WickId) (f : Fields) (s : State) : Host.Outcome State Fault Refusal :=
  .next (lpxOp w 0x03 f (fun s => scalarOut w f (reg s (Reg.lpStatus w.q)).toNat s) s)

/-! ### SYS (R321) -/

/-- HASH: the checks at issue; the bytes are absorbed when the operation completes. -/
def hashIssue (w : WickId) (f : Fields) (s : State) : Eff :=
  let x := wkGet w s
  let a := x.s f.a
  let n := x.s f.b
  let out := x.s f.c
  let wide := f.mod.getLsbD 0
  let start := f.mod.getLsbD 1
  let fin := f.mod.getLsbD 2
  let rate := if wide then 72 else 136
  let other := match x.hash with
    | some (v, _) => !start && v != wide
    | none => false
  if !roomFor s w.q w.e false then .waitTag lacksEntry
  else if other then .fault 0x01 none none
  else if !fin && n % rate ≠ 0 then .fault 0x03 (some a) none
  else if lsSize < a + n then .fault 0x04 (some a) none
  else if fin && lsSize < out + (if wide then 64 else 32) then .fault 0x04 (some out) none
  else .yields (startOp w f (.hash a n wide start fin out) false 0 none s).2

/-- HASH. -/
def execHash (w : WickId) (f : Fields) (s : State) : Host.Outcome State Fault Refusal :=
  .next (issue w 6 0x00 f false (hashIssue w f) s)
/-- RAND. -/
def execRand (w : WickId) (f : Fields) (s : State) : Host.Outcome State Fault Refusal :=
  .next (issue w 6 0x01 f false (fun s =>
    let x := wkGet w s
    let n := x.s f.c * 2 ^ 64 + x.s f.b
    let words := ((List.range 4).map (fun j => philox (x.s f.a) ((n + j) % 2 ^ 128))).flatten
    let v := (words.zipIdx.map (fun p => p.1 * 2 ^ (32 * p.2))).sum
    .done (wkPut w (x.setV f.d.toNat v) s)) s)
/-- TIME. -/
def execTime (w : WickId) (f : Fields) (s : State) : Host.Outcome State Fault Refusal :=
  .next (issue w 6 0x02 f false (fun s => scalarOut w f (devTicks s) s) s)
/-- PERF: counters 0 to 7 of the cluster, zero beyond (R473). -/
def execPerf (w : WickId) (f : Fields) (s : State) : Host.Outcome State Fault Refusal :=
  .next (issue w 6 0x03 f false (fun s =>
    let n := f.imm16.toNat % 64
    if !rb s (Reg.lxCfg w.q) 31 then .fault 0x09 none none
    else scalarOut w f (if n < 8 then pmcVal s w.q 44 n else 0) s) s)
/-- TRAP. -/
def execTrap (w : WickId) (f : Fields) (s : State) : Host.Outcome State Fault Refusal :=
  .next (issue w 6 0x04 f false (fun s => .fault 0x0D (some ((wkGet w s).s f.a)) (some f.imm16.toNat)) s)
/-- RDWS. -/
def execRdws (w : WickId) (f : Fields) (s : State) : Host.Outcome State Fault Refusal :=
  .next (issue w 6 0x05 f false (fun s => scalarOut w f (wkGet w s).wstat s) s)
/-- CLRWS. -/
def execClrws (w : WickId) (f : Fields) (s : State) : Host.Outcome State Fault Refusal :=
  .next (issue w 6 0x06 f false (fun s => .done (wkPut w { wkGet w s with fp := 0 } s)) s)

/-! ### Forced yields, waits in time, bad instructions (R295, R303, R310) -/

/-- YIELD_QUANTUM_EXPIRY. -/
def execYieldQuantumExpiry (w : WickId) (s : State) : Host.Outcome State Fault Refusal :=
  .next (if canIssue s w.q w.e w.w && quantumSpent s w.q w.e w.w then yieldWick w.q w.e w.w s else s)

/-- WAITT_EXPIRY. -/
def execWaittExpiry (w : WickId) (s : State) : Host.Outcome State Fault Refusal :=
  let x := wkGet w s
  .next (match x.wait with
    | .time t =>
      if x.state = wkWaitSyn && t ≤ devTicks s && !clusterDown s w.q then
        wkPut w { x with state := wkRun, wait := .none } s
      else s
    | _ => s)

/-- RESERVED_INSTRUCTION: an instruction word that R310 makes illegal. -/
def execReservedInstruction (w : WickId) (bits : BitVec 128) (s : State) : Host.Outcome State Fault Refusal :=
  let cls := (bits.extractLsb' 124 4).toNat
  let op := (bits.extractLsb' 116 8).toNat
  let f := fieldsOf bits
  .next (if legal cls op f then s else issue w cls op f false .done s)

/-- PC_RANGE: a fetch at or beyond LIMIT faults (R303). -/
def execPcRange (w : WickId) (s : State) : Host.Outcome State Fault Refusal :=
  let q := w.q.val
  let e := w.e.val
  let n := w.w.val
  .next (if canIssue s q e n && !pcInRange s q e n then
      yieldWick q e n (wickFault q e n 0x02 (wick s q e n).pc.toNat none false none s)
    else s)

/-! ### Wicks, engines and code ranges from outside (R293, R324 to R327) -/

/-- START from IDLE or FAULT (WK_CTRL, R349): earlier operations no longer count. -/
def wickStart (q e w : Nat) (v : Word) (s : State) : State :=
  let x := wick s q e w
  if (x.state ≠ wkIdle && x.state ≠ wkFault) || flag (reg s (Reg.leTask q e)) w then s
  else
    let l := lx s q
    let s := setLx q { l with ops := l.ops.map (fun o =>
      if o.engine = e && o.wick = w then { o with ctr := 4 } else o) } s
    let s := setReg (Reg.wkFault q e w) 0 (setReg (Reg.wkTrap q e w) 0 s)
    let s := setReg64 (Reg.wkFaddrLo q e w) (Reg.wkFaddrHi q e w) 0 s
    let x := { x with pc := BitVec.ofNat 18 (fld v 17 0), oc := [0, 0, 0, 0], ev := false, state := wkRun, wait := .none,
                      quantum := 0, haltInt := false, task := none }
    setWick q e w (x.setS 0 (reg64 s (Reg.wkArgLo q e w) (Reg.wkArgHi q e w))) s

/-- KILL, ignored in IDLE (R324). -/
def wickKill (q e w : Nat) (s : State) : State :=
  let x := wick s q e w
  if x.state = wkIdle then s else settle q e w (setWick q e w { x with state := wkKilling, wait := .none } s)

/-- A write of WK_CTRL: KILL of a wick that is not IDLE goes before START. -/
def wkCtrlWrite (q e w : Nat) (v : Word) (s : State) : State :=
  if clusterDown s q then s
  else if flag v 30 && (wick s q e w).state ≠ wkIdle then wickKill q e w s
  else if flag v 31 then wickStart q e w v s else s

/-- WICK_START: a write of WK_CTRL with START. -/
def execWickStart (w : WickId) (v : Word) (s : State) : Host.Outcome State Fault Refusal :=
  .next (wkCtrlWrite w.q w.e w.w (setFld (setFld v 31 31 1) 30 30 0) s)

/-- WICK_KILL. -/
def execWickKill (w : WickId) (s : State) : Host.Outcome State Fault Refusal :=
  .next (wkCtrlWrite w.q w.e w.w 0x40000000 s)

/-- A write of LE_CTRL (R326): RUN is set only over a VALID, measured range; clearing it ends the engine's messages
(R324). -/
def leCtrlWrite (q e : Nat) (v : Word) (s : State) : State :=
  if clusterDown s q then s
  else if flag v 0 then
    let m := reg s (Reg.csRange0 q (leRange s q e))
    if flag m 31 && !flag m 30 then showEngine q e (setRb (Reg.leCtrl q e) 0 true s) else count1 (Ctr.runRej q) s
  else
    let s := setRb (Reg.leCtrl q e) 0 false s
    let l := lx s q
    showMsgs q (showEngine q e (setLx q { l with msgs := l.msgs.filter (·.1 != e) } s))

/-- ENGINE_RUN_SET. -/
def execEngineRunSet (q : Quad) (e : EngineIx) (s : State) : Host.Outcome State Fault Refusal := .next (leCtrlWrite q e 1 s)

/-- ENGINE_RUN_CLEAR. -/
def execEngineRunClear (q : Quad) (e : EngineIx) (s : State) : Host.Outcome State Fault Refusal := .next (leCtrlWrite q e 0 s)

/-- A write of word 0 of CS_RANGE (R325). -/
def csRangeWrite (q m : Nat) (v : Word) (s : State) : State :=
  let a := Reg.csRange0 q m
  let limit := rf s (Reg.csRange2 q m) 18 0
  if codeDown s q then s
  else if flag v 31 then
    if rb s a 31 || limit = 0 || 262144 < rf s (Reg.csRange1 q m) 17 0 + limit then s
    else setRb a 30 true (setRb a 31 true s)
  else if rb s a 31 then
    if (List.range 64).any (fun e => leRange s q e == m) then count1 (Ctr.csBusyRej q) s
    else setRb a 30 false (setRb a 31 false s)
  else s

/-- CODE_RANGE_VALIDATE: a write with VALID set. -/
def execCodeRangeValidate (q : Quad) (m : Fin 16) (v : Word) (s : State) : Host.Outcome State Fault Refusal :=
  .next (csRangeWrite q m (setFld v 31 31 1) s)

/-- CODE_RANGE_INVALIDATE: a write with VALID clear. -/
def execCodeRangeInvalidate (q : Quad) (m : Fin 16) (v : Word) (s : State) : Host.Outcome State Fault Refusal :=
  .next (csRangeWrite q m (setFld v 31 31 0) s)

/-- The instruction bytes of a code range, in code-store order. -/
def rangeBytes (s : State) (q m : Nat) : List Byte :=
  let base := rf s (Reg.csRange1 q m) 17 0
  (List.range (16 * rf s (Reg.csRange2 q m) 18 0)).map (fun i => Tbl.get 0 (lx s q).code (16 * base + i))

/-- CODE_MEASURE_DONE: DIGEST is written (R325, R327). -/
def codeMeasureDone (q m : Nat) (s : State) : State :=
  let a := Reg.csRange0 q m
  if codeDown s q || !rb s a 30 then s
  else
    let d := sha3_256 (rangeBytes s q m)
    let s := forRange 8 (fun j s => setReg (Reg.csDigest q m j) (BitVec.ofNat 32 (leAt d (4 * j) 4)) s) s
    logEvent q 0x0503 clsInfo 0 0 (dataG m (leNat (d.take 8))) (setRb a 30 false s)

/-- CODE_MEASURE_DONE. -/
def execCodeMeasureDone (q : Quad) (m : Fin 16) (s : State) : Host.Outcome State Fault Refusal := .next (codeMeasureDone q m s)

/-! ### Messages (R318) -/

/-- A RECV has its message: it leaves the queue and will be copied; the wick goes on. -/
def claimMsg (q id : Nat) (m : Nat × Nat × UPkt) (s : State) : State :=
  let l := lx s q
  let s := setLx q { l with msgs := eraseFirst (· == m) l.msgs } s
  let s := opEnds q id ⟨0, 0, padTo 64 m.2.2.head ++ m.2.2.payload⟩ s
  let s := showMsgs q (showEngine q m.1 s)
  match (lx s q).ops.find? (fun o => o.id == id) with
  | none => s
  | some o =>
    let x := wick s q o.engine o.wick
    if x.state = wkWaitSyn && x.wait = .message then setWick q o.engine o.wick { x with state := wkRun, wait := .none } s
    else s

/-- The oldest RECV of engine e that waits for a message to wick byte `b`. -/
def waitingRecv (s : State) (q e b : Nat) : Option LongOp :=
  (lx s q).ops.find? (fun o => o.engine == e && o.fin.isNone && (match o.kind with
    | .recv _ _ any => if any then b == 31 else o.wick == b
    | _ => false))

/-- LANTERN_MSG_RX: the message at the head of the cluster's queue. -/
def lanternMsgRx (q : Nat) (s : State) : State :=
  match (sw s q).lxIn with
  | [] => s
  | p :: rest =>
    let s := setSw q { sw s q with lxIn := rest } s
    let e := byteAt p.head 24 % 64
    let b := byteAt p.head 25 % 32
    if clusterDown s q || !leRun s q e || hJob p.head ≠ leJob s q e || 32 ≤ engineMsgs s q e || msgFull s q then
      count1 (Ctr.lxMsgDrop q) s
    else
      let m := (e, b, { p with payload := p.payload.take (hPlen p.head) })
      let s := setLx q { lx s q with msgs := (lx s q).msgs ++ [m] } s
      let s := showMsgs q (showEngine q e (count1 (Ctr.lxMsgRx q) s))
      match waitingRecv s q e b with
      | some o => claimMsg q o.id m s
      | none => s

/-- LANTERN_MSG_RX. -/
def execLanternMsgRx (q : Quad) (s : State) : Host.Outcome State Fault Refusal :=
  .next (if quadShut s q then s else lanternMsgRx q s)

end Sys2Proof.Machine
end

