-- ==== Sys2Proof/Machine/Units.lean ====
section
/-!
DEFINITION. In-service repair: unit states, unit resets, quadrant containment, receptacles, DEVICE faults and table repair
(R42, R462 to R468, R487 to R490, R492, R504).
-/
namespace Sys2Proof.Machine

/-! ### Units of R462 -/

/-- The units that a quadrant's reset takes down: its engines, its cluster and its tiles. -/
def quadSubs (q : Nat) : List Nat :=
  (List.range 4).map (4 + 4 * q + ·) ++ [32 + q] ++ (List.range 32).map (36 + 32 * q + ·)

/-- Is unit u fitted and powered by the personality? -/
def unitFitted (s : State) (u : Nat) : Bool := unitPresent s u

/-- Quadrant q and the units it takes down change to a state, the latter for the cause QUADRANT. -/
def setQuadState (q st cause : Nat) (s : State) : State :=
  forEach ((quadSubs q).filter (unitFitted s)) (fun u s => setUnitState u st 4 s) (setUnitState q st cause s)

/-- The lasers of an engine go off. -/
def lasersOff (p : Nat) (s : State) : State := emit (.lasersOff p) s

/-- Every laser goes off. -/
def allLasersOff (s : State) : State := forRange 16 lasersOff s

/-! ### Poisoning a quadrant's chunks (R465 step 1) -/

/-- The links an originated packet of quadrant q reaches through group g: each quadrant copies by its own entry (R157). -/
def groupReach (s : State) (q g : Nat) : List Nat :=
  if !groupValid s q g then []
  else
    let mine := groupLinks s q g
    let own := mine.filter (fun k => linkQuad k == q)
    let far := (otherQuads q mine).map (fun b =>
      if groupValid s b g then (groupLinks s b g).filter (fun k => linkQuad k == b) else [])
    own ++ far.flatten

/-- Sends a header-only packet of quadrant q toward a link before q's dies go: onto a link of its own with credit, or over a
bridge into the buffer of the quadrant that owns the link (R465); else it is lost. -/
def sendLast (q : Nat) (h : List Byte) (k : Nat) (s : State) : State :=
  let b := linkQuad k
  let p : QPkt :=
    { id := 0, rx := 0, inp := 62, dest := .link k, via := none, vc := 4, head := h, payload := [], flits := 1, tail := .good,
      cells := .originPool, cq := q, set := none, inLink := 1024, born := s.time.l, waiting := false, crossing := none }
  if b = q then
    if linkOk s k && (link s k).credInit && 1 ≤ txCred s k 4 then setTxCred k 4 (txCred s k 4 - 1) (sendOnLink k p s)
    else noteMcDrop q k s
  else if quadShut s b then noteMcDrop q k s
  else
    let (id, s) := newId s
    enqueue b { p with id := id, rx := id, inp := bridgeInput b q 0, cells := .bridge q 4, cq := b } s

/-- UNIT_LOST for an instruction of another quadrant that has posted chunk `chunk` into quadrant q. -/
def lostPost (q : Nat) (p : Post) (s : State) : State :=
  if p.q = q then s else chunkDone p ⟨p.chunk, csUnitLost, 0, 0, zeroBytes 32, zeroBytes 32⟩ s

/-- A chunk held by a quadrant that is about to be reset: poisoned, its error completion sent (R271, R465). -/
def loseSlot (q r : Nat) (x : SlotSt) (s : State) : State :=
  let s := if x.state = 9 || x.fenced then s
    else
      let h := downHead s x x.fmt 0 0 0 0 0 csUnitLost false false false []
      let links := groupReach s q x.downGrp
      let s := count1 (Ctr.poisoned q) (formRecord q r x csUnitLost (logChunk q 0x0401 clsCollective x csUnitLost 0 s))
      forEach links (sendLast q h) s
  match x.post with
  | some p => if x.told then s else lostPost q p s
  | none => s

/-- The posts of other quadrants that quadrant q holds are lost without a word to the members. -/
def losePosts (q : Nat) (s : State) : State :=
  let held := (usedSlots s q).filterMap (fun e => if e.2.told then none else e.2.post)
  forEach (held ++ (fi s q).ring ++ (fi s q).queue) (lostPost q) s

/-- Every chunk and post held by quadrant q is lost. -/
def loseChunks (q : Nat) (s : State) : State :=
  let s := forEach (usedSlots s q) (fun e s => loseSlot q e.1 e.2 s) s
  forEach ((fi s q).ring ++ (fi s q).queue) (lostPost q) s

/-! ### Bridges of a quadrant that leaves service (R466) -/

/-- A Lantern access whose packet is lost with the quadrant it was in ends as its stack's accesses do (R390, R465). -/
def wickLost (w : Option (Nat × Nat)) (h : List Byte) (s : State) : State :=
  match w with
  | some (b, id) => opEnds b id ⟨statusFault 4, mAddr h, []⟩ s
  | none => s

/-- Frees a packet of another quadrant lost on a bridge from a toward b: credit that it holds at b. -/
def dropOnBridge (a b : Nat) (p : QPkt) (s : State) : State :=
  let s := wickLost p.wick p.head s
  if p.dest.quad? ≠ b then s
  else
    let r := Reg.xbAdv a (bridgeIx a b) p.vc
    setRf r 31 16 (min 65535 (rf s r 31 16 + p.flits)) s

/-- Takes the packets of one bridge direction that go with quadrant q: all on q's own side, and elsewhere those whose cells
were in q. -/
def clearBridge (q a b : Nat) (s : State) : State :=
  let o := bridge s a b
  let gone := fun p : QPkt => a == q || p.cq == q
  let keep := fun ps : List QPkt => ps.filter (fun p => !gone p)
  let lost := (o.loc ++ o.transit1 ++ o.transit2 ++ o.wire).filter gone
  let s := setBridge a b { o with loc := keep o.loc, transit1 := keep o.transit1, transit2 := keep o.transit2, wire := keep o.wire } s
  let s := arbUses (.xb (Fin.ofNat 4 a) (Fin.ofNat 3 (bridgeIx a b))) (keep o.wire).length s
  forEach lost (fun p s =>
    let s := if p.cq ≠ q && p.cells.ofOrigin then noteDrop p.cq 0 (freeCells p s) else s
    dropOnBridge a b p s) s

/-- What quadrant q itself holds for wicks of the others is lost: requests at its service, and answers not yet sent. -/
def loseRemote (q : Nat) (s : State) : State :=
  let w := sw s q
  let s := forEach w.msIn (fun p s => wickLost p.wick p.head s) s
  let s := forEach w.originQ (fun p s => wickLost p.wick p.head s) s
  forEach w.pkts (fun p s => wickLost p.wick p.head s) s

/-- The other quadrants take q's bridges out of use: no path leads through q, and packets bound for q wait where they are,
those for q's links up to LINK_WAIT (R163, R164, R466). -/
def quitBridges (q : Nat) (s : State) : State :=
  let s := forRange 4 (fun a s => forRange 4 (fun b s => if a = b then s else clearBridge q a b s) s) (loseRemote q s)
  forRange 4 (fun a s =>
    if a = q then s
    else forEach (sw s a).pkts (fun p s =>
      if p.via = some q && p.crossing.isNone then updatePkt a p.id (fun p => { p with via := none }) s else s) s) s

/-! ### Reset of a quadrant's dies -/

/-- Is the BAR0 offset one that a reset of quadrant q resets?  The pages of its stacks, the DMA pages of the host interface
unit and the sense contacts keep their values. -/
def quadAddr (q a : Nat) : Bool :=
  inQuad a && quadOf a == q &&
    !(let o := a % 0x800000
      (0x5C0000 ≤ o && o < 0x5F0000) || (0x400000 ≤ o && o < 0x400800) ||
        (0x700000 ≤ o && o < 0x710000 && o % 0x4000 == 0x20))

/-- The arbiters of quadrant q. -/
def arbOfQuad (q i : Nat) : Bool := if i < 12 then i / 3 == q else if i < 24 then (i - 12) / 3 == q else i == 24 + q

/-- Everything on the dies of quadrant q returns to its reset state. -/
def quadErase (q : Nat) (s : State) : State :=
  let s := resetRegs (quadAddr q) s
  { s with
    mons := Tbl.keep (fun i => i / 16 != q) s.mons
    links := Tbl.keep (fun k => k / 256 != q) s.links
    fibers := Tbl.keep (fun f => f / 32 != q) s.fibers
    rings := Tbl.keep (fun r => ringQuad r != q) s.rings
    arbs := Tbl.keep (fun i => !arbOfQuad q i) s.arbs
    therm := Tbl.erase s.therm q
    lp := Tbl.erase s.lp q
    fwd := Tbl.erase s.fwd q
    sw := Tbl.erase s.sw q
    ms := Tbl.erase s.ms q
    ce := Tbl.erase s.ce q
    fi := Tbl.erase s.fi q
    lx := Tbl.erase s.lx q
    peers := Tbl.erase s.peers q
    tq := Tbl.erase s.tq q
    repairs := s.repairs.filter (fun r => r.2.2 != q)
    unit := { s.unit with stopped := s.unit.stopped.filter (· != q) } }

/-- Flits of quadrant a's packets on VC v that hold b's credit, or will: written in b, or on their way to it over the bridge
from a (R154, R159). -/
def xbHeld (s : State) (a b v : Nat) : Nat :=
  let w := sw s b
  let inB := (w.pkts.filter (fun p => p.cells == .bridge a v)).map (·.flits) ++
    (w.copyQ.filter (fun j => !j.firstDone && j.pkt.cells == .bridge a v)).map (·.pkt.flits) ++
    ((w.shared.filterMap (·.2)).filter (fun c => c.cells == .bridge a v)).map (·.flits)
  let o := bridge s a b
  let mine := fun p : QPkt => p.vc == v && p.dest.quad? == b
  let near := ((o.loc ++ o.transit1 ++ o.transit2 ++ o.wire).filter mine).map (·.flits) ++
    ((sw s a).pkts.filter (fun p => p.crossing.isSome && mine p && p.via.isNone)).map (·.flits)
  let far := (((List.range 4).filter (fun x => x != a && x != b)).map (fun x =>
    let i := bridge s x a
    (((i.loc ++ i.wire).filter (fun p => mine p && p.via == some a)) ++
      (sw s x).pkts.filter (fun p => p.crossing.isSome && mine p && p.via == some a)).map (·.flits))).flatten
  (inB ++ near ++ far).sum

/-- TX_CRED from quadrant a toward b restarts from b's XB_ADV, which comes into force in b's commitments too, less what
already holds that credit (R142, R154, R466). -/
def xbRestart (a b : Nat) (s : State) : State :=
  forRange 7 (fun i s =>
    let v := i + 1
    let adv := max 0x41 (rf s (Reg.xbAdv b (bridgeIx b a) v) 15 0)
    let old := Tbl.get 0 (sw s b).xbAdv (8 * a + v)
    let s := setSw b { sw s b with xbAdv := Tbl.set 0 (sw s b).xbAdv (8 * a + v) adv } s
    let s := if old = adv then s else setCommitted b (committed s b + adv - old) s
    setRf (Reg.xbAdv a (bridgeIx a b) v) 31 16 (adv - xbHeld s a b v) s) s

/-- A quadrant comes into service: its commitments, and bridge credit in both directions (R142, R154, R466). -/
def quadEnter (q : Nat) (s : State) : State :=
  let s := setCommitted q (baseCommit s q) s
  forRange 4 (fun b s => if b = q then s else xbRestart q b (xbRestart b q s)) s

/-- A stack is taken offline whatever state it is in (R465 step 2). -/
def stackForceOffline (n : Nat) (s : State) : State :=
  let s := stackOfflineSet n s
  if stackState s n = stDraining then enterState n stOffline s else s

/-- A unit reset re-centres the crossings of the unit (R40).  QD_MESO_GUARD does not say which crossing of a quadrant left
its centre, so the bit of the quadrant at the other end of one clears or stays by a free choice (log entry 58). -/
def recentre (q : Nat) (s : State) : State :=
  if rb s Reg.clkStatus (20 + q) then
    let (mine, s) := freeBool s
    if mine then setRb Reg.clkStatus (20 + q) false s else s
  else s

/-- The crossings of quadrant q are re-centred: no crossing of q is off its centre, and a bridge crossing of another quadrant
may have been the one that set that quadrant's bit (R40). -/
def recentreQuad (q : Nat) (s : State) : State :=
  forRange 4 (fun b s => if b = q then s else recentre b s) (setRb Reg.clkStatus (20 + q) false s)

/-- Quadrant q leaves service (R465 steps 2 to 5, R466): `st` and `cause` are the state it shows. -/
def quadFall (q st cause : Nat) (s : State) : State :=
  let s := forRange 3 (fun i s => if stackGone s (3 * q + i) then s else stackForceOffline (3 * q + i) s) s
  let s := setQuadState q st cause s
  let s := forRange 32 (fun t s => if fiberEn s (32 * q + t) then fiberStop (32 * q + t) s else s) s
  let s := forRange 4 (fun i s => lasersOff (4 * q + i) s) s
  quadErase q (recentreQuad q (quitBridges q s))

/-- Quadrant q is reset: its chunks are poisoned first (R465). -/
def quadDown (q st cause : Nat) (s : State) : State := quadFall q st cause (loseChunks q s)

/-! ### The other units going down (R464) -/

/-- Fiber tile of fiber f: every link as if EN were cleared; its page resets. -/
def tileDown (f : Nat) (s : State) : State :=
  let s := if fiberEn s f then fiberStop f s else s
  let base := Reg.ftCfg (fiberQuad f) (fiberTile f)
  let s := resetRegs (fun a => base ≤ a && a < base + 0x1000) s
  { s with links := Tbl.keep (fun k => k / 8 != f) s.links, fibers := Tbl.erase s.fibers f }

/-- Is the BAR0 offset in the page of engine p, its sense contact apart? -/
def peAddr (p a : Nat) : Bool :=
  let base := Reg.peCfg (p / 4) (p % 4)
  base ≤ a && a < base + 0x4000 && a != Reg.peMate (p / 4) (p % 4)

/-- Photonic engine p: its fibers' links to LIGHT, its lasers and rings, FAILED ones too, and the routes
through its rings (R81, R101). -/
def peDown (p : Nat) (s : State) : State :=
  let s := forRange 8 (fun i s =>
    let f := 8 * p + i
    let s := parkRoutes f s
    if fiberEn s f && isTerminated s f then
      forEach (fiberLinks s f) (fun k s => if linkIs s k .light then s else toLight k s) s
    else s) (lasersOff p s)
  let s := forEach (engineRings s p) (fun r s => setRing r RingSt.init (setRing' r .parked s)) s
  let s := resetRegs (peAddr p) s
  { s with cal := { s.cal with refit := Tbl.keep (fun off => !calOfEngine p off) s.cal.refit } }

/-- Engine p is back: its modulators and its routes acquire, and its links retrain without firmware (R57, R464). -/
def peBack (p : Nat) (s : State) : State :=
  forRange 8 (fun i s =>
    let f := 8 * p + i
    if fiberEn s f then startRoutes f (if isTerminated s f then startModulators f s else s) else s) s

/-- Is the BAR0 offset one of the cluster of quadrant q? -/
def clusterAddr (q a : Nat) : Bool :=
  inQuad a && quadOf a == q && (let o := a % 0x800000
    (0x4C0000 ≤ o && o < 0x4C3000) || (0x500000 ≤ o && o < 0x540000))

/-- A post whose record no longer exists: no record has number 256. -/
def orphan (q : Nat) (p : Post) : Post := if p.q = q then { p with ix := 256 } else p

/-- Lantern cluster of q: engines, wicks, code store, message buffer and fused-instruction records (R464).  Under FORCE, a
chunk whose CRSU tasks need the cluster stops (R353). -/
def clusterReset (q : Nat) (force : Bool) (s : State) : State :=
  let s := if force then
      forEach (usedSlots s q) (fun e s => if e.2.state = 5 && e.2.stage = 3 && e.2.tasks.any (·.phase < 3)
        then stopChunk q e.1 aeTaskFault 0 s else s) s
    else s
  let s := forRange 4 (fun b s =>
    let c := ce s b
    let s := setCe b { c with slots := c.slots.map (fun e => (e.1, e.2.map (fun x => { x with post := x.post.map (orphan q) }))) } s
    setFi b { fi s b with ring := (fi s b).ring.map (orphan q), queue := (fi s b).queue.map (orphan q) } s) s
  let s := setPeers q { peers s q with out := (peers s q).out.filter (fun o => match o.2.2 with
    | .op _ => false
    | .slot _ => true) } s
  resetRegs (clusterAddr q) (setLx q LxSt.init (setFi q { fi s q with recs := [] } s))

/-- Is the BAR0 offset in the page of stack n? -/
def stackAddrOf (n a : Nat) : Bool :=
  let base := Reg.igCtrl (n / 3) (n % 3)
  base ≤ a && a < base + 0x10000

/-- The contents of stack n are undefined until written: they read as memory at reset does (R389, log entry 7). -/
def stackForget (n : Nat) (s : State) : State := { s with mem := Tbl.keep (fun a => stackOf s a != n) s.mem }

/-- Ingot stack n restarts: its page resets, its contents are lost, and it trains. -/
def stackRestart (n : Nat) (s : State) : State :=
  enterState n stTraining (setStack n StackSt.init (stackForget n (resetRegs (stackAddrOf n) s)))

/-- Ingot stack n loses its power. -/
def stackDark (n : Nat) (s : State) : State :=
  let s := enterState n 0 (stackLeaves n s)
  setStack n StackSt.init (stackForget n (resetRegs (stackAddrOf n) s))

/-! ### LANE resets (R464) -/

/-- The link whose lane slot c of fiber f carries. -/
def laneLink (s : State) (f c : Nat) : Option Nat :=
  (fiberLinks s f).find? (fun k => linkUp s k && ((mapPos (link s k).rxMap c).isSome || (mapPos (txMap s k) c).isSome))

/-- The lane on a slot leaves the map, and the slot is calibrated. -/
def laneDown (f c : Nat) (s : State) : State :=
  match laneLink s f c with
  | some k => laneOut f c k 0 false (setSlotState f c 0 s)
  | none =>
    let h := fiber s f
    if h.calSlot = some c || h.calNext.contains c then s
    else startCal f (setFiber f { h with calNext := c :: h.calNext } s)

/-- The slot is calibrated and verified: FAILED clears, and its lane returns by a switch row, or it becomes the dark slot. -/
def laneBack (f c : Nat) (s : State) : State :=
  let s := setRb (aLane f) (18 + c) false s
  let h := fiber s f
  let s := setFiber f { h with fails := listPut 9 0 h.fails c 0, calNext := h.calNext.filter (· != c) } s
  let s := if (fiber s f).calSlot = some c then calDone f c s else s
  let k := if fiberWidth s f < 8 && c = 8 then lentLink s f else slotLink s f (min 7 c)
  let s := if (laneLink s f c).isNone && linkUp s k && (c ≠ 8 || fiberWidth s f = 8) then laneReturn k c s else s
  if darkSlot s f = 15 && (laneLink s f c).isNone then
    showHold f (setRb (aStatus f) 24 false (setCalReady f true (setDark f c s)))
  else s

/-! ### UR_CMD (R463, R464) -/

/-- Results of UR_STATUS. -/
def urBadCmd : Nat := 1
def urAbsent : Nat := 2
def urPrecond : Nat := 3
def urBusy : Nat := 4
def urInitFail : Nat := 5

/-- Does INDEX name a unit of KIND? -/
def urNames (kind ix : Nat) : Bool :=
  match kind with
  | 0 => ix / 16 < 128 && ix % 16 ≤ 8
  | 1 => 36 ≤ ix && ix < 164
  | 2 => 4 ≤ ix && ix < 20
  | 3 => 32 ≤ ix && ix < 36
  | 4 => 20 ≤ ix && ix < 32
  | 5 => ix < 4
  | _ => false

/-- Are all engines of cluster q at rest: RUN 0 and QUIESCED 1? -/
def clusterQuiet (s : State) (q : Nat) : Bool :=
  (List.range 64).all (fun e => !leRun s q e && rb s (Reg.leStatus q e) 31)

/-- The preconditions of RESET and HOLD (R464): the result to give where one fails. -/
def urPre (kind ix : Nat) (force : Bool) (s : State) : Option Nat :=
  match kind with
  | 0 =>
    let f := ix / 16
    if !quadInService s (fiberQuad f) || !isTerminated s f || !fiberEn s f then some urPrecond
    else if engineSlew s (f / 8) then some urBusy else none
  | 1 => if quadInService s ((ix - 36) / 32) then none else some urPrecond
  | 2 => if quadInService s ((ix - 4) / 4) && !rb s Reg.calStatus 31 then none else some urPrecond
  | 3 =>
    let q := ix - 32
    if quadInService s q && clusterQuiet s q && (force || (fi s q).recs.isEmpty) then none else some urPrecond
  | 4 => if stackState s (ix - 20) = stOffline then none else some urPrecond
  | _ => none

/-- What goes down at a RESET or HOLD (R464, R465). -/
def urDown (kind ix : Nat) (force : Bool) (s : State) : State :=
  match kind with
  | 0 => laneDown (ix / 16) (ix % 16) s
  | 1 => tileDown (ix - 36) (setUnitState ix 2 1 s)
  | 2 => peDown (ix - 4) (recentre ((ix - 4) / 4) (setUnitState ix 2 1 s))
  | 3 => clusterReset (ix - 32) force (setUnitState ix 2 1 s)
  | 4 => stackRestart (ix - 20) (recentre ((ix - 20) / 3) (setUnitState ix 2 1 s))
  | _ => quadDown ix 2 1 s

/-- A unit reset more (UNIT_STATE.RESETS). -/
def countReset (u : Nat) (s : State) : State :=
  setRf (Reg.unitState u) 15 8 (min 255 (rf s (Reg.unitState u) 15 8 + 1)) s

/-- A refused unit command: its RESULT, and nothing else changes. -/
def urRefuse (result : Nat) (s : State) : State := setRf Reg.urStatus 3 0 result s

/-- A RESET or HOLD (R463).  While the device waits for ROOT_LOCK it holds every die in reset (R41), and no unit command
acts. -/
def urStart (kind ix : Nat) (hold force : Bool) (s : State) : State :=
  if s.power.waitLock then s
  else if rb s Reg.urStatus 31 then count1 Ctr.urRej s
  else if !urNames kind ix || (hold && kind = 0) then urRefuse urBadCmd s
  else if kind ≠ 0 && unitState s ix = 0 then urRefuse urAbsent s
  else if kind ≠ 0 && unitState s ix = 1 then urRefuse urPrecond s
  else match urPre kind ix force s with
    | some r => urRefuse r s
    | none =>
      let s := setRb Reg.urStatus 31 true (setRf Reg.urStatus 3 0 0 s)
      let s := { s with unit := { s.unit with cmd := some ⟨kind, ix, hold⟩ } }
      urDown kind ix force (if kind = 0 then s else countReset ix s)

/-- UNIT_RESET. -/
def execUnitReset (kind : BitVec 4) (index : BitVec 16) (force : Bool) (s : State) : Host.Outcome State Fault Refusal :=
  .next (urStart kind.toNat index.toNat false force s)

/-- UNIT_HOLD. -/
def execUnitHold (kind : BitVec 4) (index : BitVec 16) (force : Bool) (s : State) : Host.Outcome State Fault Refusal :=
  .next (urStart kind.toNat index.toNat true force s)

/-- A HELD unit goes to SERVICE; a stack to ONLINE, or OFFLINE with its bit set (R389, R464). -/
def unitEnter (kind ix : Nat) (s : State) : State :=
  match kind with
  | 2 => peBack (ix - 4) (setUnitState ix 4 1 s)
  | 4 =>
    let n := ix - 20
    if rb s (Reg.igCtrl (n / 3) (n % 3)) 31 then setUnitState ix 6 1 (enterState n stOffline s)
    else setUnitState ix 4 1 (enterState n stOnline s)
  | 5 => quadEnter ix (setQuadState ix 4 1 s)
  | _ => setUnitState ix 4 1 s

/-- The quadrant a unit of R462 belongs to. -/
def unitQuad (u : Nat) : Nat :=
  if u < 4 then u else if u < 20 then (u - 4) / 4 else if u < 32 then (u - 20) / 3 else if u < 36 then u - 32 else (u - 36) / 32

/-- A RELEASE (R463); not while the device waits for ROOT_LOCK (R41). -/
def urRelease (kind ix : Nat) (s : State) : State :=
  if s.power.waitLock then s
  else if rb s Reg.urStatus 31 then count1 Ctr.urRej s
  else if !urNames kind ix || kind = 0 then urRefuse urBadCmd s
  else if unitState s ix = 0 then urRefuse urAbsent s
  else if unitState s ix ≠ 5 || (kind ≠ 5 && kind ≠ 4 && quadShut s (unitQuad ix)) then urRefuse urPrecond s
  else unitEnter kind ix (urRefuse 0 s)

/-- UNIT_RELEASE. -/
def execUnitRelease (kind : BitVec 4) (index : BitVec 16) (s : State) : Host.Outcome State Fault Refusal :=
  .next (urRelease kind.toNat index.toNat s)

/-- A unit passes through INIT to its end state. -/
def unitSettle (kind ix st cause : Nat) (s : State) : State :=
  if kind = 5 then setQuadState ix st cause (setQuadState ix 3 1 s)
  else setUnitState ix st cause (setUnitState ix 3 1 s)

/-- UNIT_RESET_DONE: the unit reaches SERVICE or HELD, or FAILED when its initialisation fails (R463, R464). -/
def unitResetDone (ok : Bool) (s : State) : State :=
  if s.power.waitLock then s
  else match s.unit.cmd with
  | none => s
  | some c =>
    let s := urEnd (some (if ok then 0 else urInitFail)) s
    if c.kind = 0 then (if ok then laneBack (c.index / 16) (c.index % 16) s else s)
    else if !ok then unitSettle c.kind c.index 7 3 s
    else if c.hold || 3 ≤ c.kind then unitSettle c.kind c.index 5 1 s
    else unitEnter c.kind c.index (setUnitState c.index 3 1 s)

/-- UNIT_RESET_DONE. -/
def execUnitResetDone (ok : Bool) (s : State) : Host.Outcome State Fault Refusal := .next (unitResetDone ok s)

/-- A write of UR_CMD: OP 0 is ignored. -/
def urCmdWrite (v : Word) (s : State) : State :=
  let kind := fld v 31 28
  let ix := fld v 15 0
  match fld v 27 26 with
  | 1 => urStart kind ix false (flag v 25) s
  | 2 => urStart kind ix true (flag v 25) s
  | 3 => urRelease kind ix s
  | _ => s

/-! ### Receptacles (R504) -/

/-- The matrix rings of the active set that put light onto the fibers of engine p. -/
def routesOnto (s : State) (p : Nat) : List Nat :=
  let q := p / 4
  ((routeSet s q (activeSet s q)).map (fun e =>
    (e.2.outs.zipIdx.filter (fun o => o.1.1 / 8 == p % 4)).map (fun o => 2304 + 8192 * q + 8 * e.1 + o.2))).flatten

/-- MATED sets: the array's lasers, modulators and routes are free. -/
def mateClose (p : Nat) (s : State) : State :=
  let a := Reg.peMate (p / 4) (p % 4)
  if rb s a 0 then s
  else
    let s := setRb a 0 true s
    if quadShut s (p / 4) then s
    else
      let s := forRange 8 (fun i s => let f := 8 * p + i
        if fiberEn s f && isTerminated s f then startModulators f s else s) s
      forEach (routesOnto s p) (fun r s => if (ring s r).excluded then s else ringStart r s) s

/-- MATED clears: lasers and modulators go dark, and the matrix rings onto the array's fibers are parked. -/
def mateOpen (p : Nat) (s : State) : State :=
  let a := Reg.peMate (p / 4) (p % 4)
  if !rb s a 0 then s
  else
    let s := lasersOff p (setRb a 0 false s)
    if quadShut s (p / 4) then s
    else
      let s := forRange 72 (fun i s =>
        let r := fiberRing (8 * p + i / 9) (i % 9) false
        if ringState s r == .failed then s else setRing' r .parked s) s
      forEach (routesOnto s p) (fun r s => if ringState s r == .failed then s else setRing' r .parked s) s

/-- MATE_CLOSE_DEBOUNCED. -/
def execMateCloseDebounced (r : Receptacle) (s : State) : Host.Outcome State Fault Refusal :=
  .next (match r with
    | .pe p => mateClose p s
    | .s0 => setRb Reg.pwrFeed 29 true s)

/-- MATE_OPEN. -/
def execMateOpen (r : Receptacle) (s : State) : Host.Outcome State Fault Refusal :=
  .next (match r with
    | .pe p => mateOpen p s
    | .s0 => setRb Reg.pwrFeed 29 false s)

/-! ### DEVICE faults (R489, R490) -/

/-- Clears RUN on every Lantern engine. -/
def stopEngines (s : State) : State :=
  forRange 4 (fun q s => forRange 64 (fun e s => if leRun s q e then leCtrlWrite q e 0 s else s) s) s

/-- A fault of class DEVICE with its Ember code; a second one changes nothing. -/
def deviceFault (code : Nat) (s : State) : State :=
  if devFault s then s
  else
    let s := setReg Reg.faultStatus (BitVec.ofNat 32 (2 ^ 31 + code)) s
    let s := setReg64 Reg.faultTimeLo Reg.faultTimeHi (devTicks s) s
    let s := if s.unit.cmd.isSome then urEnd none s else s
    let s := forRange 128 (fun f s => if fiberEn s f then fiberStop f s else s) s
    stopEngines (allLasersOff s)

/-- CLK_STATUS of a die that loses its power: a quadrant's or a stack's clock bit reads 0 (R40). -/
def clockGone (u : Nat) (s : State) : State :=
  if u < 4 then setRb Reg.clkStatus (16 + u) false s
  else if 20 ≤ u && u < 32 then setRb Reg.clkStatus (4 + (u - 20)) false s
  else s

/-- The rails of the quadrants, engines and stacks are lowered (R489): what they held is lost, and they stay in RESET. -/
def lowerRails (s : State) : State :=
  let s := forRange 12 (fun n s => if stackGone s n then s else clockGone (20 + n) (setUnitState (20 + n) 2 0 (stackDark n s))) s
  forRange 4 (fun q s => clockGone q (quadErase q (setQuadState q 2 0 s))) s

/-- THERMAL_TRIP. -/
def thermalTrip (sensor reading : Nat) (s : State) : State :=
  lowerRails (deviceFault 0x0A04 (logSd 0x0A04 clsDevice 0 sensor reading s))

/-- THERMAL_TRIP. -/
def execThermalTrip (sensor : SensorIx) (reading : BitVec 16) (s : State) : Host.Outcome State Fault Refusal :=
  .next (thermalTrip sensor reading.toNat s)

/-! ### Tables and quadrant state (R487, R488, R492) -/

/-- The number of a device table in entry TABLE_REPAIR (log entry 44). -/
def tableCode : DevTable → Nat
  | .comm => 0
  | .epoch => 1
  | .region => 2
  | .role => 3

/-- TABLE_PARITY_ERR: a quadrant's copy is repaired from the master; an error in the master is a DEVICE fault. -/
def tableParityErr (tbl : DevTable) (entry : Nat) (loc : TableCopy) (s : State) : State :=
  match loc with
  | .master => deviceFault 0x0A01 (logSd 0x0A01 clsDevice 0 (tableCode tbl) entry s)
  | .quadrant q => if quadShut s q then s else { s with repairs := s.repairs ++ [(tableCode tbl, entry, q.val)] }

/-- TABLE_PARITY_ERR. -/
def execTableParityErr (tbl : DevTable) (entry : Nat) (loc : TableCopy) (s : State) : Host.Outcome State Fault Refusal :=
  .next (tableParityErr tbl entry loc s)

/-- TABLE_REPAIR_DONE: the oldest repair is done and logged. -/
def tableRepairDone (s : State) : State :=
  match s.repairs with
  | [] => s
  | (t, e, q) :: rest => logEvent q 0x0A02 clsCorrected 0 q (dataG t e) { s with repairs := rest }

/-- TABLE_REPAIR_DONE. -/
def execTableRepairDone (s : State) : Host.Outcome State Fault Refusal := .next (tableRepairDone s)

/-- QUAD_STATE_ERR: the quadrant's tiles accept no HEAD flit, and the service die performs a QUAD HOLD, at once or when the
running unit command has ended. -/
def quadStateErr (q code : Nat) (s : State) : State :=
  if quadShut s q then s
  else
    let s := logEvent q 0x0A03 clsUnit 0 q (dataG code 0) s
    let s := { s with unit := { s.unit with stopped := q :: s.unit.stopped.filter (· != q) } }
    if rb s Reg.urStatus 31 then { s with unit := { s.unit with deferred := s.unit.deferred.filter (· != q) ++ [q] } }
    else urStart 5 q true false s

/-- QUAD_STATE_ERR. -/
def execQuadStateErr (q : Quad) (code : Byte) (s : State) : Host.Outcome State Fault Refusal :=
  .next (quadStateErr q code.toNat s)

/-- QUAD_HOLD_DEFERRED: the oldest deferred HOLD starts once UR_STATUS.BUSY is clear. -/
def quadHoldDeferred (s : State) : State :=
  match s.unit.deferred with
  | [] => s
  | q :: rest =>
    if rb s Reg.urStatus 31 then s
    else
      let s := { s with unit := { s.unit with deferred := rest } }
      if quadShut s q then s else urStart 5 q true false s

/-- QUAD_HOLD_DEFERRED. -/
def execQuadHoldDeferred (s : State) : Host.Outcome State Fault Refusal := .next (quadHoldDeferred s)

end Sys2Proof.Machine
end

