-- ==== Sys2Proof/Machine/Power.lean ====
section
/-!
DEFINITION. Power input, rails, clocks and the resets of the whole device (R38 to R42, R444 to R449, R467, R496).
-/
namespace Sys2Proof.Machine

/-! ### What a reset keeps -/

/-- The pins: feed and mating contacts, which no reset changes (R496, R504). -/
def pinAddr (a : Nat) : Bool := a == Reg.pwrFeed || (inQuad a && 0x700000 ≤ a % 0x800000 && a % 0x4000 == 0x20 && a % 0x800000 < 0x710000)

/-- Does a warm reset keep the register at `a`: reset domain POR, the Ember log, the pins, and the sideband's live bits
(R447)? -/
def warmKeeps (a : Nat) : Bool :=
  pinAddr a || a == Reg.hifStatus || (0x200000 ≤ a && a < 0x201000) || (match regDef a with
    | some d => d.dom == .por
    | none => false)

/-- The device as POR finds it: it keeps its fuses, its NOR, its pins, the model's own counters and outputs (R444, R447). -/
def coldBase (s : State) : State :=
  { State.reset with
    pending := s.pending
    regs := Tbl.keep pinAddr s.regs
    fuses := s.fuses
    boot := { State.reset.boot with norBoot := s.boot.norBoot }
    cal := { State.reset.cal with stored := s.cal.stored }
    accCtr := s.accCtr
    pktCtr := s.pktCtr
    out := s.out
    freeCtr := s.freeCtr }

/-- The device as a warm reset leaves it before units come up (R447). -/
def warmBase (s : State) : State :=
  { State.reset with
    pending := s.pending
    regs := Tbl.keep warmKeeps s.regs
    ctr := Tbl.keep warmKeeps s.ctr
    hold := Tbl.keep warmKeeps s.hold
    log := s.log
    host := { HostSt.init with sbCand := s.host.sbCand, sbFlags := s.host.sbFlags, sbBad := s.host.sbBad, sbGood := s.host.sbGood }
    fuses := s.fuses
    power := { s.power with waitLock := false }
    boot := { State.reset.boot with norBoot := s.boot.norBoot, cfgPending := s.boot.cfgPending }
    cal := { State.reset.cal with stored := s.cal.stored }
    accCtr := s.accCtr
    pktCtr := s.pktCtr
    out := s.out
    freeCtr := s.freeCtr }

/-! ### Coming up -/

/-- The state a unit comes up in: FAILED units stay so; CAP_UNITS and the personality decide the others (R31, R446, R462). -/
def unitBoot (s : State) (u : Nat) : Nat :=
  if unitState s u = 7 && rf s (Reg.unitState u) 23 16 ≠ 3 then 7
  else if 20 ≤ u && u < 32 then (if !stackPresent s (u - 20) then 0 else if fused s then 3 else 1)
  else if 32 ≤ u && u < 36 then (if !clusterPresent s (u - 32) then 0 else if fused s then 4 else 1)
  else 4

/-- SEC_FUSE shows the fuses (R454, R455). -/
def showFuses (s : State) : State :=
  let enrolled := s.fuses.ownerKeyHash.any (· != 0)
  setReg Reg.secFuse (BitVec.ofNat 32 (b2n s.fuses.ownerReq * 2 ^ 31 + b2n enrolled * 2 ^ 30 + s.fuses.rollback % 256)) s

/-- BOOT_CFG shows a value of the boot sector, BUSY apart. -/
def showBootCfg (v : Word) (s : State) : State := writeRw Reg.bootCfg v s

/-- CLK_STATUS while the root clock runs: every crossing centred, every powered die clocked (R40). -/
def showClocks (s : State) : State :=
  let s := setRf Reg.clkStatus 23 20 0 (setRf Reg.clkStatus 1 0 3 s)
  let s := forRange 4 (fun q s => setRb Reg.clkStatus (16 + q) (unitState s q != 7) s) s
  forRange 12 (fun n s => setRb Reg.clkStatus (4 + n) (!stackGone s n && unitState s (20 + n) != 7) s) s

/-- Units, crossings, calibration and fuses as they stand when the boot ROM starts (R39, R104, R445, R447, R448). -/
def bringUp (s : State) : State :=
  let s := showClocks (showFuses (setReg Reg.capUnits s.fuses.cap s))
  let s := forRange 12 (fun n s =>
    if stackGone s n || unitState s (20 + n) = 7 then s else setRf (Reg.igStatus (n / 3) (n % 3)) 31 28 stTraining s) s
  let s := forRange 4 quadEnter s
  startS0 (setWake true (calBoot (setReg Reg.bootStatus 0x10 s)))

/-- The default personality of the part (R8). -/
def defaultPersonality (s : State) : Nat := if partCode s = 3 then 2 else 1

/-- INPUT_VALID: the rail sequence runs through to the start of the boot ROM (R445). -/
def powerUp (s : State) : State :=
  let s := coldBase s
  let p := defaultPersonality s
  let s := setRf Reg.sdPersonality 17 16 p (setRf Reg.sdPersonality 1 0 p s)
  let (v, s) := freeWord s
  let (i, s) := freeWord s
  let s := setRf Reg.pwrStatus 15 0 (4350 + v.toNat % 1501) (setRb Reg.pwrStatus 31 true s)
  let s := setRf Reg.pwrFeed 15 0 (i.toNat % 6001) s
  let s := showBootCfg s.boot.norBoot s
  let s := forRange 164 (fun u s => setRf (Reg.unitState u) 31 28 (unitBoot s u) s) s
  bringUp { s with power := ⟨true, 0, false⟩ }

/-- INPUT_VALID. -/
def execInputValid (s : State) : Host.Outcome State Fault Refusal := .next (if s.power.on then s else powerUp s)

/-- NOR contents after a loss of power: a BOOT_CFG write in progress leaves the old value or the new one, a PROGRAM in
progress a partial set, which no check passes (R106, R467). -/
def norAfterLoss (s : State) : State :=
  let s := match s.boot.cfgPending with
    | none => s
    | some v =>
      let (done, s) := freeBool s
      if done then { s with boot := { s.boot with norBoot := v } } else s
  if s.cal.programming then { s with cal := { s.cal with stored := { s.cal.stored with magic := 0 } } } else s

/-- INPUT_LOST: lasers go off, and the device holds nothing but its fuses and its NOR (R444). -/
def powerDown (s : State) : State := coldBase (norAfterLoss (allLasersOff s))

/-- INPUT_LOST: a device that a rail fault keeps unpowered will try again once the input returns (R446). -/
def execInputLost (s : State) : Host.Outcome State Fault Refusal :=
  .next (if s.power.on then powerDown s else { s with power := { s.power with busFails := 0 } })

/-! ### Rail faults (R446) -/

/-- A fault of the 6 V bus or a service die rail: unpowered; the sequencer may try once more. -/
def busFault (s : State) : State :=
  let n := s.power.busFails + 1
  let s := if s.power.on then powerDown s else s
  let s := setRf Reg.bootStatus 23 16 0x10 (setRf Reg.bootStatus 15 0 0x8010 s)
  { s with power := { s.power with busFails := n } }

/-- What the unit of a failed rail takes with it. -/
def railDown (u : Nat) (s : State) : State :=
  if u < 4 then
    let s := forRange 3 (fun i s => if stackGone s (3 * u + i) then s
      else clockGone (20 + 3 * u + i) (setUnitState (20 + 3 * u + i) 7 4 (stackDark (3 * u + i) s))) s
    clockGone u (quadFall u 7 2 (losePosts u s))
  else if u < 20 then peDown (u - 4) (setUnitState u 7 2 s)
  else if u < 32 then clockGone u (stackDark (u - 20) (setUnitState u 7 2 s))
  else if u < 36 then clusterReset (u - 32) false (setUnitState u 7 2 s)
  else tileDown (u - 36) (setUnitState u 7 2 s)

/-- The unit a command works on. -/
def UnitCmd.hits (c : UnitCmd) (u : Nat) : Bool := c.kind != 0 && (c.index == u || (u < 4 && unitQuad c.index == u))

/-- A fault of the rail of unit u: FAILED with cause RAIL. -/
def unitRailFault (u : Nat) (s : State) : State :=
  if !unitFitted s u then s
  else
    let s := raise 258 (logSd 0x0902 clsUnit u u 0 (setRb Reg.pwrStatus 30 true s))
    let s := if s.unit.cmd.any (·.hits u) then urEnd (some urInitFail) s else s
    railDown u s

/-- RAIL_FAULT. -/
def execRailFault (rail : Rail) (s : State) : Host.Outcome State Fault Refusal :=
  .next (match rail with
    | .bus => busFault s
    | .serviceDie => busFault s
    | .unit u => if s.power.on then unitRailFault u s else s)

/-- RAIL_RETRY: one more try after a first failure. -/
def execRailRetry (s : State) : Host.Outcome State Fault Refusal :=
  .next (if s.power.busFails = 1 && !s.power.on then
    let s := powerUp s
    { s with power := { s.power with busFails := 1 } }
  else s)

/-- FEED_CHANGE: FEED_A_OK or FEED_B_OK changes, and nothing else does (R496). -/
def execFeedChange (feed : Feed) (ok : Bool) (s : State) : Host.Outcome State Fault Refusal :=
  let b := match feed with
    | .a => 31
    | .b => 30
  .next (if rb s Reg.pwrFeed b = ok then s else raise 258 (setRb Reg.pwrFeed b ok s))

/-! ### Warm reset (R448) -/

/-- The reset controller's steps: cause and entry, lasers off, ACTIVE from NEXT, rails by the new personality, the
synchronisation pulse, and the boot ROM at S0_TRAIN. -/
def warmReset (cause : Nat) (s : State) : State :=
  let s := raise 258 (logSd 0x0901 clsInfo 0 cause 0 (setRf Reg.rstCause 3 0 cause s))
  let s := linkDown (allLasersOff s)
  let s := warmBase s
  let s := setRf Reg.sdPersonality 17 16 (rf s Reg.sdPersonality 1 0) s
  bringUp (forRange 164 (fun u s => setUnitState u (unitBoot s u) 0 s) s)

/-- WARM_RESET. -/
def execWarmReset (cause : BitVec 4) (s : State) : Host.Outcome State Fault Refusal := .next (warmReset cause.toNat s)

/-- A warm reset sequence in progress is cancelled and counted. -/
def cancelSeq (s : State) : State := { s with boot := { s.boot with armed := none } }

/-- A write of SD_RESET by the host (cause 1) or the firmware (cause 2) (R449). -/
def sdResetWrite (cause : Nat) (v : Word) (s : State) : State :=
  if v == 0x00004E57 then
    let s := if s.boot.armed.isSome then count1 Ctr.rstBadSeq s else s
    { s with boot := { s.boot with armed := some s.time.l } }
  else if v == 0x0000B1C3 && s.boot.armed.any (fun t => s.time.l ≤ t + Config.ticksPerMs) then warmReset cause (cancelSeq s)
  else cancelSeq (count1 Ctr.rstBadSeq s)

/-- RESET_SEQ_ARM. -/
def execResetSeqArm (byFw : Bool) (s : State) : Host.Outcome State Fault Refusal :=
  .next (sdResetWrite (if byFw then 2 else 1) 0x00004E57 s)

/-- RESET_SEQ_CONFIRM. -/
def execResetSeqConfirm (byFw : Bool) (s : State) : Host.Outcome State Fault Refusal :=
  .next (sdResetWrite (if byFw then 2 else 1) 0x0000B1C3 s)

/-! ### Clocks (R41, R42) -/

/-- ROOT_UNLOCK: entry, every die but the service die in reset, lasers off, S0 down; the device waits for ROOT_LOCK.  Any
loss of a lock that ROOT_LOCK showed counts as one "after boot", also before the firmware runs (DESIGN CHOICE, log entry
58). -/
def rootUnlock (s : State) : State :=
  if !rb s Reg.clkStatus 1 then s
  else
    let s := raise 258 (logSd 0x0906 clsDevice 0 0 0 (setRb Reg.clkStatus 1 false s))
    let s := if s.unit.cmd.isSome then urEnd none s else s
    let s := linkDown (allLasersOff s)
    let s := forRange 12 (fun n s => if unitFitted s (20 + n) && unitState s (20 + n) ≠ 7
      then setUnitState (20 + n) 2 0 (stackDark n s) else s) s
    let s := forRange 4 (fun q s => if unitState s q = 7 then s else quadErase q (setQuadState q 2 0 s)) s
    { setRf Reg.clkStatus 23 4 0 s with power := { s.power with waitLock := true } }

/-- ROOT_UNLOCK. -/
def execRootUnlock (s : State) : Host.Outcome State Fault Refusal := .next (rootUnlock s)

/-- ROOT_LOCK_RETURN: a warm reset with cause ROOT_UNLOCK. -/
def execRootLockReturn (s : State) : Host.Outcome State Fault Refusal :=
  .next (if s.power.waitLock then warmReset 3 (raise 258 (setRb Reg.clkStatus 1 true s)) else s)

/-- MESO_GUARD_SET: a unit-class fault of the quadrant, whose traffic goes on. -/
def execMesoGuardSet (q : Quad) (s : State) : Host.Outcome State Fault Refusal :=
  .next (if rb s Reg.clkStatus (20 + q) then s
    else raise 258 (logSd 0x0907 clsUnit 0 q 0 (setRb Reg.clkStatus (20 + q) true s)))

end Sys2Proof.Machine
end

