-- ==== Sys2Proof/Machine/Boot.lean ====
section
/-!
DEFINITION. Boot: the staging window, the image checks, boot from a peer spine and the boot sector (R450 to R458), and the
writes of BAR4, which the staging window and the result slots share (R438, R451, R517).
-/
namespace Sys2Proof.Machine

/-! ### BAR4 (R438, R451, R517) -/

/-- Is BAR4 the staging window (R451)? -/
def stagingOpen (s : State) : Bool := bootStage s == stWait || bootStage s == stFetch || bootStage s == stVerify

/-- A write to the staging window: its enabled bytes are stored until GO_HOST, then it is counted in STAGE_WR_REJ (R451, R517). -/
def stagingWrite (off : Nat) (bs : List (Option Byte)) (s : State) : State :=
  if bootStage s = stVerify then count1 Ctr.stageWrRej s
  else if 2 ^ 24 < off + bs.length then s
  else
    let t := bs.zipIdx.foldl (fun t b => match b.1 with
      | some x => Tbl.set 0 t (off + b.2) x
      | none => t) s.boot.staging
    { s with boot := { s.boot with staging := t } }

/-- An aligned 32-bit write to a result slot: RELEASE, ARM or a KEY word; any other is ignored and counted. -/
def slotWordWrite (off : Nat) (v : Word) (s : State) : State :=
  let i := off / 0x1000 % 4096
  let o := off % 0x1000
  if o = 4 then rsRelease i v s
  else if o = 0x10 then rsArm i v s
  else if 0x20 ≤ o && o < 0x30 then rsKeyWrite i ((o - 0x20) / 4) v s
  else count1 Ctr.hifBadAcc s

/-- A write of a result slot: aligned, of 4 or 8 bytes, low word first; any other is ignored and counted (R517). -/
def rsSlotWrite (off : Nat) (bs : List Byte) (s : State) : State :=
  if bs.length = 4 && off % 4 = 0 then slotWordWrite off (BitVec.ofNat 32 (leNat bs)) s
  else if bs.length = 8 && off % 8 = 0 then
    slotWordWrite (off + 4) (BitVec.ofNat 32 (leNat (bs.drop 4))) (slotWordWrite off (BitVec.ofNat 32 (leNat (bs.take 4))) s)
  else count1 Ctr.hifBadAcc s

/-- A write of BAR4, with its byte enables: to the staging window while it is open, else to a slot, which takes no write without
all of them (R451, R517). -/
def bar4Write (off : Nat) (bs : List (Option Byte)) (s : State) : State :=
  onBar (fun s =>
    if stagingOpen s then stagingWrite off bs s
    else if bs.all (·.isSome) then rsSlotWrite off (bs.filterMap id) s
    else count1 Ctr.hifBadAcc s) s

/-- STAGING_WRITE. -/
def execStagingWrite (off : Nat) (bytes : List (Option Byte)) (s : State) : Host.Outcome State Fault Refusal :=
  .next (bar4Write off bytes s)

/-- RS_KEY_WRITE. -/
def execRsKeyWrite (i : RsIx) (word : Fin 4) (v : Word) (s : State) : Host.Outcome State Fault Refusal :=
  .next (bar4Write (0x1000 * i.val + 0x20 + 4 * word.val) ((leBytes 4 v.toNat).map some) s)

/-- RS_ARM. -/
def execRsArm (i : RsIx) (v : Word) (s : State) : Host.Outcome State Fault Refusal :=
  .next (bar4Write (0x1000 * i.val + 0x10) ((leBytes 4 v.toNat).map some) s)

/-- RS_RELEASE. -/
def execRsRelease (i : RsIx) (v : Word) (s : State) : Host.Outcome State Fault Refusal :=
  .next (bar4Write (0x1000 * i.val + 4) ((leBytes 4 v.toNat).map some) s)

/-! ### Stages and errors (R450) -/

/-- WAIT_IMAGE: the ROM leaves S0_TRAIN and opens the staging window. -/
def execWaitImage (s : State) : Host.Outcome State Fault Refusal :=
  .next (if bootStage s = stTrain then setStage stWait s else s)

/-- An error code from 0x8001 to 0x8008: kept in LAST_ERR, logged, and the ROM returns to WAIT_IMAGE (R450, R468). -/
def bootError (code : Nat) (s : State) : State :=
  raise 258 (logSd 0x0904 clsInfo 0 code 0 (setStage stWait (setRf Reg.bootStatus 23 16 code s)))

/-! ### The image (R452, R453) -/

/-- Bytes of the image store. -/
def imageSize : Nat := 12582912 + 16384

/-- The ROM copies the staged image into the image store and starts its checks; `src` is BOOT_STATUS.SRC. -/
def startVerify (src : Nat) (s : State) : State :=
  let img := Tbl.keep (fun a => a < imageSize) s.boot.staging
  setRf Reg.bootStatus 25 24 src (setStage stVerify { s with boot := { s.boot with image := img, imageLen := 0, fetch := none } })

/-- GO_HOST: acted on only in WAIT_IMAGE. -/
def goHost (s : State) : State := if bootStage s = stWait then startVerify 1 s else s

/-- GO_HOST. -/
def execGoHost (s : State) : Host.Outcome State Fault Refusal := .next (goHost s)

/-- `n` bytes of the image store. -/
def imageBytes (s : State) (a n : Nat) : List Byte := (List.range n).map (fun i => Tbl.get 0 s.boot.image (a + i))

/-- Are the bytes of a list from a to b zero? -/
def zeroSpan (h : List Byte) (a b : Nat) : Bool := ((h.drop a).take (b - a)).all (· == 0)

/-- Check 1: the header's own form. -/
def headerOk (h : List Byte) : Bool :=
  let body := leAt h 8 4
  leAt h 0 4 == 0xA31CF1A0 && leAt h 4 4 == 1 && body % 64 == 0 && 64 ≤ body && body ≤ 12582912 && leAt h 0x14 4 < body &&
    leAt h 0xC 4 ≤ 128 && leAt h 0x18 4 ≤ 1 && zeroSpan h 0x1C 0x40 && zeroSpan h 0x1C73 0x1C80 && zeroSpan h 0x38B3 0x4000

/-- Check 5: the owner's key and signature. -/
def ownerOk (f : Fuses) (h digest : List Byte) : Bool :=
  let signed := leAt h 0x18 4 == 1
  let enrolled := f.ownerKeyHash.any (· != 0)
  let key := (h.drop 0x1C80).take 2592
  if f.ownerReq && !signed then false
  else if f.ownerReq || (signed && enrolled) then
    sha3_512 key == f.ownerKeyHash && mldsaVerify key digest ((h.drop 0x26A0).take 4627)
  else true

/-- FW_DIGEST of an image (R452). -/
def imageDigest (h body : List Byte) : List Byte := sha3_512 (h.take 0x40 ++ body)

/-- The first failing check of R453 as its error code, 0 when all pass. -/
def imageCheck (f : Fuses) (h digest : List Byte) : Nat :=
  let key := (h.drop 0x40).take 2592
  if !headerOk h then 0x8001
  else if !(leAt h 0x10 4).testBit (fld f.cap 31 28 - 1) then 0x8002
  else if sha3_512 key ≠ f.vendorKeyHash then 0x8003
  else if !mldsaVerify key digest ((h.drop 0xA60).take 4627) then 0x8004
  else if !ownerOk f h digest then 0x8005
  else if leAt h 0xC 4 < f.rollback then 0x8006
  else 0

/-- IMAGE_CHECK_DONE: the ROM jumps to ENTRY with every result slot EMPTY, or reports the first failing code. -/
def imageCheckDone (s : State) : State :=
  if bootStage s ≠ stVerify then s
  else
    let h := imageBytes s 0 16384
    let n := leAt h 8 4
    let digest := imageDigest h (imageBytes s 16384 n)
    match imageCheck s.fuses h digest with
    | 0 =>
      let s := { s with boot := { s.boot with staging := [], imageLen := 16384 + n, running := true, svn := leAt h 0xC 4 },
                        host := { s.host with slots := [] } }
      let s := forRange 16 (fun j s => setReg (Reg.fwDigest j) (BitVec.ofNat 32 (leAt digest (4 * j) 4)) s) s
      setStage stFirmware s
    | code => bootError code s

/-- IMAGE_CHECK_DONE. -/
def execImageCheckDone (s : State) : Host.Outcome State Fault Refusal := .next (imageCheckDone s)

/-! ### Boot from a peer spine (R456 to R458) -/

/-- BOOT_FIBER. -/
def bootFiber (s : State) : Nat := rf s Reg.bootCfg 6 0

/-- A boot message of this device for link k (R457): `svn` and `total` for BOOT_DATA. -/
def bootHead (s : State) (k type off total svn : Nat) (payload : List Byte) : List Byte :=
  let dst := ((link s k).partner.map (fun p => p.epid.toNat)).getD 0xFFFFFF
  let src := if s.boot.fetch.isSome then 0xFFFFFF else s.fuses.epid.toNat
  sealHead (commonHead dst src 7 0 4 0 0 0 payload.length 0 ++
    leBytes 2 type ++ zeroBytes 2 ++ leBytes 4 off ++ leBytes 4 total ++ leBytes 4 svn) payload

/-- Sends a boot message on link k from the service port of its quadrant. -/
def bootSend (k type off total svn : Nat) (payload : List Byte) (s : State) : State :=
  (originate (linkQuad k) (originReq .sv 78 (.link k) (bootHead s k type off total svn payload) payload s) s).2

/-- The next offset to ask for: 0 until the size is known, then the lowest neither held nor asked for. -/
def nextAsk (f : Fetch) : Option Nat :=
  if 16 ≤ f.outstanding.length then none
  else match f.total with
    | none => if f.outstanding.isEmpty then some 0 else none
    | some t => ((List.range ((t + 4095) / 4096)).map (4096 * ·)).find? (fun o => !f.held.contains o && !f.outstanding.contains o)

/-- One more request of a fetch whose link is UP; a link out of UP leaves nothing outstanding (R458). -/
def bootAsk (s : State) : State :=
  match s.boot.fetch with
  | none => s
  | some f =>
    let k := 8 * bootFiber s
    if !linkUp s k then { s with boot := { s.boot with fetch := some { f with outstanding := [] } } }
    else match nextAsk f with
      | none => s
      | some o => bootSend k 0x40 o 0 0 []
          { s with boot := { s.boot with fetch := some { f with outstanding := f.outstanding ++ [o] } } }

/-- PEER_FETCH: the boot fiber comes up as a ×8 TERM fiber with rotation off and MIN_LANES 1; a bad calibration set ends it
with PEER_CAL (R456). -/
def startFetch (s : State) : State :=
  if rb s Reg.calStatus 31 then bootError 0x8007 s
  else
    let f := bootFiber s
    let s := setStage stFetch { s with boot := { s.boot with fetch := some ⟨none, 0, [], []⟩ } }
    ftCfgAccess f 0x84100000 (ftCfgAccess f 0x04100000 s)

/-- The fetch ends and its fiber stops. -/
def endFetch (s : State) : State := fiberStop (bootFiber s) { s with boot := { s.boot with fetch := none } }

/-- GO_PEER: acted on only in WAIT_IMAGE with PEER_EN set. -/
def goPeer (s : State) : State := if bootStage s = stWait && rb s Reg.bootCfg 31 then startFetch s else s

/-- GO_PEER. -/
def execGoPeer (s : State) : Host.Outcome State Fault Refusal := .next (goPeer s)

/-- HOST_WAIT_EXPIRY: no host has shown itself. -/
def execHostWaitExpiry (s : State) : Host.Outcome State Fault Refusal :=
  .next (if rb s Reg.hifStatus 28 then s else goPeer s)

/-- A write of BOOT_CMD: GO_HOST [0], GO_PEER [1]. -/
def bootCmdWrite (v : Word) (s : State) : State :=
  if flag v 0 then goHost s else if flag v 1 then goPeer s else s

/-- Length of the data for an offset of an image. -/
def bootLen (total off : Nat) : Nat := min 4096 (total - off)

/-- BOOT_DATA_RX: bytes of an offset asked for; the whole image starts the checks. -/
def bootDataRx (off total svn : Nat) (bs : List Byte) (s : State) : State :=
  match s.boot.fetch with
  | none => s
  | some f =>
    if !f.outstanding.contains off || (f.total.getD total) ≠ total || total ≤ off || bs.length ≠ bootLen total off then s
    else
      let f := { f with total := some total, svn := svn, outstanding := f.outstanding.filter (· != off), held := f.held ++ [off] }
      let s := stagingWrite off (bs.map some) s
      let s := { s with boot := { s.boot with fetch := some f } }
      if f.held.length * 4096 < total then bootAsk s else startVerify 2 (endFetch s)

/-- BOOT_DATA_RX. -/
def execBootDataRx (off total : BitVec 32) (svn : BitVec 8) (bytes : List Byte) (s : State) :
    Host.Outcome State Fault Refusal :=
  .next (bootDataRx off.toNat total.toNat svn.toNat bytes s)

/-- BOOT_NAK_RX: the fetch ends with PEER_NAK. -/
def execBootNakRx (_off : BitVec 32) (s : State) : Host.Outcome State Fault Refusal :=
  .next (if s.boot.fetch.isSome then bootError 0x8008 (endFetch s) else s)

/-- BOOT_REQ_TIMEOUT: the offset is asked for again. -/
def execBootReqTimeout (off : BitVec 32) (s : State) : Host.Outcome State Fault Refusal :=
  .next (match s.boot.fetch with
    | none => s
    | some f =>
      if f.outstanding.contains off.toNat && linkUp s (8 * bootFiber s) then bootSend (8 * bootFiber s) 0x40 off.toNat 0 0 [] s
      else s)

/-- BOOT_REQ_RX: the server answers from its image store (R457). -/
def bootReqRx (k off : Nat) (s : State) : State :=
  if !linkUp s k || !isBootLink s k || !bootServed s (linkFiber k) || off % 4096 ≠ 0 then s
  else if !s.boot.running || s.boot.imageLen ≤ off then bootSend k 0x42 off 0 0 [] s
  else bootSend k 0x41 off s.boot.imageLen s.boot.svn (imageBytes s off (bootLen s.boot.imageLen off)) s

/-- BOOT_REQ_RX. -/
def execBootReqRx (k : LinkIx) (off : BitVec 32) (s : State) : Host.Outcome State Fault Refusal :=
  .next (bootReqRx k off.toNat s)

/-! ### BOOT_CFG (R456, R467) -/

/-- A write of BOOT_CFG: ignored while the boot sector is being written. -/
def bootCfgWrite (v : Word) (s : State) : State :=
  if rb s Reg.bootCfg 30 then s
  else setRb Reg.bootCfg 30 true (showBootCfg v { s with boot := { s.boot with cfgPending := some (v &&& rwMaskAt Reg.bootCfg) } })

/-- BOOT_CFG_WRITE. -/
def execBootCfgWrite (v : Word) (s : State) : Host.Outcome State Fault Refusal := .next (bootCfgWrite v s)

/-- BOOT_CFG_STORED: BUSY clears. -/
def execBootCfgStored (s : State) : Host.Outcome State Fault Refusal :=
  .next (match s.boot.cfgPending with
    | none => s
    | some v => setRb Reg.bootCfg 30 false { s with boot := { s.boot with norBoot := v, cfgPending := none } })

end Sys2Proof.Machine
end

