-- ==== Sys2Proof/Machine/LanternVec.lean ====
section
/-!
DEFINITION. The vector Scehus instructions: class VEC with its lane types, predicates and flags (R311, R313, R314).
-/
namespace Sys2Proof.Machine

/-! ### Lane types and flags (R313) -/

/-- Lane width of MOD[1:0]: 0 F32, 1 F64, 2 I32, 3 I64. -/
def laneW (f : Fields) : Nat := if f.mod.getLsbD 0 then 64 else 32
/-- Is the lane type floating point? -/
def laneFp (f : Fields) : Bool := !f.mod.getLsbD 1
/-- The format code of a floating-point lane type. -/
def laneFmt (f : Fields) : Nat := if f.mod.getLsbD 0 then 0 else 1
/-- Lanes of a register. -/
def laneN (f : Fields) : Nat := 512 / laneW f

/-- Adds flags to a wick's sticky flags; a flag that IEEE 754 leaves to the implementation is a free choice. -/
def addFlags (w : WickId) (fl : Nat) (s : State) : State :=
  let x := wkGet w s
  let (unf, s) := if fl &&& fUnfOpen ≠ 0 then freeBool s else (false, s)
  let (inv, s) := if fl &&& fInvOpen ≠ 0 then freeBool s else (false, s)
  wkPut w { x with fp := x.fp ||| fl % 16 ||| (if unf then fUnf else 0) ||| (if inv then fInv else 0) } s

/-- Joins flags: an open one matters only while its flag is not set. -/
def joinFlags (a b : Nat) : Nat := a ||| b

/-- Writes the lanes of v[D] that the predicate enables: `g i` gives lane i and its flags. -/
def laneMap (w : WickId) (f : Fields) (g : WickSt → Nat → FRes) (s : State) : State :=
  let x := wkGet w s
  let lw := laneW f
  let old := x.v f.d
  let rs := (List.range (laneN f)).map (fun i => if laneOn (x.gov f) lw i then some (g x i) else none)
  let v := (rs.zipIdx.map (fun r => (match r.1 with
    | some c => c.bits % 2 ^ lw
    | none => piece old (lw * r.2) lw) * 2 ^ (lw * r.2))).sum
  let fl := rs.foldl (fun a r => joinFlags a ((r.map (·.flags)).getD 0)) 0
  addFlags w fl (wkPut w (x.setV f.d.toNat v) s)

/-- Lane i of v[A], v[B], v[C]. -/
def laneA (f : Fields) (x : WickSt) (i : Nat) : Nat := piece (x.v f.a) (laneW f * i) (laneW f)
def laneB (f : Fields) (x : WickSt) (i : Nat) : Nat := piece (x.v f.b) (laneW f * i) (laneW f)
def laneC (f : Fields) (x : WickSt) (i : Nat) : Nat := piece (x.v f.c) (laneW f * i) (laneW f)

/-- A lane operation of class VEC. -/
def vecOp (w : WickId) (op : Nat) (f : Fields) (g : WickSt → Nat → FRes) (s : State) : State :=
  issue w 1 op f true (fun s => .done (laneMap w f g s)) s

/-- A result without flags. -/
def plain (b : Nat) : FRes := ⟨b, 0⟩

/-- A two-operand operation, floating-point or integer by the lane type. -/
def vec2 (w : WickId) (op : Nat) (f : Fields) (fp : Nat → Nat → Nat → FRes) (int : Nat → Nat → Nat → Nat) (s : State) : State :=
  vecOp w op f (fun x i =>
    if laneFp f then fp (laneFmt f) (laneA f x i) (laneB f x i) else plain (int (laneW f) (laneA f x i) (laneB f x i))) s

/-- A fused multiply-add, negated or not. -/
def vecFma (w : WickId) (op : Nat) (f : Fields) (neg : Bool) (s : State) : State :=
  vecOp w op f (fun x i =>
    let a := laneA f x i
    let b := laneB f x i
    let c := laneC f x i
    if laneFp f then fFma (laneFmt f) neg a b c
    else plain (ofSigned (laneW f) ((if neg then -((a * b : Nat) : Int) else (a * b : Nat)) + c))) s

/-- VMOV. -/
def execVmov (w : WickId) (f : Fields) (s : State) : Host.Outcome State Fault Refusal :=
  .next (vecOp w 0x00 f (fun x i => plain (laneA f x i)) s)
/-- VADD. -/
def execVadd (w : WickId) (f : Fields) (s : State) : Host.Outcome State Fault Refusal :=
  .next (vec2 w 0x01 f fAdd (fun _ a b => a + b) s)
/-- VSUB. -/
def execVsub (w : WickId) (f : Fields) (s : State) : Host.Outcome State Fault Refusal :=
  .next (vec2 w 0x02 f fSub (fun n a b => a + 2 ^ n - b) s)
/-- VMUL. -/
def execVmul (w : WickId) (f : Fields) (s : State) : Host.Outcome State Fault Refusal :=
  .next (vec2 w 0x03 f fMul (fun _ a b => a * b) s)
/-- VFMA. -/
def execVfma (w : WickId) (f : Fields) (s : State) : Host.Outcome State Fault Refusal := .next (vecFma w 0x04 f false s)
/-- VFNMA. -/
def execVfnma (w : WickId) (f : Fields) (s : State) : Host.Outcome State Fault Refusal := .next (vecFma w 0x05 f true s)
/-- VMIN. -/
def execVmin (w : WickId) (f : Fields) (s : State) : Host.Outcome State Fault Refusal :=
  .next (vec2 w 0x06 f (fun t a b => fMinMax t false a b) (fun n a b => iMinMax n false a b) s)
/-- VMAX. -/
def execVmax (w : WickId) (f : Fields) (s : State) : Host.Outcome State Fault Refusal :=
  .next (vec2 w 0x07 f (fun t a b => fMinMax t true a b) (fun n a b => iMinMax n true a b) s)
/-- VDIV. -/
def execVdiv (w : WickId) (f : Fields) (s : State) : Host.Outcome State Fault Refusal :=
  .next (vecOp w 0x08 f (fun x i => fDiv (laneFmt f) (laneA f x i) (laneB f x i)) s)
/-- VSQRT. -/
def execVsqrt (w : WickId) (f : Fields) (s : State) : Host.Outcome State Fault Refusal :=
  .next (vecOp w 0x09 f (fun x i => fSqrt (laneFmt f) (laneA f x i)) s)
/-- VABS. -/
def execVabs (w : WickId) (f : Fields) (s : State) : Host.Outcome State Fault Refusal :=
  .next (vecOp w 0x0A f (fun x i => fAbs (laneFmt f) (laneA f x i)) s)
/-- VNEG. -/
def execVneg (w : WickId) (f : Fields) (s : State) : Host.Outcome State Fault Refusal :=
  .next (vecOp w 0x0B f (fun x i => fNeg (laneFmt f) (laneA f x i)) s)
/-- VAND. -/
def execVand (w : WickId) (f : Fields) (s : State) : Host.Outcome State Fault Refusal :=
  .next (vecOp w 0x0C f (fun x i => plain (laneA f x i &&& laneB f x i)) s)
/-- VOR. -/
def execVor (w : WickId) (f : Fields) (s : State) : Host.Outcome State Fault Refusal :=
  .next (vecOp w 0x0D f (fun x i => plain (laneA f x i ||| laneB f x i)) s)
/-- VXOR. -/
def execVxor (w : WickId) (f : Fields) (s : State) : Host.Outcome State Fault Refusal :=
  .next (vecOp w 0x0E f (fun x i => plain (laneA f x i ^^^ laneB f x i)) s)
/-- VBCAST. -/
def execVbcast (w : WickId) (f : Fields) (s : State) : Host.Outcome State Fault Refusal :=
  .next (vecOp w 0x10 f (fun x _ => plain (x.s f.a)) s)
/-- VIDX. -/
def execVidx (w : WickId) (f : Fields) (s : State) : Host.Outcome State Fault Refusal :=
  .next (vecOp w 0x13 f (fun x i => plain (x.s f.a + i)) s)
/-- VSEL. -/
def execVsel (w : WickId) (f : Fields) (s : State) : Host.Outcome State Fault Refusal :=
  .next (vecOp w 0x21 f (fun x i => plain (if laneOn (x.p f.c.toNat) (laneW f) i then laneA f x i else laneB f x i)) s)

/-- The lane that IMM16 names. -/
def laneIx (f : Fields) : Nat := f.imm16.toNat % laneN f

/-- VEXT: governed by bit 0 of the predicate (R311). -/
def execVext (w : WickId) (f : Fields) (s : State) : Host.Outcome State Fault Refusal :=
  .next (issue w 1 0x11 f false (fun s => scalarOut w f (laneA f (wkGet w s) (laneIx f)) s) s)
/-- VINS: governed by bit 0 of the predicate. -/
def execVins (w : WickId) (f : Fields) (s : State) : Host.Outcome State Fault Refusal :=
  .next (issue w 1 0x12 f false (fun s =>
    let x := wkGet w s
    .done (wkPut w (x.setV f.d.toNat (putPiece (x.v f.d) (laneW f * laneIx f) (laneW f) (x.s f.a))) s)) s)

/-- The sum of the enabled lanes in ascending order, each addition rounded (R313); +0 of no lane, and of one lane its
value, a NaN made canonical, with no flag (log entry 40). -/
def laneSum (f : Fields) (x : WickSt) : FRes :=
  let xs := ((List.range (laneN f)).filter (laneOn (x.gov f) (laneW f))).map (laneA f x)
  if laneFp f then
    match xs with
    | [] => plain 0
    | [a] => if isNaN (laneFmt f) a then fNaN (laneFmt f) 0 else plain a
    | a :: rest => rest.foldl (fun r b => let t := fAdd (laneFmt f) r.bits b; ⟨t.bits, joinFlags r.flags t.flags⟩) (plain a)
  else plain (xs.sum % 2 ^ laneW f)

/-- VSUM. -/
def execVsum (w : WickId) (f : Fields) (s : State) : Host.Outcome State Fault Refusal :=
  .next (issue w 1 0x14 f true (fun s =>
    let x := wkGet w s
    let r := laneSum f x
    .done (addFlags w r.flags (wkPut w (x.setS f.d.toNat r.bits) s))) s)

/-- The predicate a VCMP gives, and its flags: disabled lanes and bits that govern no lane are 0. -/
def laneCmp (f : Fields) (x : WickSt) : Nat × Nat :=
  let cond := f.mod.toNat / 4 % 8
  let one := fun i =>
    if !laneOn (x.gov f) (laneW f) i then (false, 0)
    else if laneFp f then fCmp (laneFmt f) cond (laneA f x i) (laneB f x i)
    else (iCmp (laneW f) cond (laneA f x i) (laneB f x i), 0)
  let rs := (List.range (laneN f)).map one
  ((rs.zipIdx.map (fun r => if r.1.1 then 2 ^ (if laneW f = 64 then 2 * r.2 else r.2) else 0)).sum,
   rs.foldl (fun a r => joinFlags a r.2) 0)

/-- VCMP. -/
def execVcmp (w : WickId) (f : Fields) (s : State) : Host.Outcome State Fault Refusal :=
  .next (issue w 1 0x20 f true (fun s =>
    let x := wkGet w s
    let r := laneCmp f x
    .done (addFlags w r.2 (wkPut w (x.setP f.d.toNat r.1) s))) s)

/-! ### VCVT (R314) -/

/-- The conversions of a VCVT's enabled elements; element i is governed by its wide lane. -/
def cvtAll (f : Fields) (x : WickSt) : List (Option CRes) :=
  let m := f.mod.toNat
  let src := m % 16
  let dst := m / 16 % 16
  let rm := m / 256 % 4
  let slice := f.imm16.toNat % 8
  let n := cvtCount src dst
  let scale := x.s f.b / 2 ^ (8 * (slice / 2)) % 256
  let lane := 512 / n
  (List.range n).map (fun i =>
    if laneOn (x.gov f) lane i then
      some (convert src dst rm (if rm = 2 then piece (x.v f.c) (lane * i) 32 else 0) (f.mod.getLsbD 10) scale scale
        (piece (x.v f.a) (cvtPos n src slice i) (fmtBits src)))
    else none)

/-- VCVT: an element for which the spec states no value takes a free one. -/
def cvtRun (w : WickId) (f : Fields) (s : State) : State :=
  let x := wkGet w s
  let m := f.mod.toNat
  let dst := m / 16 % 16
  let n := cvtCount (m % 16) dst
  let rs := cvtAll f x
  let c := s.freeCtr
  let v := rs.zipIdx.foldl (fun v r => match r.1 with
    | none => v
    | some e => putPiece v (cvtPos n dst (f.imm16.toNat % 8) r.2) (fmtBits dst)
        (e.bits.getD (Config.freeWord (c + r.2)).toNat)) (x.v f.d)
  let fl := rs.foldl (fun a r => joinFlags a ((r.map (·.flags)).getD 0)) 0
  addFlags w fl (wkPut w (x.setV f.d.toNat v) { s with freeCtr := c + 16 })

/-- VCVT. -/
def execVcvt (w : WickId) (f : Fields) (s : State) : Host.Outcome State Fault Refusal :=
  .next (issue w 1 0x30 f true (fun s => .done (cvtRun w f s)) s)

end Sys2Proof.Machine
end

