-- ==== Sys2Proof/Machine/Security.lean ====
section
/-!
DEFINITION. Identity and attestation, and the commands that change fuses (R454, R455, R459 to R461, R468).
-/
namespace Sys2Proof.Machine

/-- Bytes of registers at consecutive words, `n` words from `a`. -/
def wordsAt (s : State) (a n : Nat) : List Byte := ((List.range n).map (fun j => leBytes 4 (reg s (a + 4 * j)).toNat)).flatten

/-- Record 16q + m of RANGES: all zero where the quadrant's Lantern registers read zero (R32, R461). -/
def rangeRecord (s : State) (q m : Nat) : List Byte :=
  if clusterGone s q || regGated s (Reg.csRange0 q m) then zeroBytes 48
  else
    let a := Reg.csRange0 q m
    let valid := rb s a 31
    let busy := rb s a 30
    leBytes 1 (b2n valid + 2 * b2n busy) ++ leBytes 1 q ++ leBytes 1 m ++ zeroBytes 1 ++
      leBytes 4 (rf s (Reg.csRange1 q m) 17 0) ++ leBytes 4 (rf s (Reg.csRange2 q m) 18 0) ++ zeroBytes 4 ++
      (if valid && !busy then wordsAt s (Reg.csDigest q m 0) 8 else zeroBytes 32)

/-- Bytes 0 to 3,391 of the report, as the device stands now (R460). -/
def report (s : State) : List Byte :=
  let enrolled := s.fuses.ownerKeyHash.any (· != 0)
  let fixed : List (Nat × List Byte) :=
    [(0, leBytes 4 0xA31DA77E), (4, leBytes 2 1), (8, leBytes 8 s.fuses.serial.toNat), (16, leBytes 4 (reg s Reg.capUnits).toNat),
     (20, leBytes 1 (rf s Reg.sdPersonality 17 16)), (21, leBytes 1 (rf s Reg.bootStatus 25 24)), (24, leBytes 8 (devTicks s)),
     (64, wordsAt s (Reg.attNonce 0) 16), (128, wordsAt s (Reg.fwDigest 0) 16), (192, leBytes 4 s.boot.svn),
     (196, leBytes 1 s.fuses.rollback), (197, leBytes 1 (b2n enrolled + 2 * b2n s.fuses.ownerReq)),
     (224, sha3_256 (fuseArray s.fuses)), (256, padTo 32 s.cal.stored.digest),
     (288, leBytes 1 (b2n (rb s Reg.calStatus 31) + 2 * b2n (rb s Reg.calStatus 0))), (292, leBytes 4 s.cal.stored.writes.toNat)]
  let head := fixed.foldl (fun bs f => putBytes bs f.1 f.2) (zeroBytes 320)
  head ++ ((List.range 64).map (fun i => rangeRecord s (i / 16) (i % 16))).flatten

/-- Results of SEC_STATUS. -/
def secRefused : Nat := 1
def secBadCmd : Nat := 2

/-- Ends a security command at once with a result. -/
def secResult (r : Nat) (s : State) : State := setRf Reg.secStatus 3 0 r s

/-- Fuses change: SEC_FUSE follows, with an entry and source 258 (R468). -/
def burn (op : Nat) (f : Fuses) (s : State) : State :=
  let s := showFuses { s with fuses := f }
  raise 258 (logSd 0x0905 clsInfo 0 op (reg s Reg.secFuse).toNat (secResult 0 s))

/-- ATTEST: the snapshot is taken, and BUSY sets. -/
def attest (s : State) : State := setRb Reg.secStatus 31 true { s with sec := { building := some (report s), attBuf := s.sec.attBuf } }

/-- SVN_ADVANCE: ROLLBACK rises to the running image's SVN (R454). -/
def svnAdvance (s : State) : State :=
  if !s.boot.running then secResult secRefused s
  else if s.fuses.rollback < s.boot.svn then burn 2 { s.fuses with rollback := s.boot.svn } s
  else secResult 0 s

/-- OWNER_ENROLL: SEC_ARG becomes the owner key hash while none is enrolled (R455). -/
def ownerEnroll (s : State) : State :=
  if s.fuses.ownerKeyHash.any (· != 0) then secResult secRefused s
  else
    let h := wordsAt s (Reg.secArg 0) 16
    if h.any (· != 0) then burn 3 { s.fuses with ownerKeyHash := h } s else secResult 0 s

/-- OWNER_REQUIRE: accepted while an owner key is enrolled (R455). -/
def ownerRequire (s : State) : State :=
  if !s.fuses.ownerKeyHash.any (· != 0) then secResult secRefused s
  else if s.fuses.ownerReq then secResult 0 s
  else burn 4 { s.fuses with ownerReq := true } s

/-- Runs a command unless one is running, which counts SEC_REJ (R461). -/
def secGuard (f : State → State) (s : State) : State := if rb s Reg.secStatus 31 then count1 Ctr.secRej s else f s

/-- ATTEST. -/
def execAttest (s : State) : Host.Outcome State Fault Refusal := .next (secGuard attest s)

/-- SVN_ADVANCE. -/
def execSvnAdvance (s : State) : Host.Outcome State Fault Refusal := .next (secGuard svnAdvance s)

/-- OWNER_ENROLL. -/
def execOwnerEnroll (s : State) : Host.Outcome State Fault Refusal := .next (secGuard ownerEnroll s)

/-- OWNER_REQUIRE. -/
def execOwnerRequire (s : State) : Host.Outcome State Fault Refusal := .next (secGuard ownerRequire s)

/-- A write of SEC_CMD. -/
def secCmdWrite (v : Word) (s : State) : State :=
  secGuard (match fld v 3 0 with
    | 1 => attest
    | 2 => svnAdvance
    | 3 => ownerEnroll
    | 4 => ownerRequire
    | _ => secResult secBadCmd) s

/-- ATTEST_DONE: the report is signed over the SHA3-512 of its bytes and stands in ATT_BUF. -/
def execAttestDone (s : State) : Host.Outcome State Fault Refusal :=
  .next (match s.sec.building with
    | none => s
    | some r =>
      let sig := padTo 4627 (Config.mldsaSign (sha3_512 r))
      secResult 0 (setRb Reg.secStatus 31 false { s with sec := ⟨none, r ++ sig⟩ }))

end Sys2Proof.Machine
end

