-- ==== Sys2Proof/Machine/Telemetry.lean ====
section
/-!
DEFINITION. Performance counters, monitors and the Ember log (R469 to R485, R492).
-/
namespace Sys2Proof.Machine

/-- PMC_RUN_WRITE: RUN starts or stops the eight counters of unit x (R472). -/
def execPmcRunWrite (q : Quad) (u : Fin 48) (run : Bool) (s : State) : Host.Outcome State Fault Refusal :=
  .next (guardReg (Reg.pmcCtl q u) (setRb (Reg.pmcCtl q u) 31 run) s)

/-- PMC_GRUN_WRITE: GRUN starts or stops every counter of the device (R472). -/
def execPmcGrunWrite (run : Bool) (s : State) : Host.Outcome State Fault Refusal :=
  .next (setRb Reg.pmcGlobal 0 run s)

/-- MON_SNAP (R478). -/
def execMonSnap (q : Quad) (m : Fin 16) (s : State) : Host.Outcome State Fault Refusal :=
  .next (guardReg (Reg.monSnap q m) (fun s =>
    let v := mon s (16 * q + m)
    setMon (16 * q + m) ⟨if rb s (Reg.monCfg q m) 29 then MonVals.init else v.live, v.live⟩ s) s)

/-- The offset of a monitor configuration register. -/
def monRegAddr (q m : Nat) : MonReg → Nat
  | .cfg => Reg.monCfg q m
  | .base => Reg.monBase q m
  | .width => Reg.monWidth q m

/-- A write of MON_CFG, MON_BASE or MON_WIDTH restarts the monitor and leaves its holding registers (R478). -/
def monRestart (q m : Nat) (s : State) : State :=
  setMon (16 * q + m) { mon s (16 * q + m) with live := MonVals.init } s

/-- MON_RECONFIG (R478). -/
def execMonReconfig (q : Quad) (m : Fin 16) (r : MonReg) (v : Word) (s : State) : Host.Outcome State Fault Refusal :=
  .next (guardReg (monRegAddr q m r) (fun s => monRestart q m (writeRw (monRegAddr q m r) v s)) s)

/-- The value a level monitor samples: BACKLOG for KIND 2, the sensed value otherwise (R476). -/
def monLevel (s : State) (q : Nat) (cfg : Word) (sensed : Nat) : Nat :=
  if fld cfg 23 16 == 2 then rf s (Reg.scLinkstat q (fld cfg 15 0 % 256)) 21 0 else sensed

/-- Does the instance that INST names exist for a level source of quadrant q?  A source whose instance is absent or gated
supplies no values (R476): a local link of a tile, a slot of a tile, a sensor of the die, of an engine or of the service die. -/
def monLevelOf (s : State) (q kind inst : Nat) : Bool :=
  match kind with
  | 2 => inst < 256 && unitPresent s (36 + 32 * q + inst / 8)
  | 5 => inst / 256 % 16 ≤ 8 && unitPresent s (36 + 32 * q + inst % 32)
  | 6 => inst < 16 || (inst < 32 && unitPresent s (4 + 4 * q + (inst - 16) / 4)) || (32 ≤ inst && inst < 40)
  | _ => false

/-- MON_SAMPLE: an enabled level monitor takes its source's value (R476). -/
def execMonSample (q : Quad) (m : Fin 16) (value : Nat) (s : State) : Host.Outcome State Fault Refusal :=
  let cfg := reg s (Reg.monCfg q m)
  .next (if flag cfg 31 && !quadShut s q && monLevelOf s q (fld cfg 23 16) (fld cfg 15 0) then
      monTake q m (monLevel s q cfg value) s
    else s)

/-! ### The Ember log -/

/-- Entries between LOG_CI and LOG_PI, modulo 65,536 (R479). -/
def logFill (s : State) : Nat := (rf s Reg.logPi 15 0 + 65536 - rf s Reg.logCi 15 0) % 65536

/-- LOG_STATUS.FULL follows the indices. -/
def logStatusUpdate (s : State) : State := setRb Reg.logStatus 0 (logFill s == 16384) s

/-- The 32 bytes of an entry (R480). -/
def LogEv.bytes (e : LogEv) (seq : Nat) : List Byte :=
  leBytes 8 e.time.toNat ++ leBytes 2 e.code ++ leBytes 1 (e.origin + 16 * e.cls) ++ leBytes 1 e.kind ++
    leBytes 2 e.unit ++ leBytes 2 seq ++ padTo 16 e.data

/-- The MGT copy of an entry joins the send queue of 256, or is counted in LOG_MGT_DROP (R485). -/
def logMgt (e : LogEv) (bytes : List Byte) (s : State) : State :=
  if rb s Reg.logCfg 30 && rf s Reg.logCfg 29 27 ≤ e.cls then
    if s.log.mgt.length < 256 then { s with log := { s.log with mgt := s.log.mgt ++ [bytes] } }
    else count1 Ctr.logMgtDrop s
  else s

/-- Source 257: at the threshold once until re-armed, and for every entry of class DEVICE (R483). -/
def logInterrupt (cls : Nat) (s : State) : State :=
  let reached := rf s Reg.logThresh 14 0 ≤ logFill s
  let s1 := if reached && (!s.log.fired || rf s Reg.logThresh 14 0 == 0) then
      raise 257 { s with log := { s.log with fired := true } } else s
  if cls == clsDevice && !(reached && (!s.log.fired || rf s Reg.logThresh 14 0 == 0)) then raise 257 s1 else s1

/-- Claims, writes and publishes one entry (R479, R482). -/
def logWrite (e : LogEv) (s : State) : State :=
  let full := (rf s Reg.logWr 15 0 + 65536 - rf s Reg.logCi 15 0) % 65536 ≥ 16384
  if full && rb s Reg.logCfg 31 then
    count1 Ctr.logLost { s with log := { s.log with stopLost := s.log.stopLost + 1 } }
  else
    let s := if full then count1 Ctr.logOverwritten (setRf Reg.logCi 15 0 (rf s Reg.logCi 15 0 + 1) s) else s
    let i := rf s Reg.logWr 15 0
    let bytes := e.bytes i
    let s := { s with log := { s.log with ring := Tbl.set (zeroBytes 32) s.log.ring (i % 16384) bytes } }
    let s := setRf Reg.logPi 15 0 (i + 1) (setRf Reg.logWr 15 0 (i + 1) s)
    logInterrupt e.cls (logMgt e bytes (logStatusUpdate (count1 Ctr.logEntries s)))

/-- The origin whose event is written next: the service die's own first, then the quadrants in rotating order (R481). -/
def logNextOrigin (s : State) : Option Nat :=
  if s.log.queues.getD 4 [] ≠ [] then some 4
  else ((List.range 4).map (fun i => (s.log.next + i) % 4)).find? (fun o => s.log.queues.getD o [] ≠ [])

/-- LOG_ENTRY_WRITE (R481, R482): with no event waiting nothing is written. -/
def execLogEntryWrite (s : State) : Host.Outcome State Fault Refusal :=
  .next (match logNextOrigin s with
    | none => s
    | some o =>
      match s.log.queues.getD o [] with
      | [] => s
      | e :: rest =>
        logWrite e { s with log := { s.log with
          queues := listPut 5 [] s.log.queues o rest, next := if o < 4 then (o + 1) % 4 else s.log.next } })

/-- LOG_LOST_ENTRY: once the origin's queue (or the log's space, for the service die) has room, one LOG_LOST entry gives
the number of events lost (R481, R482). -/
def execLogLostEntry (origin : Fin 5) (s : State) : Host.Outcome State Fault Refusal :=
  let o := origin.val
  .next (
    if o < 4 then
      if 0 < s.log.lost.getD o 0 && (s.log.queues.getD o []).length < 64 then
        let n := s.log.lost.getD o 0
        logEvent o 0x0F01 clsInfo 0 o (dataG n 0) { s with log := { s.log with lost := listPut 5 0 s.log.lost o 0 } }
      else s
    else if 0 < s.log.stopLost && !((rf s Reg.logWr 15 0 + 65536 - rf s Reg.logCi 15 0) % 65536 ≥ 16384) then
      let n := s.log.stopLost
      logWrite ⟨BitVec.ofNat 64 (devTicks s), 0x0F01, 4, clsInfo, 0, 0, dataG n 0⟩
        { s with log := { s.log with stopLost := 0 } }
    else s)

/-- A host write of LOG_CI: ignored when ahead of LOG_PI or more than 16,384 behind it (R482). -/
def logCiWrite (v : Word) (s : State) : State :=
  if (rf s Reg.logPi 15 0 + 65536 - fld v 15 0) % 65536 ≤ 16384 then
    let s := logStatusUpdate (setRf Reg.logCi 15 0 (fld v 15 0) s)
    if logFill s < rf s Reg.logThresh 14 0 then { s with log := { s.log with fired := false } } else s
  else s

/-- LOG_CI_WRITE (R482). -/
def execLogCiWrite (v : Word) (s : State) : Host.Outcome State Fault Refusal := .next (logCiWrite v s)

end Sys2Proof.Machine
end

