-- ==== Sys2Proof/Machine/RegWrite.lean ====
section
/-!
DEFINITION. Host writes to BAR0: the plain registers, the SET, CLR and TGL aliases, sequence-cleared flags, snapshots and
staged words (R18, R19, R421, R422, R424 to R427, R511).  A write of a register that has a command of its own does what that
command does.
-/
namespace Sys2Proof.Machine

/-! ### Registers with rules of their own -/

/-- SD_PERSONALITY: a NEXT of 0b00 or 0b11, or one the part does not support, is ignored (R15, R30). -/
def personalityWrite (v : Word) (s : State) : State :=
  let n := fld v 1 0
  if (n = 1 && flag s.fuses.cap 7) || (n = 2 && flag s.fuses.cap 6) then setRf Reg.sdPersonality 1 0 n s else s

/-- TIME_CFG: GM shows 0 steps removed; SERVO_EN and SERVO_SRC act as their own commands say (R403, R405, R406). -/
def timeCfgWrite (v : Word) (s : State) : State :=
  let s := servoEnWrite v (setRf Reg.timeCfg 19 16 (fld v 19 16) (setRb Reg.timeCfg 29 (flag v 29) s))
  let s := setRb Reg.timeCfg 31 (flag v 31) s
  let s := if flag v 31 then setRf Reg.timeStatus 23 16 0 s else s
  if fld v 9 0 = servoSrc s then s else servoSrcWrite v s

/-- ATT_NONCE: not while a security command runs (R461). -/
def nonceWrite (i : Nat) (v : Word) (s : State) : State := secGuard (writeRw (Reg.attNonce i) v) s

/-- CAL_CTRL: EXPORT [0], PROGRAM [1]. -/
def calCtrlWrite (v : Word) (s : State) : State :=
  if flag v 0 then calExport s else if flag v 1 then calProgram s else s

/-- The multiplier of the hash changes only while the table is empty (R182). -/
def fwdHashWrite (q : Nat) (v : Word) (s : State) : State :=
  if rf s (Reg.fwdUsed q) 19 0 = 0 && rf s (Reg.fwdOvfUsed q) 13 0 = 0 then writeRw (Reg.fwdHash q) v s else s

/-- FWD_KEY, FWD_DATA and FWD_LOC: not while a command runs (R185). -/
def fwdWordWrite (q a : Nat) (v : Word) (s : State) : State := if rb s (Reg.fwdCmdStatus q) 31 then s else writeRw a v s

/-- The half-word a link position holds after a write: NONE where the link is of a PEER fiber (R184). -/
def lsetHalf (s : State) (v : Nat) : Nat := if isPeer s (linkFiber (v % 1024)) then 0x8000 else v % 1024

/-- A write of two positions of a link set (R184). -/
def lsetWrite (a : Nat) (v : Word) (s : State) : State :=
  setReg a (BitVec.ofNat 32 (lsetHalf s (fld v 15 0) + lsetHalf s (fld v 31 16) * 2 ^ 16)) s

/-- COUNT of a group follows its bitmap. -/
def mcgCount (q g : Nat) (s : State) : State := setRf (Reg.mcg0 q g) 10 0 (groupLinks s q g).length s

/-- Word 0 of a group: SHARED is writable only below group 64 (R159). -/
def mcgWrite (q g : Nat) (v : Word) (s : State) : State :=
  let s := setRb (Reg.mcg0 q g) 31 (flag v 31) s
  if g < 64 then setRb (Reg.mcg0 q g) 30 (flag v 30) s else s

/-- Word 32 + i of a group: a bit of a PEER fiber's link is not set (R172). -/
def mcgLinksWrite (q g i : Nat) (v : Word) (s : State) : State :=
  let bits := ((List.range 32).filter (fun b => flag v b && !isPeer s (linkFiber (32 * i + b)))).map (2 ^ ·)
  mcgCount q g (setReg (Reg.mcgLinks q g i) (BitVec.ofNat 32 bits.sum) s)

/-- BASE and LIMIT of a code range: not while it is VALID (R325). -/
def csBoundWrite (q m a : Nat) (v : Word) (s : State) : State := if rb s (Reg.csRange0 q m) 31 then s else writeRw a v s

/-- LE_CFG and LE_TASK: not while RUN is 1 (R292, R349). -/
def leWordWrite (q e a : Nat) (v : Word) (s : State) : State := if rb s (Reg.leCtrl q e) 0 then s else writeRw a v s

/-- IG_CTRL: OFFLINE, SCRUB_EN and the die mark (R369, R370, R390). -/
def igCtrlWrite (q i : Nat) (v : Word) (s : State) : State :=
  let n := 3 * q + i
  let s := setMark n (flag v 20) (fld v 19 16) 1 (setRb (Reg.igCtrl q i) 30 (flag v 30) s)
  if flag v 31 then stackOfflineSet n s else stackOfflineClear n s

/-- LP_CMD: CANCEL [2], COMMIT_AT [1], COMMIT [0] (R96, R97). -/
def lpCmdWrite (q : Nat) (v : Word) (s : State) : State :=
  let s := if flag v 2 then lpSettle q (lpCancel q s) else s
  if flag v 1 then lpRequest q (some (lpAt s q)) none s
  else if flag v 0 then lpRequest q none none s
  else s

/-- A word of a performance counter: only while RUN is 0 (R472). -/
def pmcWrite (q x a : Nat) (v : Word) (s : State) : State := if rb s (Reg.pmcCtl q x) 31 then s else writeRw a v s

/-- MON_SNAP copies the live values, and restarts the monitor with CLR_ON_SNAP (R478). -/
def monSnapWrite (q m : Nat) (v : Word) (s : State) : State :=
  if flag v 0 then
    let x := mon s (16 * q + m)
    setMon (16 * q + m) ⟨if rb s (Reg.monCfg q m) 29 then MonVals.init else x.live, x.live⟩ s
  else s

/-- The arbiter of an ARB_SEED register within quadrant q: `off` is its family's offset, `i` its instance. -/
def seedRef (q i off : Nat) : ArbRef :=
  let q := Fin.ofNat 4 q
  if off = 0x240004 then .xb q (Fin.ofNat 3 i) else if off = 0x240804 then .ig q (Fin.ofNat 3 i) else .ap q

/-! ### Dispatch by register family -/

/-- A write of value `v` to the register at `a` of a family of the service die, time, log, security or calibration block:
`off` is the family's offset, `i` the instance.  Families of write-only words keep what was written. -/
def deviceWrite (off i a : Nat) (v : Word) (s : State) : State :=
  if off = 0x20 then personalityWrite v s
  else if off = 0x104 then bootCmdWrite v s
  else if off = 0x108 then bootCfgWrite v s
  else if off = 0x120 then sdResetWrite 1 v s
  else if off = 0x200 then urCmdWrite v s
  else if off = 0x4004 then arbSeedWrite .dma v s
  else if off = 0x1000c then msixCtrlWrite i v s
  else if off = 0x21000 then winApply i v s
  else if off = 0x60000 then jobEpochWrite i v s
  else if 0x80000 ≤ off && off < 0x80018 then commWrite i ((off - 0x80000) / 4) v s
  else if off = 0x80018 then descApply i false v s
  else if off = 0x80024 then descApply i true v s
  else if off = 0xc0000 then regionWrite i v s
  else if off = 0xc3000 then roleWrite i v s
  else if off = 0x100000 then timeCfgWrite v s
  else if off = 0x100060 then setReg a (v &&& 0xFFFF) s
  else if off = 0x100064 || off = 0x100070 || off = 0x100078 then setReg a v s
  else if off = 0x100068 then abortRuns (fun _ => true) 0xFF (timeSet v s)
  else if off = 0x100074 then abortRuns (fun _ => true) 0xFF (timeStep v s)
  else if off = 0x10007c then timeRset v s
  else if off = 0x20000c then logCiWrite v s
  else if off = 0x400004 then secCmdWrite v s
  else if off = 0x400200 then nonceWrite i v s
  else if off = 0x800000 then calCtrlWrite v s
  else if off = 0x800004 then calUnlockWrite v s
  else writeRw a v s

/-- A write of value `v` to the register at `a` of a family of quadrant q's block, instance (i, j). -/
def quadWrite (q off i j a : Nat) (v : Word) (s : State) : State :=
  if off = 0x0 then ftCfgWrite (32 * q + i) v s
  else if off = 0x100004 then fwdHashWrite q v s
  else if off = 0x100010 || off = 0x100014 || off = 0x100018 then fwdWordWrite q a v s
  else if off = 0x10001c then fwdOp q (fld v 3 0) s
  else if off = 0x100034 then fwdNrCiWrite q v s
  else if off = 0x100038 then nrInterrupt q (writeRw a v s)
  else if off = 0x140004 then lsetWrite a v s
  else if off = 0x40040 then showHot (otherQuad q i) (writeRw a v s)
  else if off = 0x300000 then mcgWrite q i v s
  else if off = 0x300080 then mcgLinksWrite q i j v s
  else if 0x210000 ≤ off && off < 0x21000c then shaperWrite q i j ((off - 0x210000) / 4) v s
  else if 0x220000 ≤ off && off < 0x220014 then meterWrite q i ((off - 0x220000) / 4) v s
  else if off = 0x240004 || off = 0x240804 || off = 0x241004 then arbSeedWrite (seedRef q i off) v s
  else if off = 0x480000 then spillCfgWrite q .cfg v s
  else if off = 0x480008 then spillCfgWrite q .baseLo v s
  else if off = 0x48000c then spillCfgWrite q .baseHi v s
  else if off = 0x480034 then ceCrCiWrite q v s
  else if off = 0x500100 then csRangeWrite q i v s
  else if off = 0x500104 || off = 0x500108 then csBoundWrite q i a v s
  else if off = 0x510000 then leCtrlWrite q i v s
  else if off = 0x510008 || off = 0x51000c then leWordWrite q i a v s
  else if off = 0x510100 then wkCtrlWrite q i j v s
  else if off = 0x540000 then setReg a v s
  else if off = 0x540010 then tqTxSend q v s
  else if off = 0x540024 then timeQueueCi q false v s
  else if off = 0x54002c then timeQueueCi q true v s
  else if off = 0x5c0000 then igCtrlWrite q i v s
  else if off = 0x5c000c then igRetireWrite (3 * q + i) v s
  else if off = 0x600000 then lpCmdWrite q v s
  else if off = 0x610000 then routeWrite q i 0 v s
  else if off = 0x610004 then routeWrite q i (1 + j) v s
  else if off = 0x610014 then routeWrite q i 5 v s
  else if off = 0x640040 || off = 0x640044 then pmcWrite q i a v s
  else if off = 0x680000 || off = 0x680004 || off = 0x680008 then monRestart q i (writeRw a v s)
  else if off = 0x680010 then monSnapWrite q i v s
  else if off = 0x400000 then dmaCtlWrite q i v s
  else if off = 0x400010 then dmaTailWrite q i v s
  else if off = 0x400008 || off = 0x40000c then dmaRingWrite q i a v s
  else writeRw a v s

/-- Does a write of the register reach it: it is not held in reset with the host interface unit (R415), nor gated? -/
def writeReaches (s : State) (d : RDef) (a : Nat) : Bool := (d.dom ≠ .hif || perstHigh s) && !regGated s a

/-- Writes the whole register at `a`, of family `d`. -/
def regPut (d : RDef) (a : Nat) (v : Word) (s : State) : State :=
  if writeReaches s d a then
    let ix := (d.indices a).getD []
    if d.quad then quadWrite (quadOf a) d.off (ix.headD 0) (ix.getD 1 0) a v s else deviceWrite d.off (ix.headD 0) a v s
  else s

/-! ### Staged words (R511) -/

/-- Is the family one of staged words: COMM words 7, 8, 10, 11, RGN words 1 to 5, WIN words 1, 2? -/
def isStaged (d : RDef) : Bool :=
  !d.quad && [0x8001c, 0x80020, 0x80028, 0x8002c, 0xc0004, 0xc0008, 0xc000c, 0xc0010, 0xc0014, 0x21004, 0x21008].contains d.off

/-- A write to a staged word changes only its staged value. -/
def stagedWrite (d : RDef) (a : Nat) (v : Word) (s : State) : State :=
  if writeReaches s d a then
    { s with staged := Tbl.set (reg s a) s.staged a ((stagedReg s a &&& ~~~ d.rw) ||| (v &&& d.rw)) }
  else s

/-! ### Sequence-cleared flags (R426) -/

/-- The flag bit of a register with an SQ flag: FWD_CMD_STATUS, CE_STATUS, RGN_STATUS; the sequence is in [23:16]. -/
def sqBit (d : RDef) : Option Nat :=
  if d.quad && d.off = 0x100020 then some 30
  else if d.quad && d.off = 0x480020 then some 31
  else if !d.quad && d.off = 0xc2000 then some 31
  else none

/-- A write to a register with an SQ flag: the flag clears only with the current sequence. -/
def sqClear (d : RDef) (b a : Nat) (v : Word) (s : State) : State :=
  if writeReaches s d a && flag v b && fld v 23 16 == rf s a 23 16 then setRb a b false s else s

/-! ### Snapshots (R427) -/

/-- Is the family a SNAP register of statistics counters? -/
def isSnap (d : RDef) : Bool :=
  if d.quad then
    [0xfc, 0x407fc, 0x1007fc, 0x2007fc, 0x4407fc, 0x4807fc, 0x4c07fc, 0x5007fc, 0x5407fc, 0x5807fc, 0x5c07fc, 0x6000fc,
      0x40007c].contains d.off
  else [0x227fc, 0x1007fc, 0x2007fc, 0x4007fc].contains d.off

/-- The offsets of the counters a SNAP register at `a` captures: first, and how many bytes.  RS_SNAP takes the service die's,
TM_SNAP those of every meter and arbiter of its block, the others those of their page. -/
def snapSpan (d : RDef) (a : Nat) : Nat × Nat :=
  if d.quad && d.off = 0x2007fc then (a - 0x7fc, 0x42000)
  else if d.quad && d.off = 0x40007c then (a - 0x7c, 0x100)
  else if !d.quad && d.off = 0x227fc then (0, 0x100000)
  else (a / 0x1000 * 0x1000, 0x1000)

/-- Copies every counter of a span into its holding register. -/
def snapCopy (lo n : Nat) (s : State) : State :=
  let inside := fun a : Nat => lo ≤ a && a < lo + n
  { s with hold := (Tbl.keep inside s.ctr).foldl (fun h e => Tbl.set 0 h e.1 e.2) (Tbl.keep (fun a => !inside a) s.hold) }

/-- A write of a SNAP register: bit 0 takes the snapshot. -/
def snapWrite (d : RDef) (a : Nat) (v : Word) (s : State) : State :=
  if writeReaches s d a && flag v 0 then snapCopy (snapSpan d a).1 (snapSpan d a).2 s else s

/-! ### Accesses (R19, R421, R422) -/

/-- Does BAR0 answer (R415, R417)? -/
def bar0On (s : State) : Bool := perstHigh s && barsOn s

/-- A write of words 6 and 7 of a route entry, which hold no field: it is ignored, and counted where the entry takes no writes
(R97). -/
def routeSpare (a : Nat) (s : State) : State :=
  let q := quadOf a
  let o := a % 0x800000 - 0x610000
  let e := o / 32
  if inQuad a && 0x610000 ≤ a % 0x800000 && o < 0x8000 && 24 ≤ o % 32 && !regGated s (Reg.route0 q e) && !routeAccepts s q e
  then count1 (Ctr.writeRej q) s else s

/-- A 32-bit write at BAR0 offset `a`, which is aligned: what the register there does, the export window of the calibration
block included; where no register is defined only a refused write of a route entry counts (R19, R97). -/
def write32 (a : Nat) (v : Word) (s : State) : State :=
  if 0xC00000 ≤ a && a < 0x1000000 then calWindowWrite (a - 0xC00000) (leBytes 4 v.toNat) s
  else
    match regDef a with
    | none => routeSpare a s
    | some d =>
      if isStaged d then stagedWrite d a v s
      else if isSnap d then snapWrite d a v s
      else
        match sqBit d with
        | some b => sqClear d b a v s
        | none => regPut d a v s

/-- Runs a BAR0 access at `a` of the given size: any but an aligned one of 4 or 8 bytes with all byte enables set is counted
in HIF_BAD_ACC (R421). -/
def bar0Access (a size : Nat) (allBytes : Bool) (f : State → State) (s : State) : State :=
  onBar (fun s => if allBytes && (size = 4 || size = 8) && a % size = 0 then f s else count1 Ctr.hifBadAcc s) s

/-- REG_WRITE: an 8-byte access is two 32-bit writes, low word first. -/
def execRegWrite (addr : BarAddr) (acc : BarAccess) (s : State) : Host.Outcome State Fault Refusal :=
  let a := addr.toNat
  .next (bar0Access a acc.size acc.allBytes (fun s =>
    let s := write32 a (BitVec.ofNat 32 acc.value.toNat) s
    if acc.size = 8 then write32 (a + 4) (BitVec.ofNat 32 (acc.value.toNat / 2 ^ 32)) s else s) s)

/-- An alias write: `f` combines the written value with the RW fields, of the staged value for a staged word.  A register
with no RW field, and the MSI-X table, have no alias (R422, R511). -/
def aliasWrite (f : Word → Word → Word) (a : Nat) (v : Word) (s : State) : State :=
  match regDef a with
  | none => s
  | some d =>
    if d.rw = 0 || (0x10000 ≤ a && a < 0x20000) then s
    else if isStaged d then stagedWrite d a (f (stagedReg s a) v &&& d.rw) s
    else regPut d a (f (reg s a) v &&& d.rw) s

/-- ALIAS_SET_WRITE. -/
def execAliasSetWrite (addr : BarAddr) (v : Word) (s : State) : Host.Outcome State Fault Refusal :=
  .next (bar0Access addr.toNat 4 true (aliasWrite (fun old v => old ||| v) addr.toNat v) s)

/-- ALIAS_CLR_WRITE. -/
def execAliasClrWrite (addr : BarAddr) (v : Word) (s : State) : Host.Outcome State Fault Refusal :=
  .next (bar0Access addr.toNat 4 true (aliasWrite (fun old v => old &&& ~~~ v) addr.toNat v) s)

/-- ALIAS_TGL_WRITE. -/
def execAliasTglWrite (addr : BarAddr) (v : Word) (s : State) : Host.Outcome State Fault Refusal :=
  .next (bar0Access addr.toNat 4 true (aliasWrite (fun old v => old ^^^ v) addr.toNat v) s)

/-- Runs `f` on the register family at `a`, where there is one that satisfies `p`. -/
def onFamily (p : RDef → Bool) (f : RDef → State → State) (a : Nat) (s : State) : State :=
  match regDef a with
  | none => s
  | some d => if p d then bar0Access a 4 true (f d) s else s

/-- SQ_CLEAR_WRITE: a direct 32-bit write of a register with an SQ flag. -/
def execSqClearWrite (addr : BarAddr) (v : Word) (s : State) : Host.Outcome State Fault Refusal :=
  .next (onFamily (fun d => (sqBit d).isSome) (fun d => sqClear d ((sqBit d).getD 0) addr.toNat v) addr.toNat s)

/-- SNAP_WRITE: a direct 32-bit write of a SNAP register. -/
def execSnapWrite (addr : BarAddr) (v : Word) (s : State) : Host.Outcome State Fault Refusal :=
  .next (onFamily isSnap (fun d => snapWrite d addr.toNat v) addr.toNat s)

/-- STAGED_WORD_WRITE: a direct 32-bit write of a staged word. -/
def execStagedWordWrite (addr : BarAddr) (v : Word) (s : State) : Host.Outcome State Fault Refusal :=
  .next (onFamily isStaged (fun d => stagedWrite d addr.toNat v) addr.toNat s)

end Sys2Proof.Machine
end

