-- ==== Sys2Proof/Machine/Dispatch.lean ====
section
/-!
DEFINITION. One arm per command: which meaning runs.
-/
namespace Sys2Proof.Machine

/-- The effect of a command on everything but the queue. -/
def exec (i : Instr) (s : State) : Host.Outcome State Fault Refusal :=
  match i with
  | .inputValid => Sys2Proof.Machine.execInputValid s
  | .inputLost => Sys2Proof.Machine.execInputLost s
  | .railFault rail => Sys2Proof.Machine.execRailFault rail s
  | .railRetry => Sys2Proof.Machine.execRailRetry s
  | .feedChange feed ok => Sys2Proof.Machine.execFeedChange feed ok s
  | .rootUnlock => Sys2Proof.Machine.execRootUnlock s
  | .rootLockReturn => Sys2Proof.Machine.execRootLockReturn s
  | .mesoGuardSet q => Sys2Proof.Machine.execMesoGuardSet q s
  | .warmReset cause => Sys2Proof.Machine.execWarmReset cause s
  | .resetSeqArm byFw => Sys2Proof.Machine.execResetSeqArm byFw s
  | .resetSeqConfirm byFw => Sys2Proof.Machine.execResetSeqConfirm byFw s
  | .stagingWrite off bytes => Sys2Proof.Machine.execStagingWrite off bytes s
  | .goHost => Sys2Proof.Machine.execGoHost s
  | .goPeer => Sys2Proof.Machine.execGoPeer s
  | .hostWaitExpiry => Sys2Proof.Machine.execHostWaitExpiry s
  | .imageCheckDone => Sys2Proof.Machine.execImageCheckDone s
  | .bootReqRx k off => Sys2Proof.Machine.execBootReqRx k off s
  | .bootDataRx off total svn bytes => Sys2Proof.Machine.execBootDataRx off total svn bytes s
  | .bootNakRx off => Sys2Proof.Machine.execBootNakRx off s
  | .bootReqTimeout off => Sys2Proof.Machine.execBootReqTimeout off s
  | .bootCfgWrite v => Sys2Proof.Machine.execBootCfgWrite v s
  | .bootCfgStored => Sys2Proof.Machine.execBootCfgStored s
  | .attest => Sys2Proof.Machine.execAttest s
  | .attestDone => Sys2Proof.Machine.execAttestDone s
  | .svnAdvance => Sys2Proof.Machine.execSvnAdvance s
  | .ownerEnroll => Sys2Proof.Machine.execOwnerEnroll s
  | .ownerRequire => Sys2Proof.Machine.execOwnerRequire s
  | .unitReset kind index force => Sys2Proof.Machine.execUnitReset kind index force s
  | .unitHold kind index force => Sys2Proof.Machine.execUnitHold kind index force s
  | .unitRelease kind index => Sys2Proof.Machine.execUnitRelease kind index s
  | .unitResetDone ok => Sys2Proof.Machine.execUnitResetDone ok s
  | .quadHoldDeferred => Sys2Proof.Machine.execQuadHoldDeferred s
  | .mateCloseDebounced r => Sys2Proof.Machine.execMateCloseDebounced r s
  | .mateOpen r => Sys2Proof.Machine.execMateOpen r s
  | .fiberEnable f => Sys2Proof.Machine.execFiberEnable f s
  | .fiberDisable f => Sys2Proof.Machine.execFiberDisable f s
  | .fiberModeWrite f v => Sys2Proof.Machine.execFiberModeWrite f v s
  | .linkLightDetected k => Sys2Proof.Machine.execLinkLightDetected k s
  | .linkTrainDone k => Sys2Proof.Machine.execLinkTrainDone k s
  | .trainStateTimeout k => Sys2Proof.Machine.execTrainStateTimeout k s
  | .trainBackoffExpiry k => Sys2Proof.Machine.execTrainBackoffExpiry k s
  | .alignPeriodTx f => Sys2Proof.Machine.execAlignPeriodTx f s
  | .alignBlockRx f slot blk pilotOk late frac => Sys2Proof.Machine.execAlignBlockRx f slot blk pilotOk late frac s
  | .darkPeriodExpiry f => Sys2Proof.Machine.execDarkPeriodExpiry f s
  | .darkCalDone f slot ok => Sys2Proof.Machine.execDarkCalDone f slot ok s
  | .swapVerifyTimeout f => Sys2Proof.Machine.execSwapVerifyTimeout f s
  | .lcMaskRx k mask => Sys2Proof.Machine.execLcMaskRx k mask s
  | .lcDupRx k pos slot period => Sys2Proof.Machine.execLcDupRx k pos slot period s
  | .lcReadyRx k pos slot => Sys2Proof.Machine.execLcReadyRx k pos slot s
  | .lcSwitchRx k id map => Sys2Proof.Machine.execLcSwitchRx k id map s
  | .lcLendRx k lend => Sys2Proof.Machine.execLcLendRx k lend s
  | .lcCalRx k slot on => Sys2Proof.Machine.execLcCalRx k slot on s
  | .switchFlitRx k flit => Sys2Proof.Machine.execSwitchFlitRx k flit s
  | .laneLoss f slot cause => Sys2Proof.Machine.execLaneLoss f slot cause s
  | .linkWaitExpiry q k => Sys2Proof.Machine.execLinkWaitExpiry q k s
  | .ringPrebiasSettled r => Sys2Proof.Machine.execRingPrebiasSettled r s
  | .ringSearchPeak r => Sys2Proof.Machine.execRingSearchPeak r s
  | .ringSearchTimeout r => Sys2Proof.Machine.execRingSearchTimeout r s
  | .ringTrackSettled r => Sys2Proof.Machine.execRingTrackSettled r s
  | .pilotWindow r amps => Sys2Proof.Machine.execPilotWindow r amps s
  | .aliasHeaterStepDone r => Sys2Proof.Machine.execAliasHeaterStepDone r s
  | .aliasSweepDone r peak => Sys2Proof.Machine.execAliasSweepDone r peak s
  | .ringLockLoss r err dropHalf => Sys2Proof.Machine.execRingLockLoss r err dropHalf s
  | .thermalSample q readings => Sys2Proof.Machine.execThermalSample q readings s
  | .thermalSlewClear p => Sys2Proof.Machine.execThermalSlewClear p s
  | .thermalTrip sensor reading => Sys2Proof.Machine.execThermalTrip sensor reading s
  | .routeWrite q entry word v => Sys2Proof.Machine.execRouteWrite q entry word v s
  | .lpCommit q => Sys2Proof.Machine.execLpCommit q s
  | .lpCommitAt q => Sys2Proof.Machine.execLpCommitAt q s
  | .lpCancel q => Sys2Proof.Machine.execLpCancel q s
  | .lpGapNotice q => Sys2Proof.Machine.execLpGapNotice q s
  | .commitPrecheck q => Sys2Proof.Machine.execCommitPrecheck q s
  | .commitInstant q => Sys2Proof.Machine.execCommitInstant q s
  | .commitLightOn q => Sys2Proof.Machine.execCommitLightOn q s
  | .lpGapRx k instant period => Sys2Proof.Machine.execLpGapRx k instant period s
  | .calExport => Sys2Proof.Machine.execCalExport s
  | .calExportDone => Sys2Proof.Machine.execCalExportDone s
  | .calUnlockFirst => Sys2Proof.Machine.execCalUnlockFirst s
  | .calUnlockSecond => Sys2Proof.Machine.execCalUnlockSecond s
  | .calUnlockLapse => Sys2Proof.Machine.execCalUnlockLapse s
  | .calProgram => Sys2Proof.Machine.execCalProgram s
  | .calProgramDone norFault => Sys2Proof.Machine.execCalProgramDone norFault s
  | .groupRx k flits trailer => Sys2Proof.Machine.execGroupRx k flits trailer s
  | .replayTimeout k => Sys2Proof.Machine.execReplayTimeout k s
  | .packetHeadRx k head => Sys2Proof.Machine.execPacketHeadRx k head s
  | .packetTailRx k payload stomped => Sys2Proof.Machine.execPacketTailRx k payload stomped s
  | .parityError q loc => Sys2Proof.Machine.execParityError q loc s
  | .crdRx k credits => Sys2Proof.Machine.execCrdRx k credits s
  | .crdInitRx k credits => Sys2Proof.Machine.execCrdInitRx k credits s
  | .ctrlUnknownRx k code => Sys2Proof.Machine.execCtrlUnknownRx k code s
  | .schedMatch q => Sys2Proof.Machine.execSchedMatch q s
  | .xbarTransferDone q id => Sys2Proof.Machine.execXbarTransferDone q id s
  | .bridgePacketRx src dst => Sys2Proof.Machine.execBridgePacketRx src dst s
  | .backlogBroadcast q => Sys2Proof.Machine.execBacklogBroadcast q s
  | .mcCopy q => Sys2Proof.Machine.execMcCopy q s
  | .originAlloc q => Sys2Proof.Machine.execOriginAlloc q s
  | .scPoolApply q => Sys2Proof.Machine.execScPoolApply q s
  | .fwdInsert q => Sys2Proof.Machine.execFwdInsert q s
  | .fwdUpdate q => Sys2Proof.Machine.execFwdUpdate q s
  | .fwdDelete q => Sys2Proof.Machine.execFwdDelete q s
  | .fwdLookup q => Sys2Proof.Machine.execFwdLookup q s
  | .fwdReadLoc q => Sys2Proof.Machine.execFwdReadLoc q s
  | .fwdBadOp q op => Sys2Proof.Machine.execFwdBadOp q op s
  | .ageSweepVisit q loc => Sys2Proof.Machine.execAgeSweepVisit q loc s
  | .fwdNrCiWrite q v => Sys2Proof.Machine.execFwdNrCiWrite q v s
  | .shaperWrite q k c word v => Sys2Proof.Machine.execShaperWrite q k c word v s
  | .meterWrite q m word v => Sys2Proof.Machine.execMeterWrite q m word v s
  | .arbDecision a sampled => Sys2Proof.Machine.execArbDecision a sampled s
  | .arbSeedWrite a v => Sys2Proof.Machine.execArbSeedWrite a v s
  | .arbFreeze a => Sys2Proof.Machine.execArbFreeze a s
  | .arbUnfreeze a => Sys2Proof.Machine.execArbUnfreeze a s
  | .starveDetect a => Sys2Proof.Machine.execStarveDetect a s
  | .cmapSample q => Sys2Proof.Machine.execCmapSample q s
  | .contributionRx q => Sys2Proof.Machine.execContributionRx q s
  | .exponentRx q => Sys2Proof.Machine.execExponentRx q s
  | .bcsAckRx q => Sys2Proof.Machine.execBcsAckRx q s
  | .postRx q => Sys2Proof.Machine.execPostRx q s
  | .postRetry q => Sys2Proof.Machine.execPostRetry q s
  | .deliveryDone q slot => Sys2Proof.Machine.execDeliveryDone q slot s
  | .bcsTimeout q slot => Sys2Proof.Machine.execBcsTimeout q slot s
  | .jobHoldClear j => Sys2Proof.Machine.execJobHoldClear j s
  | .epochWrite j v => Sys2Proof.Machine.execEpochWrite j v s
  | .fenceDone q slot => Sys2Proof.Machine.execFenceDone q slot s
  | .commWrite c v => Sys2Proof.Machine.execCommWrite c v s
  | .descApply c d v => Sys2Proof.Machine.execDescApply c d v s
  | .spillCfgWrite q reg v => Sys2Proof.Machine.execSpillCfgWrite q reg v s
  | .ceCrCiWrite q v => Sys2Proof.Machine.execCeCrCiWrite q v s
  | .taskDispatch q => Sys2Proof.Machine.execTaskDispatch q s
  | .taskLoadDone w => Sys2Proof.Machine.execTaskLoadDone w s
  | .cbarReleaseTime q rec => Sys2Proof.Machine.execCbarReleaseTime q rec s
  | .wickStart w v => Sys2Proof.Machine.execWickStart w v s
  | .wickKill w => Sys2Proof.Machine.execWickKill w s
  | .engineRunSet q e => Sys2Proof.Machine.execEngineRunSet q e s
  | .engineRunClear q e => Sys2Proof.Machine.execEngineRunClear q e s
  | .codeRangeValidate q m v => Sys2Proof.Machine.execCodeRangeValidate q m v s
  | .codeMeasureDone q m => Sys2Proof.Machine.execCodeMeasureDone q m s
  | .codeRangeInvalidate q m v => Sys2Proof.Machine.execCodeRangeInvalidate q m v s
  | .longOpComplete q op => Sys2Proof.Machine.execLongOpComplete q op s
  | .yieldQuantumExpiry w => Sys2Proof.Machine.execYieldQuantumExpiry w s
  | .waittExpiry w => Sys2Proof.Machine.execWaittExpiry w s
  | .lanternMsgRx q => Sys2Proof.Machine.execLanternMsgRx q s
  | .reservedInstruction w bits => Sys2Proof.Machine.execReservedInstruction w bits s
  | .nop w f => Sys2Proof.Machine.execNop w f s
  | .add w f => Sys2Proof.Machine.execAdd w f s
  | .sub w f => Sys2Proof.Machine.execSub w f s
  | .mul w f => Sys2Proof.Machine.execMul w f s
  | .mulhu w f => Sys2Proof.Machine.execMulhu w f s
  | .mulhs w f => Sys2Proof.Machine.execMulhs w f s
  | .and w f => Sys2Proof.Machine.execAnd w f s
  | .or w f => Sys2Proof.Machine.execOr w f s
  | .xor w f => Sys2Proof.Machine.execXor w f s
  | .shl w f => Sys2Proof.Machine.execShl w f s
  | .shr w f => Sys2Proof.Machine.execShr w f s
  | .sar w f => Sys2Proof.Machine.execSar w f s
  | .mins w f => Sys2Proof.Machine.execMins w f s
  | .maxs w f => Sys2Proof.Machine.execMaxs w f s
  | .minu w f => Sys2Proof.Machine.execMinu w f s
  | .maxu w f => Sys2Proof.Machine.execMaxu w f s
  | .movi w f => Sys2Proof.Machine.execMovi w f s
  | .clz w f => Sys2Proof.Machine.execClz w f s
  | .popc w f => Sys2Proof.Machine.execPopc w f s
  | .cmp w f => Sys2Proof.Machine.execCmp w f s
  | .pand w f => Sys2Proof.Machine.execPand w f s
  | .por w f => Sys2Proof.Machine.execPor w f s
  | .pxor w f => Sys2Proof.Machine.execPxor w f s
  | .pmov w f => Sys2Proof.Machine.execPmov w f s
  | .smovp w f => Sys2Proof.Machine.execSmovp w f s
  | .br w f => Sys2Proof.Machine.execBr w f s
  | .jmp w f => Sys2Proof.Machine.execJmp w f s
  | .call w f => Sys2Proof.Machine.execCall w f s
  | .vmov w f => Sys2Proof.Machine.execVmov w f s
  | .vadd w f => Sys2Proof.Machine.execVadd w f s
  | .vsub w f => Sys2Proof.Machine.execVsub w f s
  | .vmul w f => Sys2Proof.Machine.execVmul w f s
  | .vfma w f => Sys2Proof.Machine.execVfma w f s
  | .vfnma w f => Sys2Proof.Machine.execVfnma w f s
  | .vmin w f => Sys2Proof.Machine.execVmin w f s
  | .vmax w f => Sys2Proof.Machine.execVmax w f s
  | .vdiv w f => Sys2Proof.Machine.execVdiv w f s
  | .vsqrt w f => Sys2Proof.Machine.execVsqrt w f s
  | .vabs w f => Sys2Proof.Machine.execVabs w f s
  | .vneg w f => Sys2Proof.Machine.execVneg w f s
  | .vand w f => Sys2Proof.Machine.execVand w f s
  | .vor w f => Sys2Proof.Machine.execVor w f s
  | .vxor w f => Sys2Proof.Machine.execVxor w f s
  | .vbcast w f => Sys2Proof.Machine.execVbcast w f s
  | .vext w f => Sys2Proof.Machine.execVext w f s
  | .vins w f => Sys2Proof.Machine.execVins w f s
  | .vidx w f => Sys2Proof.Machine.execVidx w f s
  | .vsum w f => Sys2Proof.Machine.execVsum w f s
  | .vcmp w f => Sys2Proof.Machine.execVcmp w f s
  | .vsel w f => Sys2Proof.Machine.execVsel w f s
  | .vcvt w f => Sys2Proof.Machine.execVcvt w f s
  | .ldl w f => Sys2Proof.Machine.execLdl w f s
  | .stl w f => Sys2Proof.Machine.execStl w f s
  | .ldi w f => Sys2Proof.Machine.execLdi w f s
  | .sti w f => Sys2Proof.Machine.execSti w f s
  | .igld w f => Sys2Proof.Machine.execIgld w f s
  | .igst w f => Sys2Proof.Machine.execIgst w f s
  | .atom w f => Sys2Proof.Machine.execAtom w f s
  | .pwr w f => Sys2Proof.Machine.execPwr w f s
  | .send w f => Sys2Proof.Machine.execSend w f s
  | .recv w f => Sys2Proof.Machine.execRecv w f s
  | .carb w f => Sys2Proof.Machine.execCarb w f s
  | .cred w f => Sys2Proof.Machine.execCred w f s
  | .crsu w f => Sys2Proof.Machine.execCrsu w f s
  | .cbcs w f => Sys2Proof.Machine.execCbcs w f s
  | .cgat w f => Sys2Proof.Machine.execCgat w f s
  | .ca2a w f => Sys2Proof.Machine.execCa2a w f s
  | .cbar w f => Sys2Proof.Machine.execCbar w f s
  | .waitcnt w f => Sys2Proof.Machine.execWaitcnt w f s
  | .waitt w f => Sys2Proof.Machine.execWaitt w f s
  | .evsig w f => Sys2Proof.Machine.execEvsig w f s
  | .evwait w f => Sys2Proof.Machine.execEvwait w f s
  | .yield w f => Sys2Proof.Machine.execYield w f s
  | .halt w f => Sys2Proof.Machine.execHalt w f s
  | .lpw w f => Sys2Proof.Machine.execLpw w f s
  | .lpc w f => Sys2Proof.Machine.execLpc w f s
  | .lpcan w f => Sys2Proof.Machine.execLpcan w f s
  | .lpst w f => Sys2Proof.Machine.execLpst w f s
  | .hash w f => Sys2Proof.Machine.execHash w f s
  | .rand w f => Sys2Proof.Machine.execRand w f s
  | .time w f => Sys2Proof.Machine.execTime w f s
  | .perf w f => Sys2Proof.Machine.execPerf w f s
  | .trap w f => Sys2Proof.Machine.execTrap w f s
  | .rdws w f => Sys2Proof.Machine.execRdws w f s
  | .clrws w f => Sys2Proof.Machine.execClrws w f s
  | .memReqService q => Sys2Proof.Machine.execMemReqService q s
  | .combineWindowExpiry q id => Sys2Proof.Machine.execCombineWindowExpiry q id s
  | .peerWrRx q => Sys2Proof.Machine.execPeerWrRx q s
  | .peerAckRx q => Sys2Proof.Machine.execPeerAckRx q s
  | .stackAccessDone n acc errs => Sys2Proof.Machine.execStackAccessDone n acc errs s
  | .retireCopyDone n page => Sys2Proof.Machine.execRetireCopyDone n page s
  | .scrubRead n line errs => Sys2Proof.Machine.execScrubRead n line errs s
  | .igRetireWrite n v => Sys2Proof.Machine.execIgRetireWrite n v s
  | .stackDieMarkWrite n v => Sys2Proof.Machine.execStackDieMarkWrite n v s
  | .stackOfflineSet n => Sys2Proof.Machine.execStackOfflineSet n s
  | .stackOfflineClear n => Sys2Proof.Machine.execStackOfflineClear n s
  | .stackDrained n => Sys2Proof.Machine.execStackDrained n s
  | .stackTrainingDone n => Sys2Proof.Machine.execStackTrainingDone n s
  | .regionWrite r v => Sys2Proof.Machine.execRegionWrite r v s
  | .roleWrite r v => Sys2Proof.Machine.execRoleWrite r v s
  | .tagPoolApply q lantern => Sys2Proof.Machine.execTagPoolApply q lantern s
  | .timeSet v => Sys2Proof.Machine.execTimeSet v s
  | .timeStep v => Sys2Proof.Machine.execTimeStep v s
  | .timeRset v => Sys2Proof.Machine.execTimeRset v s
  | .timeApply => Sys2Proof.Machine.execTimeApply s
  | .syncRx k m => Sys2Proof.Machine.execSyncRx k m s
  | .followUpRx k m => Sys2Proof.Machine.execFollowUpRx k m s
  | .delayReqRx k m => Sys2Proof.Machine.execDelayReqRx k m s
  | .delayRespRx k m => Sys2Proof.Machine.execDelayRespRx k m s
  | .pathRx k m => Sys2Proof.Machine.execPathRx k m s
  | .holdoverTimeout => Sys2Proof.Machine.execHoldoverTimeout s
  | .servoSrcWrite v => Sys2Proof.Machine.execServoSrcWrite v s
  | .servoEnWrite v => Sys2Proof.Machine.execServoEnWrite v s
  | .timeReadLatch => Sys2Proof.Machine.execTimeReadLatch s
  | .ageReadLatch => Sys2Proof.Machine.execAgeReadLatch s
  | .tqTxSend q v => Sys2Proof.Machine.execTqTxSend q v s
  | .tqTxSent q => Sys2Proof.Machine.execTqTxSent q s
  | .timeQueueCiWrite q trx v => Sys2Proof.Machine.execTimeQueueCiWrite q trx v s
  | .sidebandFrameRx frame => Sys2Proof.Machine.execSidebandFrameRx frame s
  | .sidebandFrameMissed => Sys2Proof.Machine.execSidebandFrameMissed s
  | .sidebandFrameTx => Sys2Proof.Machine.execSidebandFrameTx s
  | .functionLevelReset => Sys2Proof.Machine.execFunctionLevelReset s
  | .endpointConfigReady => Sys2Proof.Machine.execEndpointConfigReady s
  | .pcieLinkUp => Sys2Proof.Machine.execPcieLinkUp s
  | .pcieLinkDown => Sys2Proof.Machine.execPcieLinkDown s
  | .s0RecoveryTimeout => Sys2Proof.Machine.execS0RecoveryTimeout s
  | .regWrite addr acc => Sys2Proof.Machine.execRegWrite addr acc s
  | .aliasSetWrite addr v => Sys2Proof.Machine.execAliasSetWrite addr v s
  | .aliasClrWrite addr v => Sys2Proof.Machine.execAliasClrWrite addr v s
  | .aliasTglWrite addr v => Sys2Proof.Machine.execAliasTglWrite addr v s
  | .sqClearWrite addr v => Sys2Proof.Machine.execSqClearWrite addr v s
  | .snapWrite addr v => Sys2Proof.Machine.execSnapWrite addr v s
  | .stagedWordWrite addr v => Sys2Proof.Machine.execStagedWordWrite addr v s
  | .winApply n v => Sys2Proof.Machine.execWinApply n v s
  | .windowRead x len => Sys2Proof.Machine.execWindowRead x len s
  | .windowWrite x bytes => Sys2Proof.Machine.execWindowWrite x bytes s
  | .windowAtomic x op a b wide => Sys2Proof.Machine.execWindowAtomic x op a b wide s
  | .dmaEnable q e => Sys2Proof.Machine.execDmaEnable q e s
  | .dmaDisable q e => Sys2Proof.Machine.execDmaDisable q e s
  | .dmaTailWrite q e v => Sys2Proof.Machine.execDmaTailWrite q e v s
  | .dmaDescFetch q e desc => Sys2Proof.Machine.execDmaDescFetch q e desc s
  | .dmaDescComplete q e hostData hostErr => Sys2Proof.Machine.execDmaDescComplete q e hostData hostErr s
  | .rsKeyWrite n word v => Sys2Proof.Machine.execRsKeyWrite n word v s
  | .rsArm n v => Sys2Proof.Machine.execRsArm n v s
  | .rsRelease n v => Sys2Proof.Machine.execRsRelease n v s
  | .msixVectorUnmask n => Sys2Proof.Machine.execMsixVectorUnmask n s
  | .pmcRunWrite q u run => Sys2Proof.Machine.execPmcRunWrite q u run s
  | .pmcGrunWrite run => Sys2Proof.Machine.execPmcGrunWrite run s
  | .monSnap q m => Sys2Proof.Machine.execMonSnap q m s
  | .monReconfig q m reg v => Sys2Proof.Machine.execMonReconfig q m reg v s
  | .monSample q m value => Sys2Proof.Machine.execMonSample q m value s
  | .logEntryWrite => Sys2Proof.Machine.execLogEntryWrite s
  | .logLostEntry origin => Sys2Proof.Machine.execLogLostEntry origin s
  | .logCiWrite v => Sys2Proof.Machine.execLogCiWrite v s
  | .tableParityErr tbl entry loc => Sys2Proof.Machine.execTableParityErr tbl entry loc s
  | .tableRepairDone => Sys2Proof.Machine.execTableRepairDone s
  | .quadStateErr q code => Sys2Proof.Machine.execQuadStateErr q code s
  | .ringHold r err => Sys2Proof.Machine.execRingHold r err s
  | .laneTrainDone f slot => Sys2Proof.Machine.execLaneTrainDone f slot s
  | .pcRange w => Sys2Proof.Machine.execPcRange w s
  | .waitImage => Sys2Proof.Machine.execWaitImage s
  | .powerManagementState d3hot => Sys2Proof.Machine.execPowerManagementState d3hot s

end Sys2Proof.Machine
end

