-- ==== Sys2Proof/Machine/Tick.lean ====
section
/-!
DEFINITION. One tick of CLK_TIME (1.25 ns), what a step does when no command waits: what the device does by itself as time
passes and no command of the table stands for (log entry 1).
-/
namespace Sys2Proof.Machine

/-- The oldest decided time change takes effect once L has reached its apply tick (R395). -/
def applyDue (s : State) : State :=
  match s.time.applies with
  | (la, _) :: _ => if la ≤ s.time.l then timeApply s else s
  | [] => s

/-- L and LAST_VALID_AGE count one tick (R39, R406), whenever the rails are up: whether the clocks derived from CLK_ROOT go
on while ROOT_LOCK is 0 (R38, R41) the spec does not say, and here they do (DESIGN CHOICE, log entry 58). -/
def tickTime (s : State) : State :=
  applyDue { s with time := { s.time with was := some (devTicks s), l := s.time.l + 1, age := if s.time.age.toNat + 1 < 2 ^ 48 then s.time.age + 1 else s.time.age } }

/-- EXCH_OK of a link ends when its last valid exchange is older than HOLD_TIMEOUT intervals (R401). -/
def tickExchange (s : State) : State :=
  forEach s.links (fun e s =>
    let a := tpCfg e.1 + 8
    if rb s a 31 then
      let age := (link s e.1).exchAge + 1
      let s := setLink e.1 { link s e.1 with exchAge := age } s
      if holdTicks s < age then setRb a 31 false s else s
    else s) s

/-- Groups of 32 flits that a link of `lanes` lanes has carried after `l` ticks: 500 bits per lane and tick (R43, R109). -/
def groupsBy (lanes l : Nat) : Nat := l * 500 * lanes / 16384

/-- The stream of an UP link goes on while nothing waits: groups of IDLE flits, which carry GSEQ and acknowledgements, leave
at the line rate while the replay share has room (R109, R116, R118). -/
def tickStream (k : Nat) (s : State) : State :=
  let l := link s k
  let n := mapLanes (txMap s k)
  if linkUp s k && l.txWait.isEmpty && !txHolds s k && l.replay.length < replayShare s k && groupsBy n (s.time.l - 1) < groupsBy n s.time.l
  then sendGroup k [] s else s

/-- The links whose directions are open. -/
def tickStreams (s : State) : State := forEach s.links (fun e s => tickStream e.1 s) s

/-- The command running in quadrant q's forwarding table completes (R185). -/
def tickForward (q : Nat) (s : State) : State :=
  if rb s (Reg.fwdCmdStatus q) 31 then setRb (Reg.fwdCmdStatus q) 31 false s else s

/-- Event 0x001 of every running performance page: 2 cycles of CLK_CORE, 4 of CLK_MEM in the Ingot controllers (R474). -/
def tickPmc (s : State) : State :=
  forEach (s.regs.filter (fun e => inQuad e.1 && 0x640000 ≤ e.1 % 0x800000 && e.1 % 0x800000 < 0x643000 && e.1 % 0x100 == 0))
    (fun e s =>
      let x := (e.1 % 0x800000 - 0x640000) / 0x100
      pmcEvent (quadOf e.1) x 1 noInst (if 45 ≤ x then 4 else 2) s) s

/-- Cycles of an arbiter's clock in this tick (R208). -/
def arbCycles (s : State) : ArbRef → Nat
  | .ig _ _ => 4
  | .dma => s.time.l % 2
  | _ => 2

/-- The starvation counters run for an arbiter whose requests wait (R215). -/
def tickArb (a : ArbRef) (s : State) : State :=
  if arbDown s a then s else starveBits a (starveRun a (arbRequests s a) none (arbCycles s a) s)

/-- The arbiters of quadrant q. -/
def quadArbs (q : Quad) : List ArbRef := [.xb q 0, .xb q 1, .xb q 2, .ig q 0, .ig q 1, .ig q 2, .ap q]

/-- Engines of a cluster with RUN set and no wick in RUN count idle cycles (R295, R474). -/
def tickIdle (q : Nat) (s : State) : State :=
  if clusterGone s q || clusterDown s q then s
  else forRange 64 (fun e s =>
    if leRun s q e && !(List.range 32).any (fun w => (wick s q e w).state == wkRun) then
      pmcEvent q 44 0x054 e 2 (count (Ctr.lxIdleCyc q) 2 s)
    else s) s

/-- Resources that have stayed free go to waiting wicks, one of each kind a tick: one that was woken and did not take its entry,
tag or record leaves it to the next (R301). -/
def tickTags (q : Nat) (s : State) : State :=
  let waits := fun kind => (lx s q).wicks.any (fun e => e.2.state == wkWaitTag && e.2.wait == .counters kind 0)
  if clusterGone s q || clusterDown s q then s
  else
    let s := if waits lacksTag && lxTagsUsed s q < (ms s q).lxPool then tagFreed q lacksTag s else s
    let s := if waits lacksRecord && (freeRec s q).isSome then tagFreed q lacksRecord s else s
    if waits lacksEntry then forRange 64 (fun e s => if (engineOps s q e).length < 512 then entryFreed q e s else s) s else s

/-- The service link takes the packet at the head of its queue (R144). -/
def tickService (q : Nat) (s : State) : State :=
  if (sw s q).svIn.isEmpty then s else setSw q { sw s q with svIn := (sw s q).svIn.drop 1 } s

/-- PEER_WRs whose link has left UP end (R360). -/
def tickPeers (s : State) : State :=
  let ks := ((List.range 4).map (fun q => (peers s q).out.map (·.2.1))).flatten.eraseDups
  forEach ks (fun k s => if linkUp s k then s else peersLost k s) s

/-- The MGT packet that carries a log entry (R485). -/
def logHead (s : State) (entry : List Byte) : List Byte :=
  sealHead (commonHead (rf s Reg.logMgtDst 23 0) s.fuses.epid.toNat 7 0 4 (rf s Reg.logMgtJob 11 0) 0 0 32 0 ++
    leBytes 2 0x0020 ++ zeroBytes 2 ++ leBytes 2 (leAt entry 14 2) ++ zeroBytes 30) entry

/-- The entry at the head of the log's send queue leaves from the lowest-numbered quadrant in SERVICE; a lookup that misses
drops it (R485). -/
def tickLog (s : State) : State :=
  match s.log.mgt with
  | [] => s
  | e :: rest =>
    match (List.range 4).find? (quadInService s) with
    | none => s
    | some q =>
      let s := { s with log := { s.log with mgt := rest } }
      match originate q (originReq .sv 78 (.lookup (some 0)) (logHead s e) e s) s with
      | (true, s) => count1 Ctr.logMgtSent s
      | (false, s) => count1 Ctr.logMgtDrop s

/-- Alloy units that wait for AP_ARB (R474). -/
def tickAlloy (q : Nat) (s : State) : State :=
  forEach (apRequests s q) (fun u s => pmcEvent q (36 + u) 0x043 noInst 2 s) s

/-- A cycle of CLK_CORE without a scheduler cycle: the shapers' credit moves, and what waits goes on waiting (R198, R474). -/
def idleCycle (q : Nat) (s : State) : State :=
  let s := shaperStep q s
  portCounts q (stallCounts q (voqHeads (sw s q).pkts []) s)

/-- A tick is 2 cycles of CLK_CORE: those in which no SCHED_MATCH of this quadrant has run pass here. -/
def tickCycles (q : Nat) (s : State) : State :=
  let n := (sw s q).cycles
  let s := forRange (2 - n) (fun _ s => idleCycle q s) s
  setSw q { sw s q with cycles := n - 2 } s

/-- Does the request at the head of the memory-semantic service wait for a tag (R377)? -/
def waitsTag (s : State) (q : Nat) : Bool :=
  match (sw s q).msIn with
  | [] => false
  | p :: _ =>
    if needsRepair s q p.head (reqLen p.head) || reqCheck s p ≠ 0 then false
    else match reserveAnswer q (answerFlits p.head) p s with
      | some (p, held) => (msPerform q p held).isNone
      | none => false

/-- Does a CRSU task wait for a task wick (R349)? -/
def waitsWick (s : State) (q : Nat) : Bool :=
  match waitingTask s q with
  | some (_, _, x, p) => (nextTaskWick s q x.job p.digest).isNone
  | none => false

/-- The cycles of this tick in which the copier waits for MC_POOL, a request for a tag, or a task for its wick (R158, R349,
R377, R474). -/
def tickWaits (q : Nat) (s : State) : State :=
  let s := if rb s (Reg.scStatus q) 2 && !(sw s q).copyQ.isEmpty
    then count (Ctr.mcPoolWait q) 2 (pmcEvent q 32 0x025 noInst 2 s) else s
  let s := if waitsTag s q then count (Ctr.msTagWait q) 2 s else s
  if !clusterGone s q && !clusterDown s q && waitsWick s q then count (Ctr.taskWait q) 2 s else s

/-- What a tick does in quadrant q. -/
def tickQuad (q : Quad) (s : State) : State :=
  if quadShut s q then s
  else
    let s := tickWaits q (tickService q (tickForward q (tickCycles q (meterFill q 2 s))))
    forEach (quadArbs q) tickArb (tickAlloy q (tickIdle q (tickTags q s)))

/-- One tick of CLK_TIME; nothing happens while the rails are down. -/
def tick (s : State) : State :=
  if s.power.on then
    let s := tickPmc (tickStreams (tickExchange (tickTime s)))
    let s := tickQuad 3 (tickQuad 2 (tickQuad 1 (tickQuad 0 s)))
    bootAsk (tickLog (tickPeers (tickArb .dma s)))
  else s

end Sys2Proof.Machine
end

