-- ==== Sys2Proof/Machine/Scehus.lean ====
section
/-!
DEFINITION. The 128-bit words of the Scehus instructions: the fields of R309, the command a code-store word spells for a wick,
and the word of a command (R309, R310, R312 to R321, R328).
-/
namespace Sys2Proof.Machine

/-- The instruction with CLASS `cls` and OP `op`; none where the pair is reserved (R309, R312 to R321, R328). -/
def scehusOf (cls op : Nat) (w : WickId) (f : Fields) : Option Instr :=
  match cls, op with
  | 0, 0 => some (.nop w f)
  | 0, 1 => some (.add w f)
  | 0, 2 => some (.sub w f)
  | 0, 3 => some (.mul w f)
  | 0, 4 => some (.mulhu w f)
  | 0, 5 => some (.mulhs w f)
  | 0, 6 => some (.and w f)
  | 0, 7 => some (.or w f)
  | 0, 8 => some (.xor w f)
  | 0, 9 => some (.shl w f)
  | 0, 10 => some (.shr w f)
  | 0, 11 => some (.sar w f)
  | 0, 12 => some (.mins w f)
  | 0, 13 => some (.maxs w f)
  | 0, 14 => some (.minu w f)
  | 0, 15 => some (.maxu w f)
  | 0, 16 => some (.movi w f)
  | 0, 18 => some (.clz w f)
  | 0, 19 => some (.popc w f)
  | 0, 32 => some (.cmp w f)
  | 0, 33 => some (.pand w f)
  | 0, 34 => some (.por w f)
  | 0, 35 => some (.pxor w f)
  | 0, 36 => some (.pmov w f)
  | 0, 37 => some (.smovp w f)
  | 0, 48 => some (.br w f)
  | 0, 49 => some (.jmp w f)
  | 0, 50 => some (.call w f)
  | 1, 0 => some (.vmov w f)
  | 1, 1 => some (.vadd w f)
  | 1, 2 => some (.vsub w f)
  | 1, 3 => some (.vmul w f)
  | 1, 4 => some (.vfma w f)
  | 1, 5 => some (.vfnma w f)
  | 1, 6 => some (.vmin w f)
  | 1, 7 => some (.vmax w f)
  | 1, 8 => some (.vdiv w f)
  | 1, 9 => some (.vsqrt w f)
  | 1, 10 => some (.vabs w f)
  | 1, 11 => some (.vneg w f)
  | 1, 12 => some (.vand w f)
  | 1, 13 => some (.vor w f)
  | 1, 14 => some (.vxor w f)
  | 1, 16 => some (.vbcast w f)
  | 1, 17 => some (.vext w f)
  | 1, 18 => some (.vins w f)
  | 1, 19 => some (.vidx w f)
  | 1, 20 => some (.vsum w f)
  | 1, 32 => some (.vcmp w f)
  | 1, 33 => some (.vsel w f)
  | 1, 48 => some (.vcvt w f)
  | 2, 0 => some (.ldl w f)
  | 2, 1 => some (.stl w f)
  | 2, 2 => some (.ldi w f)
  | 2, 3 => some (.sti w f)
  | 2, 4 => some (.igld w f)
  | 2, 5 => some (.igst w f)
  | 2, 6 => some (.atom w f)
  | 2, 7 => some (.pwr w f)
  | 2, 8 => some (.send w f)
  | 2, 9 => some (.recv w f)
  | 3, 1 => some (.cred w f)
  | 3, 2 => some (.carb w f)
  | 3, 3 => some (.crsu w f)
  | 3, 4 => some (.cbcs w f)
  | 3, 5 => some (.cgat w f)
  | 3, 6 => some (.ca2a w f)
  | 3, 7 => some (.cbar w f)
  | 4, 0 => some (.waitcnt w f)
  | 4, 1 => some (.waitt w f)
  | 4, 2 => some (.evsig w f)
  | 4, 3 => some (.evwait w f)
  | 4, 4 => some (.yield w f)
  | 4, 5 => some (.halt w f)
  | 5, 0 => some (.lpw w f)
  | 5, 1 => some (.lpc w f)
  | 5, 2 => some (.lpcan w f)
  | 5, 3 => some (.lpst w f)
  | 6, 0 => some (.hash w f)
  | 6, 1 => some (.rand w f)
  | 6, 2 => some (.time w f)
  | 6, 3 => some (.perf w f)
  | 6, 4 => some (.trap w f)
  | 6, 5 => some (.rdws w f)
  | 6, 6 => some (.clrws w f)
  | _, _ => none

/-- CLASS, OP, wick and fields of a Scehus instruction; none of every other command. -/
def scehusCode : Instr → Option (Nat × Nat × WickId × Fields)
  | .nop w f => some (0, 0, w, f)
  | .add w f => some (0, 1, w, f)
  | .sub w f => some (0, 2, w, f)
  | .mul w f => some (0, 3, w, f)
  | .mulhu w f => some (0, 4, w, f)
  | .mulhs w f => some (0, 5, w, f)
  | .and w f => some (0, 6, w, f)
  | .or w f => some (0, 7, w, f)
  | .xor w f => some (0, 8, w, f)
  | .shl w f => some (0, 9, w, f)
  | .shr w f => some (0, 10, w, f)
  | .sar w f => some (0, 11, w, f)
  | .mins w f => some (0, 12, w, f)
  | .maxs w f => some (0, 13, w, f)
  | .minu w f => some (0, 14, w, f)
  | .maxu w f => some (0, 15, w, f)
  | .movi w f => some (0, 16, w, f)
  | .clz w f => some (0, 18, w, f)
  | .popc w f => some (0, 19, w, f)
  | .cmp w f => some (0, 32, w, f)
  | .pand w f => some (0, 33, w, f)
  | .por w f => some (0, 34, w, f)
  | .pxor w f => some (0, 35, w, f)
  | .pmov w f => some (0, 36, w, f)
  | .smovp w f => some (0, 37, w, f)
  | .br w f => some (0, 48, w, f)
  | .jmp w f => some (0, 49, w, f)
  | .call w f => some (0, 50, w, f)
  | .vmov w f => some (1, 0, w, f)
  | .vadd w f => some (1, 1, w, f)
  | .vsub w f => some (1, 2, w, f)
  | .vmul w f => some (1, 3, w, f)
  | .vfma w f => some (1, 4, w, f)
  | .vfnma w f => some (1, 5, w, f)
  | .vmin w f => some (1, 6, w, f)
  | .vmax w f => some (1, 7, w, f)
  | .vdiv w f => some (1, 8, w, f)
  | .vsqrt w f => some (1, 9, w, f)
  | .vabs w f => some (1, 10, w, f)
  | .vneg w f => some (1, 11, w, f)
  | .vand w f => some (1, 12, w, f)
  | .vor w f => some (1, 13, w, f)
  | .vxor w f => some (1, 14, w, f)
  | .vbcast w f => some (1, 16, w, f)
  | .vext w f => some (1, 17, w, f)
  | .vins w f => some (1, 18, w, f)
  | .vidx w f => some (1, 19, w, f)
  | .vsum w f => some (1, 20, w, f)
  | .vcmp w f => some (1, 32, w, f)
  | .vsel w f => some (1, 33, w, f)
  | .vcvt w f => some (1, 48, w, f)
  | .ldl w f => some (2, 0, w, f)
  | .stl w f => some (2, 1, w, f)
  | .ldi w f => some (2, 2, w, f)
  | .sti w f => some (2, 3, w, f)
  | .igld w f => some (2, 4, w, f)
  | .igst w f => some (2, 5, w, f)
  | .atom w f => some (2, 6, w, f)
  | .pwr w f => some (2, 7, w, f)
  | .send w f => some (2, 8, w, f)
  | .recv w f => some (2, 9, w, f)
  | .cred w f => some (3, 1, w, f)
  | .carb w f => some (3, 2, w, f)
  | .crsu w f => some (3, 3, w, f)
  | .cbcs w f => some (3, 4, w, f)
  | .cgat w f => some (3, 5, w, f)
  | .ca2a w f => some (3, 6, w, f)
  | .cbar w f => some (3, 7, w, f)
  | .waitcnt w f => some (4, 0, w, f)
  | .waitt w f => some (4, 1, w, f)
  | .evsig w f => some (4, 2, w, f)
  | .evwait w f => some (4, 3, w, f)
  | .yield w f => some (4, 4, w, f)
  | .halt w f => some (4, 5, w, f)
  | .lpw w f => some (5, 0, w, f)
  | .lpc w f => some (5, 1, w, f)
  | .lpcan w f => some (5, 2, w, f)
  | .lpst w f => some (5, 3, w, f)
  | .hash w f => some (6, 0, w, f)
  | .rand w f => some (6, 1, w, f)
  | .time w f => some (6, 2, w, f)
  | .perf w f => some (6, 3, w, f)
  | .trap w f => some (6, 4, w, f)
  | .rdws w f => some (6, 5, w, f)
  | .clrws w f => some (6, 6, w, f)
  | _ => none

/-- The word of an instruction (R309). -/
def scehusWord (cls op : Nat) (f : Fields) : BitVec 128 :=
  BitVec.ofNat 4 cls ++ BitVec.ofNat 8 op ++ BitVec.ofBool f.pneg ++ f.pred ++ f.d ++ f.a ++ f.b ++ f.c ++ f.mod ++ f.imm16 ++
    f.imm64

/-- CLASS and OP of a word (R309). -/
def wordClass (b : BitVec 128) : Nat := (b.extractLsb' 124 4).toNat
def wordOp (b : BitVec 128) : Nat := (b.extractLsb' 116 8).toNat

/-- The command a wick's word spells: RESERVED_INSTRUCTION where R310 makes it illegal. -/
def scehusDecode (w : WickId) (b : BitVec 128) : Instr :=
  if legal (wordClass b) (wordOp b) (fieldsOf b) then
    (scehusOf (wordClass b) (wordOp b) w (fieldsOf b)).getD (.reservedInstruction w b)
  else .reservedInstruction w b

/-- The word of a Scehus command. -/
def scehusEncode (i : Instr) : Option (BitVec 128) :=
  match scehusCode i with
  | some (cls, op, _, f) => some (scehusWord cls op f)
  | none => none

end Sys2Proof.Machine
end

