-- ==== Sys2Proof/WellFormed.lean ====
section
/-!
DEFINITION. Which commands can reach the device: the lengths and ranges that a command's operands have on their interface and
that the operand types do not already fix.  An ill-formed command names no operation of the spec; `exec` is total on it all
the same, and no statement that needs the shape of an operand is made of one (log entry 45).
-/
namespace Sys2Proof

/-- One to `n` bytes; of a write with byte enables, those not enabled count. -/
def sizeOk {α : Type} (n : Nat) (bs : List α) : Bool := 0 < bs.length && bs.length ≤ n

/-- Entries of a device table (R249, R280, R306, R383). -/
def tableSize : DevTable → Nat
  | .comm => 4096
  | .epoch => 4096
  | .region => 256
  | .role => 256

/-- Well-formedness of a command: flits are 64 bytes (R109), a group is 31 of them and its trailer (R109), a payload at most
4,096 bytes (R125), a credit record has the seven VCs (R135), a pilot window nine amplitudes (R80), a quadrant 32 temperature
sensors (R88), a descriptor 32 bytes (R432), an access of BAR0 1, 2, 4 or 8 bytes (R421). -/
def Instr.wf : Instr → Bool
  | .stagingWrite _ bytes => sizeOk 4096 bytes
  | .bootDataRx _ _ _ bytes => sizeOk 4096 bytes
  | .switchFlitRx _ flit => flit.length == 64
  | .pilotWindow _ amps => amps.length == 9
  | .thermalSample _ readings => readings.length == 32
  | .groupRx _ flits trailer => flits.length == 1984 && trailer.length == 64
  | .packetHeadRx _ head => head.length == 64
  | .packetTailRx _ payload _ => payload.length ≤ 4096
  | .crdRx _ credits => credits.length == 7
  | .crdInitRx _ credits => credits.length == 7
  | .bridgePacketRx src dst => src != dst
  | .fwdBadOp _ op => op == 0 || 6 ≤ op.toNat
  | .scrubRead _ line errs => line < 2 ^ 31 && errs.all (fun e => e.line.val == line % 64)
  | .regWrite _ acc => (acc.size == 1 || acc.size == 2 || acc.size == 4 || acc.size == 8)
  | .windowRead _ len => 0 < len && len ≤ 4096
  | .windowWrite _ bytes => sizeOk 4096 bytes
  | .windowAtomic x _ _ _ wide => x % (if wide then 8 else 4) == 0
  | .dmaDescFetch _ _ desc => desc.length == 32
  | .tableParityErr tbl entry _ => entry < tableSize tbl
  | .inputValid | .inputLost | .railFault _ | .railRetry | .feedChange _ _ | .rootUnlock | .rootLockReturn
  | .mesoGuardSet _ | .warmReset _ | .resetSeqArm _ | .resetSeqConfirm _ | .goHost | .goPeer | .hostWaitExpiry
  | .imageCheckDone | .bootReqRx _ _ | .bootNakRx _ | .bootReqTimeout _ | .bootCfgWrite _ | .bootCfgStored | .attest
  | .attestDone | .svnAdvance | .ownerEnroll | .ownerRequire | .unitReset _ _ _ | .unitHold _ _ _ | .unitRelease _ _
  | .unitResetDone _ | .quadHoldDeferred | .mateCloseDebounced _ | .mateOpen _ | .fiberEnable _ | .fiberDisable _
  | .fiberModeWrite _ _ | .linkLightDetected _ | .linkTrainDone _ | .trainStateTimeout _ | .trainBackoffExpiry _
  | .alignPeriodTx _ | .alignBlockRx _ _ _ _ _ _ | .darkPeriodExpiry _ | .darkCalDone _ _ _ | .swapVerifyTimeout _
  | .lcMaskRx _ _ | .lcDupRx _ _ _ _ | .lcReadyRx _ _ _ | .lcSwitchRx _ _ _ | .lcLendRx _ _ | .lcCalRx _ _ _
  | .laneLoss _ _ _ | .linkWaitExpiry _ _ | .ringPrebiasSettled _ | .ringSearchPeak _ | .ringSearchTimeout _
  | .ringTrackSettled _ | .aliasHeaterStepDone _ | .aliasSweepDone _ _ | .ringLockLoss _ _ _ | .thermalSlewClear _
  | .thermalTrip _ _ | .routeWrite _ _ _ _ | .lpCommit _ | .lpCommitAt _ | .lpCancel _ | .lpGapNotice _
  | .commitPrecheck _ | .commitInstant _ | .commitLightOn _ | .lpGapRx _ _ _ | .calExport | .calExportDone
  | .calUnlockFirst | .calUnlockSecond | .calUnlockLapse | .calProgram | .calProgramDone _ | .replayTimeout _
  | .parityError _ _ | .ctrlUnknownRx _ _ | .schedMatch _ | .xbarTransferDone _ _ | .backlogBroadcast _ | .mcCopy _
  | .originAlloc _ | .scPoolApply _ | .fwdInsert _ | .fwdUpdate _ | .fwdDelete _ | .fwdLookup _ | .fwdReadLoc _
  | .ageSweepVisit _ _ | .fwdNrCiWrite _ _ | .shaperWrite _ _ _ _ _ | .meterWrite _ _ _ _ | .arbDecision _ _
  | .arbSeedWrite _ _ | .arbFreeze _ | .arbUnfreeze _ | .starveDetect _ | .cmapSample _ | .contributionRx _
  | .exponentRx _ | .bcsAckRx _ | .postRx _ | .postRetry _ | .deliveryDone _ _ | .bcsTimeout _ _ | .jobHoldClear _
  | .epochWrite _ _ | .fenceDone _ _ | .commWrite _ _ | .descApply _ _ _ | .spillCfgWrite _ _ _ | .ceCrCiWrite _ _
  | .taskDispatch _ | .taskLoadDone _ | .cbarReleaseTime _ _ | .wickStart _ _ | .wickKill _ | .engineRunSet _ _
  | .engineRunClear _ _ | .codeRangeValidate _ _ _ | .codeMeasureDone _ _ | .codeRangeInvalidate _ _ _
  | .longOpComplete _ _ | .yieldQuantumExpiry _ | .waittExpiry _ | .lanternMsgRx _ | .reservedInstruction _ _
  | .nop _ _ | .add _ _ | .sub _ _ | .mul _ _ | .mulhu _ _ | .mulhs _ _ | .and _ _ | .or _ _ | .xor _ _ | .shl _ _
  | .shr _ _ | .sar _ _ | .mins _ _ | .maxs _ _ | .minu _ _ | .maxu _ _ | .movi _ _ | .clz _ _ | .popc _ _ | .cmp _ _
  | .pand _ _ | .por _ _ | .pxor _ _ | .pmov _ _ | .smovp _ _ | .br _ _ | .jmp _ _ | .call _ _ | .vmov _ _
  | .vadd _ _ | .vsub _ _ | .vmul _ _ | .vfma _ _ | .vfnma _ _ | .vmin _ _ | .vmax _ _ | .vdiv _ _ | .vsqrt _ _
  | .vabs _ _ | .vneg _ _ | .vand _ _ | .vor _ _ | .vxor _ _ | .vbcast _ _ | .vext _ _ | .vins _ _ | .vidx _ _
  | .vsum _ _ | .vcmp _ _ | .vsel _ _ | .vcvt _ _ | .ldl _ _ | .stl _ _ | .ldi _ _ | .sti _ _ | .igld _ _ | .igst _ _
  | .atom _ _ | .pwr _ _ | .send _ _ | .recv _ _ | .carb _ _ | .cred _ _ | .crsu _ _ | .cbcs _ _ | .cgat _ _
  | .ca2a _ _ | .cbar _ _ | .waitcnt _ _ | .waitt _ _ | .evsig _ _ | .evwait _ _ | .yield _ _ | .halt _ _ | .lpw _ _
  | .lpc _ _ | .lpcan _ _ | .lpst _ _ | .hash _ _ | .rand _ _ | .time _ _ | .perf _ _ | .trap _ _ | .rdws _ _
  | .clrws _ _ | .memReqService _ | .combineWindowExpiry _ _ | .peerWrRx _ | .peerAckRx _ | .stackAccessDone _ _ _
  | .retireCopyDone _ _ | .igRetireWrite _ _ | .stackDieMarkWrite _ _ | .stackOfflineSet _ | .stackOfflineClear _
  | .stackDrained _ | .stackTrainingDone _ | .regionWrite _ _ | .roleWrite _ _ | .tagPoolApply _ _ | .timeSet _
  | .timeStep _ | .timeRset _ | .timeApply | .syncRx _ _ | .followUpRx _ _ | .delayReqRx _ _ | .delayRespRx _ _
  | .pathRx _ _ | .holdoverTimeout | .servoSrcWrite _ | .servoEnWrite _ | .timeReadLatch | .ageReadLatch
  | .tqTxSend _ _ | .tqTxSent _ | .timeQueueCiWrite _ _ _ | .sidebandFrameRx _ | .sidebandFrameMissed
  | .sidebandFrameTx | .functionLevelReset | .endpointConfigReady | .pcieLinkUp | .pcieLinkDown | .s0RecoveryTimeout
  | .aliasSetWrite _ _ | .aliasClrWrite _ _ | .aliasTglWrite _ _ | .sqClearWrite _ _ | .snapWrite _ _
  | .stagedWordWrite _ _ | .winApply _ _ | .dmaEnable _ _ | .dmaDisable _ _ | .dmaTailWrite _ _ _
  | .dmaDescComplete _ _ _ _ | .rsKeyWrite _ _ _ | .rsArm _ _ | .rsRelease _ _ | .msixVectorUnmask _
  | .pmcRunWrite _ _ _ | .pmcGrunWrite _ | .monSnap _ _ | .monReconfig _ _ _ _ | .monSample _ _ _ | .logEntryWrite
  | .logLostEntry _ | .logCiWrite _ | .tableRepairDone | .quadStateErr _ _ | .ringHold _ _ | .laneTrainDone _ _
  | .pcRange _ | .waitImage | .powerManagementState _ => true

end Sys2Proof
end

