-- ==== Sys2Proof/Safety.lean ====
section
/-!
DEFINITION. The terms claims are made in: what a command answers, what it leaves alone, when a Scehus instruction issues, and
the canonical form of the tables.
-/
namespace Sys2Proof.Machine

/-- The command answers a next state, of which `P` holds. -/
def Answers (i : Instr) (s : State) (P : State → Prop) : Prop := ∃ t, exec i s = .next t ∧ P t

/-- The canonical form of Ingot memory: addresses strictly rising, and no byte listed that equals what an unlisted one reads
as. -/
def Memory.wf (m : Tbl Byte) : Bool := Tbl.wf (fun _ => 0) m

/-- Every byte of Ingot memory reads as before. -/
def SameMem (s t : State) : Prop := ∀ a, memByte t a = memByte s a

/-- Every register but those that satisfy `p` reads as before. -/
def SameRegsBut (p : Nat → Prop) (s t : State) : Prop := ∀ a, ¬ p a → reg t a = reg s a

/-- Every statistics counter but those that satisfy `p` reads as before. -/
def SameCtrsBut (p : Nat → Prop) (s t : State) : Prop := ∀ a, ¬ p a → ctr t a = ctr s a

/-! ### Scehus instructions -/

/-- The conditions of R295, R303, R310, R311 and R296 under which a wick issues an instruction whose predicate lets it run:
the engine issues from the wick, PC lies in the code range, the quantum is not spent, the encoding is legal, bit 0 of the
governing predicate is set (or the predicate governs lanes), and no register it names is pending. -/
def Issues (w : WickId) (cls op : Nat) (f : Fields) (lanes : Bool) (s : State) : Prop :=
  canIssue s w.q w.e w.w = true ∧ pcInRange s w.q w.e w.w = true ∧ quantumSpent s w.q w.e w.w = false ∧
    legal cls op f = true ∧ (lanes = true ∨ (wkGet w s).gov f % 2 = 1) ∧ (wkGet w s).busy.toNat &&& usesOf cls op f = 0

/-- A scalar, vector or predicate register of a wick. -/
def sreg (w : WickId) (s : State) (r : BitVec 5) : DWord := (wkGet w s).sregs.getD r.toNat 0
def vreg (w : WickId) (s : State) (r : BitVec 5) : BitVec 512 := (wkGet w s).vregs.getD r.toNat 0
def preg (w : WickId) (s : State) (i : Nat) : BitVec 16 := BitVec.ofNat 16 ((wkGet w s).p i)

/-- The second operand of an ALU instruction (R312): IMM64 with IMMB, else s[B]. -/
def operandB (w : WickId) (s : State) (f : Fields) : DWord := if f.mod.getLsbD 11 then f.imm64 else sreg w s f.b

/-- The instruction has moved the wick on: PC and the quantum count advance. -/
def movedOn (x : WickSt) : WickSt := { x with pc := x.pc + 1, quantum := x.quantum + 1 }

/-- What an instruction that touches only its wick leaves alone: every part of the device but the cluster's wick w, the
engine's issue pointer, WK_STATE, the counter LX_ISSUED and the counters of the cluster's performance page. -/
def WickFrame (w : WickId) (s t : State) : Prop :=
  t = { s with regs := t.regs, ctr := t.ctr, lx := t.lx } ∧
  (∀ q, q ≠ w.q.val → lx t q = lx s q) ∧
  lx t w.q = { lx s w.q with wicks := (lx t w.q).wicks, cur := (lx t w.q).cur } ∧
  (∀ i, i ≠ 32 * w.e.val + w.w.val → Tbl.get WickSt.init (lx t w.q).wicks i = Tbl.get WickSt.init (lx s w.q).wicks i) ∧
  SameRegsBut (fun a => a = Reg.wkState w.q w.e w.w ∨ ∃ i, i < 9 ∧ (a = Reg.pmcLo w.q 44 i ∨ a = Reg.pmcHi w.q 44 i)) s t ∧
  SameCtrsBut (fun a => a = Ctr.lxIssued w.q) s t

/-- The wick has moved on with only s[d] changed, to `v`. -/
def ScalarSet (w : WickId) (d : BitVec 5) (v : DWord) (s t : State) : Prop :=
  sreg w t d = v ∧ (∀ r, r ≠ d → sreg w t r = sreg w s r) ∧
    wkGet w t = { movedOn (wkGet w s) with sregs := (wkGet w t).sregs } ∧ WickFrame w s t

/-- The wick has moved on with only v[d] changed, to `v`. -/
def VectorSet (w : WickId) (d : BitVec 5) (v : BitVec 512) (s t : State) : Prop :=
  vreg w t d = v ∧ (∀ r, r ≠ d → vreg w t r = vreg w s r) ∧
    wkGet w t = { movedOn (wkGet w s) with vregs := (wkGet w t).vregs } ∧ WickFrame w s t

/-- The wick has moved on with only predicate p[i] changed, to `v`; p0 stays all ones (R293). -/
def PredicateSet (w : WickId) (i : Nat) (v : BitVec 16) (s t : State) : Prop :=
  preg w t i = (if i % 8 = 0 then 0xFFFF else v) ∧ (∀ j, j % 8 ≠ i % 8 → preg w t j = preg w s j) ∧
    wkGet w t = { movedOn (wkGet w s) with pregs := (wkGet w t).pregs } ∧ WickFrame w s t

/-! ### Shapes of Scehus claims -/

/-- An ALU instruction that writes `g a b` to s[D] (R312): it answers a next state with that effect whenever it issues. -/
def AluDoes (mk : WickId → Fields → Instr) (op : Nat) (g : DWord → DWord → DWord) : Prop :=
  ∀ w f s, Issues w 0 op f false s →
    ∃ t, exec (mk w f) s = .next t ∧ ScalarSet w f.d (g (sreg w s f.a) (operandB w s f)) s t

/-- An ALU instruction that writes `g` of its operands to predicate p[D] (R312). -/
def PredDoes (mk : WickId → Fields → Instr) (op : Nat) (g : WickId → State → Fields → BitVec 16) : Prop :=
  ∀ w f s, Issues w 0 op f false s →
    ∃ t, exec (mk w f) s = .next t ∧ PredicateSet w f.d.toNat (g w s f) s t

/-- The compare conditions of MOD[2:0] (R312): EQ, NE, signed LT and LE, unsigned LT and LE. -/
def compareHolds (c : Nat) (a b : DWord) : Bool :=
  if c = 0 then a == b else if c = 1 then a != b else if c = 2 then a.slt b else if c = 3 then a.sle b
  else if c = 4 then a.ult b else a.ule b

/-- Leading zeros of a 64-bit value. -/
def leadingZeros (a : DWord) : Nat := ((List.range 64).takeWhile (fun i => !a.getLsbD (63 - i))).length

/-- Ones in a 64-bit value. -/
def onesOf (a : DWord) : Nat := ((List.range 64).filter (fun i => a.getLsbD i)).length

/-- A jump: PC becomes `pc`, nothing else of the wick changes but the quantum count (R312). -/
def Jumped (w : WickId) (pc : BitVec 18) (s t : State) : Prop :=
  wkGet w t = { wkGet w s with pc := pc, quantum := (wkGet w s).quantum + 1 } ∧ WickFrame w s t

/-! ### Shapes of vector claims -/

/-- Lane i of a vector register, by the instruction's lane type. -/
def lane (w : WickId) (s : State) (f : Fields) (r : BitVec 5) (i : Nat) : Nat :=
  (vreg w s r).toNat / 2 ^ (laneW f * i) % 2 ^ laneW f

/-- Does the governing predicate enable lane i (R293, R311)? -/
def enabled (w : WickId) (s : State) (f : Fields) (i : Nat) : Prop := laneOn ((wkGet w s).gov f) (laneW f) i = true

/-- The sticky flags after an instruction that raises `fl` (R313): a set flag stays set, INV, DZ, OVF and UNF of `fl` are
added, and UNF or INV may be added where IEEE 754 leaves it to the implementation (log entry 40). -/
def FlagsAdded (w : WickId) (fl : Nat) (s t : State) : Prop :=
  ∃ unf inv : Bool, (wkGet w t).fp = (wkGet w s).fp ||| fl % 16 ||| (if unf && fl.testBit 4 then 8 else 0) |||
    (if inv && fl.testBit 5 then 1 else 0)

/-- What an instruction that may set flags leaves alone: as WickFrame, but for the number of free values taken. -/
def FloatFrame (w : WickId) (s t : State) : Prop := WickFrame w { s with freeCtr := t.freeCtr } t

/-- The wick has moved on with the enabled lanes of v[D] set to `g i`, the others and every other register unchanged, and the
flags of the enabled lanes added (R311, R313). -/
def LanesSet (w : WickId) (f : Fields) (g : Nat → FRes) (s t : State) : Prop :=
  (∀ i, i < 512 / laneW f → enabled w s f i → lane w t f f.d i = (g i).bits % 2 ^ laneW f) ∧
  (∀ i, i < 512 / laneW f → ¬ enabled w s f i → lane w t f f.d i = lane w s f f.d i) ∧
  (∀ r, r ≠ f.d → vreg w t r = vreg w s r) ∧
  (∃ fl, (∀ k, fl.testBit k = true ↔ ∃ i, i < 512 / laneW f ∧ enabled w s f i ∧ (g i).flags.testBit k = true) ∧
    FlagsAdded w fl s t) ∧
  wkGet w t = { movedOn (wkGet w s) with vregs := (wkGet w t).vregs, fp := (wkGet w t).fp } ∧ FloatFrame w s t

/-- A vector instruction that writes `g` of the state and the lane's number to the enabled lanes of v[D]. -/
def VecDoes (mk : WickId → Fields → Instr) (op : Nat) (g : WickId → State → Fields → Nat → FRes) : Prop :=
  ∀ w f s, Issues w 1 op f true s → ∃ t, exec (mk w f) s = .next t ∧ LanesSet w f (g w s f) s t

/-- A lane operation that raises no flag. -/
def bare (g : WickId → State → Fields → Nat → Nat) : WickId → State → Fields → Nat → FRes := fun w s f i => ⟨g w s f i, 0⟩

/-- Two-operand lanes: floating point by `fp` at the lane's format, integers by `int` on lanes of its width. -/
def twoLanes (fp : Nat → Nat → Nat → FRes) (int : Nat → Int → Int → Int) (w : WickId) (s : State) (f : Fields) (i : Nat) : FRes :=
  let a := lane w s f f.a i
  let b := lane w s f f.b i
  if f.mod.getLsbD 1 then ⟨ofSigned (laneW f) (int (laneW f) (toSigned (laneW f) a) (toSigned (laneW f) b)), 0⟩
  else fp (laneFmt f) a b

/-- Multiply-add lanes, the product negated where `neg` says so. -/
def fmaLanes (neg : Bool) (w : WickId) (s : State) (f : Fields) (i : Nat) : FRes :=
  let a := lane w s f f.a i
  let b := lane w s f f.b i
  let c := lane w s f f.c i
  if f.mod.getLsbD 1 then
    let p := toSigned (laneW f) a * toSigned (laneW f) b
    ⟨ofSigned (laneW f) ((if neg then -p else p) + toSigned (laneW f) c), 0⟩
  else fFma (laneFmt f) neg a b c

/-! ### Shapes of memory and long-operation claims -/

/-- The address s[A] + IMM64 (R303). -/
def address (w : WickId) (s : State) (f : Fields) : Nat := (sreg w s f.a + f.imm64).toNat

/-- The LS byte of an engine at an address. -/
def lsByte (s : State) (q e a : Nat) : Byte := Tbl.get 0 (lx s q).ls (lsSize * e + a)

/-- A scalar loaded from bytes: zero-extended, or sign-extended with SX (R315). -/
def loaded (f : Fields) (bs : List Byte) : DWord :=
  if f.mod.getLsbD 6 then (BitVec.ofNat (8 * bs.length) (leNat bs)).signExtend 64 else BitVec.ofNat 64 (leNat bs)

/-- The byte that a store of SIZE takes from B at offset i (R315). -/
def storedByte (w : WickId) (s : State) (f : Fields) (i : Nat) : Byte :=
  if f.mod.toNat % 8 = 4 then (vreg w s f.b).extractLsb' (8 * i) 8 else (sreg w s f.b).extractLsb' (8 * i) 8

/-- Registers that show a wick, its engine and its cluster: WK_STATE, LE_STATUS, LX_STATUS and the cluster's performance
counters. -/
def LanternReg (w : WickId) (a : Nat) : Prop :=
  a = Reg.wkState w.q w.e w.w ∨ a = Reg.leStatus w.q w.e ∨ a = Reg.lxStatus w.q ∨
    ∃ i, i < 9 ∧ (a = Reg.pmcLo w.q 44 i ∨ a = Reg.pmcHi w.q 44 i)

/-- What a long operation's issue leaves alone in its cluster: LS, code, messages, the other wicks and the other clusters. -/
def ClusterFrame (w : WickId) (s t : State) : Prop :=
  (∀ q, q ≠ w.q.val → lx t q = lx s q) ∧
  lx t w.q = { lx s w.q with wicks := (lx t w.q).wicks, cur := (lx t w.q).cur, ops := (lx t w.q).ops } ∧
  (∀ i, i ≠ 32 * w.e.val + w.w.val → Tbl.get WickSt.init (lx t w.q).wicks i = Tbl.get WickSt.init (lx s w.q).wicks i)

/-- A long operation has been issued (R295, R298): its entry is the engine's newest, its counter OCc and its pending
registers are marked, PC has moved on, and its wick has yielded to the next. -/
def LongIssued (w : WickId) (f : Fields) (kind : OpKind) (tag : Bool) (busy : Nat) (fin : Option OpEnd) (s t : State) : Prop :=
  let x := wkGet w s
  let c := f.mod.toNat / 16 % 4
  wkGet w t = { x with pc := x.pc + 1, quantum := 0, oc := listPut 4 0 x.oc c (x.oc.getD c 0 + 1),
                       busy := x.busy ||| BitVec.ofNat 48 busy } ∧
  (lx t w.q).ops = (lx s w.q).ops ++ [⟨s.accCtr, w.e, w.w, c, kind, x.pc.toNat, tag, fin, []⟩] ∧
  Tbl.get 0 (lx t w.q).cur w.e = (w.w.val + 1) % 32 ∧
  rf t (Reg.leStatus w.q w.e) 25 16 = (engineOps t w.q w.e).length

/-- What an access to Ingot leaves alone beside its cluster and the path of its request. -/
def AccessFrame (w : WickId) (s t : State) : Prop :=
  t = { s with regs := t.regs, ctr := t.ctr, lx := t.lx, accCtr := t.accCtr, sw := t.sw, igStacks := t.igStacks,
               pktCtr := t.pktCtr, freeCtr := t.freeCtr } ∧
  ClusterFrame w s t ∧ SameRegsBut (fun a => LanternReg w a ∨ a = Reg.scStatus w.q) s t ∧
  SameCtrsBut (fun a => a = Ctr.lxIssued w.q ∨ a = Ctr.lxYields w.q) s t

/-- Nothing has been sent: no packet has been numbered, and no origin cell taken. -/
def NothingSent (q : Nat) (s t : State) : Prop := t.pktCtr = s.pktCtr ∧ reg t (Reg.scStatus q) = reg s (Reg.scStatus q)

/-- The request of an access (R302): in the engine's own quadrant it joins the stack's queue as requester 1 of IG_ARB, else it
leaves over the bridge as a memory request for the service of the quadrant that homes it, or waits for origin cells (R515). -/
def Requested (w : WickId) (a : Nat) (op : MemOp) (flags : Nat) (cls payload : List Byte) (s t : State) : Prop :=
  let h := homeQuad a
  if h = w.q.val then
    (∃ id, (stack t (stackOf s a)).accs =
      (stack s (stackOf s a)).accs ++ [⟨id, 1, 0, true, false, 0, a, op, .op w.q s.accCtr⟩]) ∧
    (∀ n, n ≠ stackOf s a → stack t n = stack s n) ∧ (∀ q, (sw t q) = { sw s q with cmap := (sw t q).cmap }) ∧
    NothingSent w.q s t
  else
    t.igStacks = s.igStacks ∧ (∀ q, q ≠ w.q.val → sw t q = sw s q) ∧
    ∃ head, head = sealHead (commonHead s.fuses.epid.toNat s.fuses.epid.toNat 1 0 1 (leJob s w.q w.e)
        (rf s (Reg.jobEpoch (leJob s w.q w.e)) 15 0) 0 payload.length flags ++ cls) payload ∧
      ((∃ r, (sw t w.q).originQ = (sw s w.q).originQ ++ [r] ∧ (sw t w.q).pkts = (sw s w.q).pkts ∧ r.dest = .unit h .ms ∧
          r.head = head ∧ r.payload = payload ∧ r.wick = some (w.q.val, s.accCtr)) ∨
        (∃ p, (sw t w.q).pkts = (sw s w.q).pkts ++ [p] ∧ (sw t w.q).originQ = (sw s w.q).originQ ∧ p.dest = .unit h .ms ∧
          p.head = head ∧ p.payload = payload ∧ p.tail = .good ∧ p.wick = some (w.q.val, s.accCtr)))

/-- No table entry that an access needs is in repair (R487). -/
def NoRepair (w : WickId) (s : State) (a : Nat) : Prop :=
  ∀ r, regionOf s a 1 = some r → repairing s w.q 2 r = false ∧ repairing s w.q 3 r = false

/-- An instruction that reaches Ingot issues (R301, R308): it has an entry and a tag, and the checks give no fault. -/
def IngotIssues (w : WickId) (op : Nat) (f : Fields) (fault : Nat) (s : State) : Prop :=
  Issues w 2 op f false s ∧ roomFor s w.q w.e true = true ∧ NoRepair w s (address w s f) ∧ fault = 0

/-! ### Shapes of COL, SYN, LPX and SYS claims -/

/-- What an instruction that yields leaves alone: as WickFrame, but for the engine's issue pointer and LX_YIELDS. -/
def YieldFrame (w : WickId) (s t : State) : Prop :=
  t = { s with regs := t.regs, ctr := t.ctr, lx := t.lx } ∧ ClusterFrame w s t ∧ (lx t w.q).ops = (lx s w.q).ops ∧
  SameRegsBut (LanternReg w) s t ∧ SameCtrsBut (fun a => a = Ctr.lxIssued w.q ∨ a = Ctr.lxYields w.q) s t

/-- The wick has moved on, and yielded in the given state and wait (R294, R295). -/
def Yielded (w : WickId) (state : Nat) (wait : WaitFor) (s t : State) : Prop :=
  wkGet w t = { wkGet w s with pc := (wkGet w s).pc + 1, quantum := 0, state := state, wait := wait } ∧
  Tbl.get 0 (lx t w.q).cur w.e = (w.w.val + 1) % 32 ∧ YieldFrame w s t

/-- The wick has moved on with nothing else changed. -/
def OnlyMoved (w : WickId) (s t : State) : Prop := wkGet w t = movedOn (wkGet w s) ∧ WickFrame w s t

/-- One event of an interrupt source (R436): COUNT of its INT_MAP goes up by one, unless the host interface is in reset. -/
def Raised (n : Nat) (s t : State) : Prop :=
  rf t (Reg.intMap n) 23 16 =
    if perstHigh s then (rf s (Reg.intMap n) 23 16 + 1) % 256 else rf s (Reg.intMap n) 23 16

/-- The event counted once more; counters saturate (R427). -/
def Counted (a : Nat) (s t : State) : Prop := (ctr t a).toNat = min ((ctr s a).toNat + 1) (2 ^ 48 - 1)

/-- A COL instruction whose checks all pass (R328, R330) on operand block `b`, its chunk `x` and record `ix`. -/
def ColPasses (w : WickId) (f : Fields) (op : Nat) (b : List Byte) (x : SlotSt) (ix : Nat) (s : State) : Prop :=
  let q := w.q.val
  let a := address w s f
  let job := leJob s q w.e
  let span := spanOf (reg s (Reg.comm0 (obComm b)))
  Issues w 3 op f false s ∧ (∀ r ∈ s.repairs, r.2.2 ≠ q) ∧ roomFor s q w.e false = true ∧ freeRec s q = some ix ∧
  a % 64 = 0 ∧ a + 256 ≤ lsSize ∧ b = (lsLoad q w.e a 256 s).1 ∧
  obComm b < 4096 ∧ rb s (Reg.comm0 (obComm b)) 31 = true ∧ commJob s (obComm b) = job ∧
  (∃ d, selectDesc s (obComm b) (obSeq b) = some d ∧
    x = bornSlot s job (obComm b) (obSeq b) (obChunk0 b) (descWords s (obComm b) d).1 (descWords s (obComm b) d).2) ∧
  descMatches op b x = true ∧ operandsOk s q w.e op (f.mod.getLsbD 6) b x span = true ∧
  rangesFault s job (colRanges op b x span) = none ∧
  rangesAway s (rf s (Reg.comm0 (obComm b)) 15 14) (colRanges op b x span) = none

/-- A COL instruction but CA2A takes a record and posts its chunks on the rings of their reducing quadrants (R331, R332). -/
def ColDoes (mk : WickId → Fields → Instr) (op : Nat) : Prop :=
  ∀ w f s b x ix, ColPasses w f op b x ix s →
    (op = colCrsu → lacksEngine s (rf s (Reg.comm0 (obComm b)) 15 14) (spanOf (reg s (Reg.comm0 (obComm b)))) (obNchunk b)
      (leJob s w.q w.e) (rangeDigest s w.q (leRange s w.q w.e)) = none) →
    ∃ t, exec (mk w f) s = .next t ∧
      LongIssued w f (.col f.d.toNat ix) false (2 ^ f.d.toNat) none s t ∧ ClusterFrame w s t ∧
      fiRec? t w.q ix = some (colRecord w op (address w s f) s.accCtr (leJob s w.q w.e) (f.mod.getLsbD 6)
        (rangeDigest s w.q (leRange s w.q w.e)) b) ∧
      (∀ i, i ≠ ix → fiRec? t w.q i = fiRec? s w.q i) ∧
      (∀ p, p < 4 → (fi t p).ring = (fi s p).ring ++
        (postsOf w.q ix op (leJob s w.q w.e) (rf s (Reg.jobEpoch (leJob s w.q w.e)) 15 0)
          (spanOf (reg s (Reg.comm0 (obComm b)))) (f.mod.getLsbD 6) (f.mod.getLsbD 7)
          (rangeDigest s w.q (leRange s w.q w.e)) b x).filter (fun p' => reducingQuad s p'.comm p'.chunk == p) ∧
        (fi t p).queue = (fi s p).queue) ∧
      Counted (Ctr.fiIssued w.q) s t ∧
      t = { s with regs := t.regs, ctr := t.ctr, lx := t.lx, accCtr := t.accCtr, fi := t.fi, freeCtr := t.freeCtr } ∧
      SameRegsBut (fun a => LanternReg w a ∨ a = Reg.fiStatus w.q ∨ ∃ j, j < 8 ∧ a = Reg.fiRec w.q ix j) s t ∧
      SameCtrsBut (fun a => a = Ctr.lxIssued w.q ∨ a = Ctr.lxYields w.q ∨ a = Ctr.fiIssued w.q) s t

/-! ### Shapes of claims about the device's other units -/

/-- Only registers that satisfy `p` may have changed. -/
def OnlyRegsChanged (p : Nat → Prop) (s t : State) : Prop := t = { s with regs := t.regs } ∧ SameRegsBut p s t

/-- What raising a source, and sending or withholding its message, may change (R436): its INT_MAP, the PBA and the outputs. -/
def IntReg (n a : Nat) : Prop := a = Reg.intMap n ∨ ∃ j, a = Reg.msixPba j

/-- The newest event of a queue of the Ember log is the given one, stamped with device time (R480, R481). -/
def Logged (origin code cls kind unit : Nat) (data : List Byte) (s t : State) : Prop :=
  t.log.queues.getD origin [] =
    s.log.queues.getD origin [] ++ [⟨BitVec.ofNat 64 (devTicks s), code, origin, cls, kind, unit, data⟩]

/-- The device is as a power-on finds it but for its pins, fuses and NOR (R444). -/
def Dark (s t : State) : Prop :=
  t.power.on = false ∧ t.fuses = s.fuses ∧ t.pending = s.pending ∧ t.mem = [] ∧ t.links = [] ∧ t.fibers = [] ∧ t.ce = [] ∧
    t.fi = [] ∧ t.lx = [] ∧ t.sw = [] ∧ t.fwd = [] ∧ t.log = LogSt.init ∧ t.time = TimeSt.init ∧
    (∀ a, ctr t a = 0) ∧ (∀ a, pinAddr a = true → reg t a = reg s a)

/-- A packet for link k with the given payload, its header meeting `p`, waits for cells or is queued (R146, R515). -/
def Queued (q k : Nat) (p : List Byte → Prop) (payload : List Byte) (t : State) : Prop :=
  (∃ o ∈ (sw t q).originQ, o.dest = .link k ∧ o.payload = payload ∧ p o.head) ∨
  (∃ x ∈ (sw t q).pkts, x.dest = .link k ∧ x.payload = payload ∧ p x.head)

/-- A boot message of R457. -/
def bootMessage (type off : Nat) (h : List Byte) : Prop :=
  hKind h = 4 ∧ hVc h = 7 ∧ leAt h 24 2 = type ∧ leAt h 28 4 = off

/-- The stage and LAST_ERR after an error code of the boot ROM (R450): back in WAIT_IMAGE. -/
def BootFailed (code : Nat) (s t : State) : Prop :=
  bootStage t = 0x20 ∧ rf t Reg.bootStatus 23 16 = code % 256 ∧ Raised 258 s t


/-! ### Shapes of claims about fibers, links and rings -/

/-- Link k can run its training: its fiber is enabled and terminates it, at a width at which it exists, in a quadrant that
answers (R52, R57). -/
def Trains (k : Nat) (s : State) : Prop :=
  fiberEn s (linkFiber k) = true ∧ isTerminated s (linkFiber k) = true ∧ linkActive s k = true ∧
    quadShut s (linkQuad k) = false

/-- Only hidden state of link k has changed, to `l`. -/
def LinkSet (k : Nat) (l : LinkSt) (s t : State) : Prop :=
  link t k = l ∧ (∀ j, j ≠ k → link t j = link s j) ∧ t = { s with links := t.links }

/-- Ring r is in state `st`, and no other ring has moved (R81). -/
def RingIn (r : Nat) (st : RingState) (s t : State) : Prop :=
  ringState t r = st ∧ (∀ j, j < 35100 → j ≠ r → ringState t j = ringState s j)


/-! ### Shapes of claims about groups and packets -/

/-- A performance counter register of a unit page (R473). -/
def PmcReg (q u a : Nat) : Prop := ∃ i, i < 9 ∧ (a = Reg.pmcLo q u i ∨ a = Reg.pmcHi q u i)

/-- The group's LCRC is right (R111). -/
def lcrcGood (flits trailer : List Byte) : Prop :=
  crc32c (padTo 1984 flits ++ (padTo 64 trailer).take 60) = tLcrc (padTo 64 trailer)

/-- Link k has received no flit that its tile keeps: only its own hidden state and counters, RX_GSEQ and its tile's
performance counters have changed. -/
def LinkRxFrame (k : Nat) (s t : State) : Prop :=
  t = { s with regs := t.regs, ctr := t.ctr, links := t.links } ∧ (∀ j, j ≠ k → link t j = link s j) ∧
    SameRegsBut (fun a => a = aLl k ∨ PmcReg (linkQuad k) (linkTile k) a) s t

/-- Link k's transmitter sends nothing more by itself: no flits wait, or its replay share is full, or it holds its flits (R99,
R118). -/
def NothingWaits (k : Nat) (s : State) : Prop :=
  (link s k).txWait = [] ∨ replayShare s k ≤ (link s k).replay.length ∨ txHolds s k = true

/-- The outputs of a replay: each group again with its GSEQ and its flits, acknowledging `ack`, its 32 flits dealt to the slots
of the map from place `pos` of the row on (R54, R117). -/
def Resent (k ack : Nat) (slots : List Nat) : List TxGroup → Nat → List Emit → List Emit
  | [], _, out => out
  | g :: gs, pos, out =>
    Resent k ack slots gs (rowAfter pos 32 slots.length) (.group k g.gseq ack true false g.flits (stripe slots pos 32) :: out)

/-- A HEAD may be taken on link k: it is UP, its quadrant answers, no memory of the quadrant has stopped, and no packet is
open (R131, R488). -/
def headReady (k : Nat) (s : State) : Prop :=
  linkUp s k = true ∧ quadShut s (linkQuad k) = false ∧ s.unit.stopped.contains (linkQuad k) = false ∧
    (link s k).rxOpen = none

/-- The packet of link k is dropped: nothing is queued for it, and its tail will be passed over (R131). -/
def headDropped (k : Nat) (h : List Byte) (t : State) : Prop := (link t k).rxOpen = some ⟨none, h, none⟩

/-- The packet of link k is queued for `d`: it waits in its tile's VOQ for its tail (R144, R146). -/
def headQueued (k : Nat) (h : List Byte) (d : Dest) (t : State) : Prop :=
  ∃ id, (link t k).rxOpen = some ⟨some id, h, none⟩ ∧ ∃ p ∈ (sw t (linkQuad k)).pkts, p.id = id ∧ p.rx = id ∧ p.dest = d ∧
    p.vc = hVc h ∧ p.flits = hFlits h ∧ p.inp = linkTile k ∧ p.cells = .rx k (hVc h) ∧ p.tail = .waiting

/-! ### Shapes of claims about the switch core -/

/-- A packet as it stands in its queue, whether or not it crosses. -/
def QPkt.still (p : QPkt) : QPkt := { p with crossing := none }

/-- A switch packet as its unit receives it (R144). -/
def QPkt.given (p : QPkt) : UPkt := ⟨p.inLink, p.head, p.payload, p.born, p.wick, none⟩

/-! ### Shapes of claims about forwarding -/

/-- A forwarding command may run: its quadrant answers and no command is BUSY (R185). -/
def FwdReady (q : Nat) (s : State) : Prop :=
  regGated s (Reg.fwdCmd q) = false ∧ rb s (Reg.fwdCmdStatus q) 31 = false

/-- The command is BUSY with RESULT `n` (R185). -/
def FwdResult (q n : Nat) (t : State) : Prop :=
  rb t (Reg.fwdCmdStatus q) 31 = true ∧ rf t (Reg.fwdCmdStatus q) 3 0 = n

/-- What a forwarding command leaves alone beside its quadrant's tables: all but the registers of its interface. -/
def FwdRegs (q : Nat) (s t : State) : Prop :=
  t = { s with regs := t.regs, fwd := t.fwd } ∧ (∀ p, p ≠ q → fwd t p = fwd s p) ∧
    SameRegsBut (fun a => a ∈ [Reg.fwdCmdStatus q, Reg.fwdLoc q, Reg.fwdKey q, Reg.fwdData q, Reg.fwdUsed q,
      Reg.fwdOvfUsed q, Reg.fwdStatus q]) s t

/-- What a command that writes the table leaves alone beside it. -/
def FwdFrame (q : Nat) (s t : State) : Prop := FwdRegs q s t ∧ fwd t q = { fwd s q with table := (fwd t q).table }

/-- What a command that shows location `loc` leaves alone: it is noted as the table's last use (R192). -/
def FwdSeen (q loc : Nat) (s t : State) : Prop :=
  FwdRegs q s t ∧ fwd t q = { fwd s q with touched := some ⟨loc, s.time.l, none⟩ }

/-- Only location `loc` of the table has changed, to `e`. -/
def FwdPuts (q loc : Nat) (e : Option FwdEntry) (s t : State) : Prop :=
  fwdAt t q loc = e ∧ ∀ l, l ≠ loc → fwdAt t q l = fwdAt s q l

/-- The entry that FWD_KEY and FWD_DATA describe, stamped with NOW16 (R183, R185). -/
def fwdNew (s : State) (q : Nat) : FwdEntry :=
  ⟨fwdKey s q, rb s (Reg.fwdData q) 31, rb s (Reg.fwdData q) 30, false, rf s (Reg.fwdData q) 27 16, now16 s⟩

/-- FWD_KEY and FWD_DATA show location `loc` (R183, R185). -/
def FwdShows (q : Nat) (e : Option FwdEntry) (t : State) : Prop :=
  match e with
  | none => reg t (Reg.fwdKey q) = 0 ∧ reg t (Reg.fwdData q) = 0
  | some e => reg t (Reg.fwdKey q) = BitVec.ofNat 32 (2 ^ 31 + e.dst) ∧ reg t (Reg.fwdData q) = e.data

/-! ### Shapes of claims about the collective engine -/

/-- The packet at the head of the engine's queue is `p`, of class `cls`, and no table entry it needs is in repair (R264, R487). -/
def CeTakes (q cls : Nat) (p : UPkt) (s : State) : Prop :=
  quadShut s q = false ∧ (sw s q).ceIn.head? = some p ∧ ceClass s q p.head = cls ∧
    repairing s q 0 (cComm p.head) = false ∧ repairing s q 1 (hJob p.head) = false

/-- The command that takes a packet of a class from the engine's queue. -/
def ceCommand (q : Quad) (cls : Nat) : Instr :=
  if cls = 0 then .contributionRx q else if cls = 1 then .exponentRx q else .bcsAckRx q

/-- The packet passes R249, R251 and R280: its communicator serves its job, its link is a member, its epoch is the job's;
`e` is its live chunk. -/
def Admitted (q : Nat) (p : UPkt) (e : Option (Nat × SlotSt)) (s : State) : Prop :=
  commServes s p.head = true ∧ epochCmp s (hJob p.head) (hEpoch p.head) = 0 ∧
  findSlot s q (hJob p.head) (cComm p.head) (cSeq p.head) (cChunk p.head) = e ∧
  (groupLinks s q (match e with
    | some x => x.2.downGrp
    | none => rf s (Reg.comm0 (cComm p.head)) 11 0)).contains p.link = true

/-- The chunk with the packet's signature and first arrival noted (R269, R277). -/
def noted (q : Nat) (x : SlotSt) (p : UPkt) (s : State) : SlotSt :=
  (noteSig q (if x.tFirst.isNone then { x with tFirst := some (devTicks s) } else x) (cSig p.head) p.link s).2.1

/-- The engine answers the packet with a RETRY on its link (R259). -/
def Retried (q : Nat) (p : UPkt) (cstatus : Nat) (s t : State) : Prop :=
  Queued q p.link (fun h => h = retryHead s.fuses.epid.toNat p.head cstatus) [] t

/-- Word 0 of COMM entry c after a write of `v`. -/
def commNew (s : State) (c : Nat) (v : Word) : Word :=
  (reg s (Reg.comm0 c) &&& ~~~ rwMaskAt (Reg.comm0 c)) ||| (v &&& rwMaskAt (Reg.comm0 c))

/-! ### Shapes of claims about wicks and engines -/

/-- The wick stands at an instruction that its engine would issue now (R295, R303). -/
def AtIssue (w : WickId) (s : State) : Prop :=
  canIssue s w.q w.e w.w = true ∧ pcInRange s w.q w.e w.w = true ∧ quantumSpent s w.q w.e w.w = false

/-- The wick is in FAULT with the given code and PC (R322). -/
def Faulted (w : WickId) (code : Nat) (impr : Bool) (pc : Nat) (t : State) : Prop :=
  (wkGet w t).state = 6 ∧ reg t (Reg.wkFault w.q w.e w.w) = BitVec.ofNat 32 (b2n impr * 2 ^ 31 + pc % 2 ^ 18 * 2 ^ 8 + code)

/-! ### Shapes of claims about memory -/

/-- An access waits at the stack that holds its address, as requester 0 of IG_ARB (R208, R378). -/
def Joined (q : Nat) (a : Nat) (op : MemOp) (owner : AccOwner) (s t : State) : Prop :=
  (stack t (stackOf s a)).accs = (stack s (stackOf s a)).accs ++ [⟨s.accCtr, 0, 0, true, false, 0, a, op, owner⟩] ∧
    (∀ n, n ≠ stackOf s a → stack t n = stack s n) ∧ t.mem = s.mem ∧ (∀ p, p ≠ q → ms t p = ms s p)

/-- A service's answer to request p is queued: to the link it came on, or to the Lantern cluster whose wick sent it (R302, R373). -/
def ReqAnswered (q : Nat) (p : UPkt) (head : List Byte) (t : State) : Prop :=
  match p.wick with
  | none => Queued q p.link (fun h => h = head) [] t
  | some (b, id) =>
    (∃ o ∈ (sw t q).originQ, o.dest = .unit b .lx ∧ o.wick = some (b, id) ∧ o.head = head) ∨
    (∃ x ∈ (sw t q).pkts, x.dest = .unit b .lx ∧ x.wick = some (b, id) ∧ x.head = head)

/-- The long operation's end is noted (R298). -/
def OpEnded (q id : Nat) (e : OpEnd) (s t : State) : Prop :=
  (lx t q).ops = modifyFirst (fun o => o.id == id) (fun o => { o with fin := some e }) (lx s q).ops

/-- The granted access may complete now (R212, R378). -/
def AccDue (n : Nat) (a : Access) (s : State) : Prop :=
  (stack s n).accs.find? (fun x => x.id == a.id) = some a ∧ a.granted = true ∧ accReady s n a = true

/-! ### Time -/

/-- The 80-bit value of SET_FRAC, SET_LO and a written SET_HI (R410). -/
def timeSetValue (s : State) (v : Word) : Nat :=
  rf s Reg.setFrac 15 0 + (reg s Reg.setLo).toNat * 2 ^ 16 + v.toNat * 2 ^ 48

/-- The decided changes that a host write of TIME_SET or TIME_STEP leaves: those the running servo decided in the same tick are
discarded (R410). -/
def keptApplies (s : State) : List (Nat × TimeChange) :=
  if servoRuns s then s.time.applies.filter (fun e => !decidedNow s e) else s.time.applies


/-! ### Shapes of claims about host accesses -/

/-- Register families of the service die whose writes do more than set RW fields, by offset. -/
def deviceRules : List Nat :=
  [0x20, 0x104, 0x108, 0x120, 0x200, 0x4004, 0x1000c, 0x21000, 0x60000, 0x80000, 0x80004, 0x80008, 0x8000c, 0x80010, 0x80014,
    0x80018, 0x80024, 0xc0000, 0xc3000, 0x100000, 0x100060, 0x100064, 0x100070, 0x100078, 0x100068, 0x100074, 0x10007c,
    0x20000c, 0x400004, 0x400200, 0x800000, 0x800004]

/-- Register families of a quadrant whose writes do more than set RW fields, by offset. -/
def quadRules : List Nat :=
  [0x0, 0x40040, 0x100004, 0x100010, 0x100014, 0x100018, 0x10001c, 0x100034, 0x100038, 0x140004, 0x300000, 0x300080, 0x210000, 0x210004,
    0x210008, 0x220000, 0x220004, 0x220008, 0x22000c, 0x220010, 0x240004, 0x240804, 0x241004, 0x480000, 0x480008, 0x48000c,
    0x480034, 0x500100, 0x500104, 0x500108, 0x510000, 0x510008, 0x51000c, 0x510100, 0x540000, 0x540010, 0x540024, 0x54002c,
    0x5c0000, 0x5c000c, 0x600000, 0x610000, 0x610004, 0x610014, 0x640040, 0x640044, 0x680000, 0x680004, 0x680008, 0x680010,
    0x400000, 0x400010, 0x400008, 0x40000c]

/-- A register of family `d` at `a` outside the calibration window, with no rule of its own for a write, no staged value, no
sequence-cleared flag and no snapshot, which a host write reaches. -/
def PlainReg (d : RDef) (a : Nat) (s : State) : Prop :=
  regDef a = some d ∧ (a < 0xC00000 ∨ 0x1000000 ≤ a) ∧ isStaged d = false ∧ isSnap d = false ∧ sqBit d = none ∧
    d.off ∉ (if d.quad then quadRules else deviceRules) ∧ writeReaches s d a = true

/-- The host interface answers at BAR0, and the access of 4 bytes is aligned (R415, R417, R421). -/
def Answered (a : BarAddr) (s : State) : Prop := bar0On s = true ∧ a.toNat % 4 = 0

/-- A host access that the function answers as an Unsupported Request, which is logged (R417, R443). -/
def Unsupported (s t : State) : Prop :=
  t = { s with log := t.log } ∧ Logged 4 0x0804 clsUnit 9 0 (dataG (2 ^ 20) 0) s t

/-- Is the offset that of word 6 or 7 of a route entry, which hold no field? -/
def isRouteSpare (a : Nat) : Prop :=
  inQuad a = true ∧ 0x610000 ≤ a % 0x800000 ∧ a % 0x800000 < 0x618000 ∧ 24 ≤ a % 32

/-- An aligned 32-bit access that writes `v`. -/
def word32 (v : Word) : BarAccess := ⟨4, true, v.setWidth 64⟩

/-- The value of a register after a write of `v`: only its RW fields take it (R18). -/
def written (d : RDef) (old v : Word) : Word := (old &&& ~~~ d.rw) ||| (v &&& d.rw)

/-- Only the register at `a` has changed, to `v`. -/
def RegSet (a : Nat) (v : Word) (s t : State) : Prop := reg t a = v ∧ OnlyRegsChanged (fun b => b = a) s t

/-- One page of a BAR2 access may be performed: its aperture is enabled, its Ingot address populated, its stack ONLINE (R429). -/
def WinOk (s : State) (x n : Nat) : Prop :=
  ∃ a, winAddr s x = some a ∧ allPopulated s a n = true ∧ stackOnline s (stackOf s a) = true

/-- BAR2 takes accesses: PERST_N is 1, the function is in D0, and the part has Ingot. -/
def Bar2On (s : State) : Prop := perstHigh s = true ∧ s.host.d3hot = false ∧ partCode s ≠ 3

/-- A window command, its kind (0 read, 1 write, 2 atomic), its BAR2 offset, its length and the operations of its whole span,
each with its offset: one, but that a write has one for each run of enabled bytes (R517). -/
def winShape (x n : Nat) (i : Instr) (kind : Nat) (ops : List (Nat × MemOp)) : Prop :=
  (i = .windowRead x n ∧ kind = 0 ∧ ops = [(0, .read n)]) ∨
  (∃ bs, bs.length = n ∧ i = .windowWrite x bs ∧ kind = 1 ∧ ops = (byteRuns 0 bs).map (fun r => (r.1, .write r.2))) ∨
  (∃ o a b wide, i = .windowAtomic x o a b wide ∧ n = (if wide then 8 else 4) ∧ x % n = 0 ∧ kind = 2 ∧
    ops = [(0, .atomic (match o with
      | .fetchAdd => 0x10
      | .swap => 0x13
      | .cas => 0x12) wide (a.toNat % 2 ^ (8 * n)) (b.toNat % 2 ^ (8 * n)) false)])

/-- The all-ones completion of a failed access that returns data; a write completes with none (R429). -/
def failedCompletion (kind n : Nat) (s : State) : List Emit :=
  if kind = 1 then s.out else .completion (List.replicate n 0xFF) :: s.out

/-! ### Shapes of claims about DMA engines -/

/-- The page of DMA engine e of quadrant q answers. -/
def DmaOpen (q e : Nat) (s : State) : Prop := perstHigh s = true ∧ regGated s (Reg.dmaCtl q e) = false

/-- Engine e may fetch its next descriptor (R432, R434). -/
def DmaFetches (q e : Nat) (s : State) : Prop :=
  DmaOpen q e s ∧ rb s (Reg.dmaCtl q e) 31 = true ∧ rb s (Reg.dmaStatus q e) 30 = false ∧
    (dma s (8 * q + e)).job = none ∧ (dma s (8 * q + e)).granted = true ∧ s.host.d3hot = false ∧
    rf s (Reg.dmaHead q e) 16 0 ≠ rf s (Reg.dmaTail q e) 16 0

/-- A descriptor's fields are legal (R432). -/
def DescLegal (d : List Byte) : Prop :=
  dDir d ≠ 3 ∧ dLen d ≠ 0 ∧ dLen d ≤ 2 ^ 24 ∧ dHost d % 64 = 0 ∧ dDev d % 64 = 0 ∧ bitsOf (leAt d 0 4) 30 30 = 0 ∧
    bitsOf (leAt d 0 4) 27 19 = 0 ∧ leAt d 4 4 = 0 ∧ dDev d < 2 ^ 41 ∧ byteAt d 25 / 2 = 0 ∧ leAt d 26 2 = 0

/-- The engine holds a job for descriptor `d` with status `st`, and shows BUSY. -/
def DmaTook (q e : Nat) (d : List Byte) (st : Nat) (moved : Bool) (data : List Byte) (s t : State) : Prop :=
  dma t (8 * q + e) = ⟨some ⟨s.accCtr, d, st, moved, data⟩, true⟩ ∧ rb t (Reg.dmaStatus q e) 31 = true ∧
    (∀ i, i ≠ 8 * q + e → dma t i = dma s i)

/-- Descriptors in a ring of engine e. -/
def ringSize (q e : Nat) (s : State) : Nat := 2 ^ max 4 (min 15 (rf s (Reg.dmaCtl q e) 3 0))

/-- The host address of the descriptor at HEAD (R432). -/
def descAt (q e : Nat) (s : State) : Nat :=
  rf s (Reg.dmaRingLo q e) 31 12 * 4096 + (reg s (Reg.dmaRingHi q e)).toNat * 2 ^ 32 +
    32 * (rf s (Reg.dmaHead q e) 16 0 % ringSize q e s)

/-- Engine e has completed job `j` with status `st` (R433, R434): `data` went to host memory before STATUS and DONE; HEAD and
STATUS follow, an error halts the engine and is logged, and IRQ raises the engine's source. -/
def DmaCompleted (q : Quad) (e : Fin 8) (j : DmaJob) (st : Nat) (data : List Emit) (s t : State) : Prop :=
  dma t (8 * q.val + e.val) = DmaSt.init ∧ rb t (Reg.dmaStatus q e) 31 = false ∧
  rf t (Reg.dmaStatus q e) 7 0 = st ∧
  rf t (Reg.dmaHead q e) 16 0 = (rf s (Reg.dmaHead q e) 16 0 + 1) % (2 * ringSize q e s) ∧
  (∃ more, t.out = more ++ (.hostWrite (descAt q e s + 24) [BitVec.ofNat 8 st, BitVec.ofNat 8 (byteAt j.desc 25 / 2 * 2 + 1)] ::
    data ++ s.out) ∧ (dIrq j.desc = false → more = [])) ∧
  (rb t (Reg.dmaStatus q e) 30 = if st = 0 then rb s (Reg.dmaStatus q e) 30 else true) ∧
  (st ≠ 0 → (s.log.queues.getD q []).length < 64 →
    Logged q 0x0803 4 8 e (dataG st ((rf s (Reg.dmaHead q e) 16 0 + 1) % (2 * ringSize q e s))) s t) ∧
  (dIrq j.desc = true → Raised (64 * q.val + 38 + e.val) s t)

/-- The job has no Ingot access left to complete. -/
def JobIdle (q e id : Nat) (s : State) : Prop :=
  ∀ a ∈ quadAccs s q, ∀ off, a.owner ≠ .dma (8 * q + e) id off

/-! ### Shapes of claims about the host link -/

/-- A change of SB_LOST or of PERST_N in force is logged (R443); PERST_N falling resets the host interface unit (R415); with
neither, only HIF_STATUS and the sideband's own state may have changed, and SB_BAD_FRAME. -/
def SidebandShown (s t : State) : Prop :=
  (perstHigh t ≠ perstHigh s ∨ rb t Reg.hifStatus 30 ≠ rb s Reg.hifStatus 30 →
    (t.log.queues.getD 4 []).getLast? =
      some ⟨BitVec.ofNat 64 (devTicks s), 0x0801, 4, 0, 9, 0, dataG (b2n (rb t Reg.hifStatus 30)) (b2n (perstHigh t))⟩) ∧
  (perstHigh s = true → perstHigh t = false → (∀ a, hifAddr a = true → reg t a = resetAt a) ∧ (∀ n, rslot t n = RsSlot.init) ∧
    (∀ i, dma t i = DmaSt.init) ∧ t.host.bars = HostSt.init.bars ∧ t.host.wins = [] ∧ t.host.devReady = false ∧
      rb t Reg.hifStatus 31 = false) ∧
  (perstHigh t = perstHigh s → rb t Reg.hifStatus 30 = rb s Reg.hifStatus 30 →
    t = { s with regs := t.regs, ctr := t.ctr, host := t.host } ∧
    t.host = { s.host with sbCand := t.host.sbCand, sbFlags := t.host.sbFlags, sbBad := t.host.sbBad, sbGood := t.host.sbGood } ∧
    SameRegsBut (fun a => a = Reg.hifStatus) s t ∧ SameCtrsBut (fun a => a = Ctr.sbBadFrame) s t)

/-- The link has gone down: what else may have changed, and the entry of R443 where it was up. -/
def LinkDropped (s t : State) : Prop :=
  t = { s with regs := t.regs, log := t.log, host := { s.host with wins := t.host.wins } } ∧
    SameRegsBut (fun a => a = Reg.hifStatus) s t ∧
    (rb s Reg.hifStatus 31 = true → Logged 4 0x0802 0 9 0 (dataG 0 0) s t) ∧
    (rb s Reg.hifStatus 31 = false → t.log = s.log)


/-! ### Shapes of claims about result slots, monitors and the log -/

/-- BAR4 is the result slots: the host interface answers, and the staging window is closed (R417, R438, R451). -/
def SlotsOpen (s : State) : Prop := bar0On s = true ∧ stagingOpen s = false

/-- Only result slot i has changed, to `x`. -/
def SlotSet (i : Nat) (x : RsSlot) (s t : State) : Prop :=
  rslot t i = x ∧ (∀ j, j ≠ i → rslot t j = rslot s j) ∧ t = { s with host := { s.host with slots := t.host.slots } }

/-- Only counter c has moved, by one. -/
def OnlyCounted (c : Nat) (s t : State) : Prop :=
  Counted c s t ∧ t = { s with ctr := t.ctr } ∧ SameCtrsBut (fun a => a = c) s t

/-- Only monitor n has changed, to `x`. -/
def MonSet (n : Nat) (x : MonSt) (s t : State) : Prop :=
  mon t n = x ∧ (∀ j, j ≠ n → mon t j = mon s j) ∧ t = { s with mons := t.mons }

/-- The bucket that value v of monitor m of quadrant q goes to (R477). -/
def bucketOf (s : State) (q m v : Nat) : Nat :=
  let base := (reg s (Reg.monBase q m)).toNat
  if v < base then 0
  else if rb s (Reg.monCfg q m) 30 then min 31 (1 + bitLength ((v - base) / 2 ^ rf s (Reg.monCfg q m) 28 24))
  else min 31 (1 + (v - base) / max 1 (reg s (Reg.monWidth q m)).toNat)

/-- Entries between LOG_CI and LOG_WR, modulo 65,536 (R482). -/
def logClaimed (s : State) : Nat := (rf s Reg.logWr 15 0 + 65536 - rf s Reg.logCi 15 0) % 65536

/-- The log entry of an event with the given SEQ (R480). -/
def entryOf (e : LogEv) (seq : Nat) (bs : List Byte) : Prop :=
  bs.length = 32 ∧ leAt bs 0 8 = e.time.toNat ∧ leAt bs 8 2 = e.code % 2 ^ 16 ∧ byteAt bs 10 = (e.origin + 16 * e.cls) % 256 ∧
    byteAt bs 11 = e.kind % 256 ∧ leAt bs 12 2 = e.unit % 2 ^ 16 ∧ leAt bs 14 2 = seq % 2 ^ 16 ∧ bs.drop 16 = padTo 16 e.data

/-- What writing a log entry may change: the log, its indices and status, its counters, and source 257. -/
def LogFrame (s t : State) : Prop :=
  t = { s with regs := t.regs, ctr := t.ctr, out := t.out, log := t.log } ∧
  SameRegsBut (fun a => a = Reg.logWr ∨ a = Reg.logPi ∨ a = Reg.logCi ∨ a = Reg.logStatus ∨ IntReg 257 a) s t ∧
  SameCtrsBut (fun a => a = Ctr.logEntries ∨ a = Ctr.logOverwritten ∨ a = Ctr.logLost ∨ a = Ctr.logMgtDrop) s t

/-- The log takes event `e`, where `full` tells that 16,384 entries are claimed (R479, R482, R485): it gets the next index, and
the oldest entry makes room. -/
def LogTakes (e : LogEv) (full : Bool) (s t : State) : Prop :=
  rf t Reg.logWr 15 0 = (rf s Reg.logWr 15 0 + 1) % 65536 ∧ rf t Reg.logPi 15 0 = rf t Reg.logWr 15 0 ∧
  rf t Reg.logCi 15 0 = (if full then (rf s Reg.logCi 15 0 + 1) % 65536 else rf s Reg.logCi 15 0) ∧
  entryOf e (rf s Reg.logWr 15 0) (Tbl.get (zeroBytes 32) t.log.ring (rf s Reg.logWr 15 0 % 16384)) ∧
  (∀ i, i ≠ rf s Reg.logWr 15 0 % 16384 → Tbl.get (zeroBytes 32) t.log.ring i = Tbl.get (zeroBytes 32) s.log.ring i) ∧
  Counted Ctr.logEntries s t ∧ (full = true → Counted Ctr.logOverwritten s t) ∧
  (rb s Reg.logCfg 30 = true → rf s Reg.logCfg 29 27 ≤ e.cls → s.log.mgt.length < 256 →
    ∃ bs, t.log.mgt = s.log.mgt ++ [bs] ∧ entryOf e (rf s Reg.logWr 15 0) bs) ∧
  (rb s Reg.logCfg 30 = true → rf s Reg.logCfg 29 27 ≤ e.cls → 256 ≤ s.log.mgt.length →
    t.log.mgt = s.log.mgt ∧ Counted Ctr.logMgtDrop s t) ∧
  (rb s Reg.logCfg 30 = false ∨ e.cls < rf s Reg.logCfg 29 27 → t.log.mgt = s.log.mgt) ∧
  (let fill := (rf t Reg.logPi 15 0 + 65536 - rf t Reg.logCi 15 0) % 65536
   let due := rf s Reg.logThresh 14 0 ≤ fill ∧ (s.log.fired = false ∨ rf s Reg.logThresh 14 0 = 0)
   (e.cls = 5 ∨ due → Raised 257 s t) ∧ (due → t.log.fired = true) ∧
   (e.cls ≠ 5 → ¬ due → reg t (Reg.intMap 257) = reg s (Reg.intMap 257) ∧ t.out = s.out)) ∧ LogFrame s t

/-- The origin whose event is written next (R481): the service die's events go first, then the quadrants in rotating order. -/
def NextOrigin (s : State) (o : Nat) : Prop :=
  (o = 4 ∧ s.log.queues.getD 4 [] ≠ []) ∨
    (s.log.queues.getD 4 [] = [] ∧ ∃ i, i < 4 ∧ o = (s.log.next + i) % 4 ∧ s.log.queues.getD o [] ≠ [] ∧
      ∀ j, j < i → s.log.queues.getD ((s.log.next + j) % 4) [] = [])


/-! ### Classes of commands -/

/-- A write of a BAR0 register, direct or through an alias: it does what the register's own command does. -/
def RegisterWrite (i : Instr) : Prop :=
  (∃ a acc, i = .regWrite a acc) ∨ (∃ a v, i = .aliasSetWrite a v ∨ i = .aliasClrWrite a v ∨ i = .aliasTglWrite a v)

/-- A command after which the whole device starts again, or loses its power (R444 to R449). -/
def StartsAgain (i : Instr) : Prop :=
  i = .inputValid ∨ i = .inputLost ∨ (∃ r, i = .railFault r) ∨ i = .railRetry ∨ i = .rootLockReturn ∨
    (∃ c, i = .warmReset c) ∨ ∃ fw, i = .resetSeqConfirm fw

/-- A command that may take units of a quadrant down, whose stacks then lose their contents (R41, R462 to R465, R489). -/
def TakesUnitsDown (i : Instr) : Prop :=
  (∃ k n f, i = .unitReset k n f ∨ i = .unitHold k n f) ∨ i = .quadHoldDeferred ∨ (∃ q e, i = .quadStateErr q e) ∨
    i = .rootUnlock ∨ (∃ n t, i = .thermalTrip n t)

end Sys2Proof.Machine
end

