-- ==== Sys2Proof/Certificates/Slice0/Obligations.lean ====
section
/-!
DEFINITION. The statements for the provers.
-/
open Sys2Proof Sys2Proof.Machine

/-- One step runs the command at the front of the queue on the state with the queue's rest. -/
def Obligations.StepRunsFront : Prop :=
  ∀ (s : State) (c : Instr) (rest : List Instr), step { s with pending := c :: rest } = exec c { s with pending := rest }

/-- R312: every arithmetic, logic, shift, minimum, maximum and counting instruction writes s[D] and moves its wick on. R312:
MOVI writes IMM64, SMOVP a predicate; NOP only moves the wick on. R312: the instructions that write a predicate; a compare
fills all 16 bits. R312: BR and CALL are relative to the instruction's own index, JMP takes the low 18 bits of a register plus
IMM64, and CALL leaves the index after it in s[D]. -/
def Obligations.AluOperations : Prop :=
  (AluDoes .add 0x01 (fun a b => a + b) ∧ AluDoes .sub 0x02 (fun a b => a - b) ∧ AluDoes .mul 0x03 (fun a b => a * b) ∧
   AluDoes .mulhu 0x04 (fun a b => ((a.setWidth 128 * b.setWidth 128) >>> 64).setWidth 64) ∧
   AluDoes .mulhs 0x05 (fun a b => ((a.signExtend 128 * b.signExtend 128) >>> 64).setWidth 64) ∧
   AluDoes .and 0x06 (fun a b => a &&& b) ∧ AluDoes .or 0x07 (fun a b => a ||| b) ∧ AluDoes .xor 0x08 (fun a b => a ^^^ b) ∧
   AluDoes .shl 0x09 (fun a b => a <<< (b.toNat % 64)) ∧ AluDoes .shr 0x0A (fun a b => a >>> (b.toNat % 64)) ∧
   AluDoes .sar 0x0B (fun a b => a.sshiftRight (b.toNat % 64)) ∧
   AluDoes .mins 0x0C (fun a b => if a.slt b then a else b) ∧ AluDoes .maxs 0x0D (fun a b => if a.slt b then b else a) ∧
   AluDoes .minu 0x0E (fun a b => if a.ult b then a else b) ∧ AluDoes .maxu 0x0F (fun a b => if a.ult b then b else a) ∧
   AluDoes .clz 0x12 (fun a _ => BitVec.ofNat 64 (leadingZeros a)) ∧
   AluDoes .popc 0x13 (fun a _ => BitVec.ofNat 64 (onesOf a))) ∧
  ((∀ w f s, Issues w 0 0x10 f false s → ∃ t, exec (.movi w f) s = .next t ∧ ScalarSet w f.d f.imm64 s t) ∧
   (∀ w f s, Issues w 0 0x25 f false s →
     ∃ t, exec (.smovp w f) s = .next t ∧ ScalarSet w f.d ((preg w s f.a.toNat).setWidth 64) s t) ∧
   (∀ w f s, Issues w 0 0x00 f false s → ∃ t, exec (.nop w f) s = .next t ∧ wkGet w t = movedOn (wkGet w s) ∧ WickFrame w s t)) ∧
  (PredDoes .cmp 0x20 (fun w s f =>
     if compareHolds (f.mod.toNat % 8) (sreg w s f.a) (operandB w s f) then 0xFFFF else 0) ∧
   PredDoes .pand 0x21 (fun w s f => preg w s f.a.toNat &&& preg w s f.b.toNat) ∧
   PredDoes .por 0x22 (fun w s f => preg w s f.a.toNat ||| preg w s f.b.toNat) ∧
   PredDoes .pxor 0x23 (fun w s f => preg w s f.a.toNat ^^^ preg w s f.b.toNat) ∧
   PredDoes .pmov 0x24 (fun w s f => (sreg w s f.a).setWidth 16) ∧
   (∀ op f, 0x20 ≤ op → op ≤ 0x25 → legal 0 op f = true → f.d.toNat < 8 ∧ f.a.toNat < 8 ∧ f.b.toNat < 8) ∧
   (∀ op f, legal 0 op f = true → f.mod.toNat &&& (if op = 0x20 then 0x7F8 else 0x7FF) = 0) ∧
   (∀ f, legal 0 0x20 f = true → f.mod.toNat % 8 < 6)) ∧
  ((∀ w f s, Issues w 0 0x30 f false s →
     ∃ t, exec (.br w f) s = .next t ∧ Jumped w ((wkGet w s).pc + f.imm64.setWidth 18) s t) ∧
   (∀ w f s, Issues w 0 0x31 f false s →
     ∃ t, exec (.jmp w f) s = .next t ∧ Jumped w ((sreg w s f.a + f.imm64).setWidth 18) s t) ∧
   (∀ w f s, Issues w 0 0x32 f false s →
     ∃ t, exec (.call w f) s = .next t ∧
       sreg w t f.d = BitVec.ofNat 64 ((wkGet w s).pc.toNat + 1) ∧ (∀ r, r ≠ f.d → sreg w t r = sreg w s r) ∧
       wkGet w t = { wkGet w s with
         sregs := (wkGet w t).sregs, pc := (wkGet w s).pc + f.imm64.setWidth 18, quantum := (wkGet w s).quantum + 1 } ∧
       WickFrame w s t))

/-- R311, R313: the lane operations of class VEC on enabled lanes; floating-point lanes by IEEE 754, integer lanes wrap. -/
def Obligations.VectorArithmetic : Prop :=
  VecDoes .vadd 0x01 (twoLanes fAdd (fun _ a b => a + b)) ∧ VecDoes .vsub 0x02 (twoLanes fSub (fun _ a b => a - b)) ∧
  VecDoes .vmul 0x03 (twoLanes fMul (fun _ a b => a * b)) ∧
  VecDoes .vfma 0x04 (fmaLanes false) ∧ VecDoes .vfnma 0x05 (fmaLanes true) ∧
  VecDoes .vmin 0x06 (twoLanes (fun m => fMinMax m false) (fun _ a b => min a b)) ∧
  VecDoes .vmax 0x07 (twoLanes (fun m => fMinMax m true) (fun _ a b => max a b)) ∧
  VecDoes .vdiv 0x08 (fun w s f i => fDiv (laneFmt f) (lane w s f f.a i) (lane w s f f.b i)) ∧
  VecDoes .vsqrt 0x09 (fun w s f i => fSqrt (laneFmt f) (lane w s f f.a i)) ∧
  VecDoes .vabs 0x0A (fun w s f i => fAbs (laneFmt f) (lane w s f f.a i)) ∧
  VecDoes .vneg 0x0B (fun w s f i => fNeg (laneFmt f) (lane w s f f.a i))

/-- R313: moves, bitwise operations, broadcast, index and select, which raise no flag. R313: VEXT reads one lane into a scalar
and VINS writes one lane, both under bit 0 of the predicate; VSUM sums the enabled lanes of v[A] and VCMP compares them into a
predicate whose other bits are 0. R314: VCVT moves each element that the predicate enables at its wide lane; the rest of v[D]
keeps its value. Where the conversion has no value (R242 gives none) the element is free. -/
def Obligations.VectorDataMovement : Prop :=
  (VecDoes .vmov 0x00 (bare fun w s f i => lane w s f f.a i) ∧
   VecDoes .vand 0x0C (bare fun w s f i => lane w s f f.a i &&& lane w s f f.b i) ∧
   VecDoes .vor 0x0D (bare fun w s f i => lane w s f f.a i ||| lane w s f f.b i) ∧
   VecDoes .vxor 0x0E (bare fun w s f i => lane w s f f.a i ^^^ lane w s f f.b i) ∧
   VecDoes .vbcast 0x10 (bare fun w s f _ => (sreg w s f.a).toNat) ∧
   VecDoes .vidx 0x13 (bare fun w s f i => (sreg w s f.a).toNat + i) ∧
   VecDoes .vsel 0x21 (bare fun w s f i =>
     if laneOn (preg w s f.c.toNat).toNat (laneW f) i then lane w s f f.a i else lane w s f f.b i)) ∧
  ((∀ w f s, Issues w 1 0x11 f false s → ∃ t, exec (.vext w f) s = .next t ∧
     ScalarSet w f.d (BitVec.ofNat 64 (lane w s f f.a (f.imm16.toNat % (512 / laneW f)))) s t) ∧
   (∀ w f s, Issues w 1 0x12 f false s → ∃ t, exec (.vins w f) s = .next t ∧
     (∀ i, i < 512 / laneW f → lane w t f f.d i =
       if i = f.imm16.toNat % (512 / laneW f) then (sreg w s f.a).toNat % 2 ^ laneW f else lane w s f f.d i) ∧
     (∀ r, r ≠ f.d → vreg w t r = vreg w s r) ∧
     wkGet w t = { movedOn (wkGet w s) with vregs := (wkGet w t).vregs } ∧ WickFrame w s t) ∧
   (∀ w f s, Issues w 1 0x14 f true s → ∃ t, exec (.vsum w f) s = .next t ∧
     sreg w t f.d = BitVec.ofNat 64 (laneSum f (wkGet w s)).bits ∧ (∀ r, r ≠ f.d → sreg w t r = sreg w s r) ∧
     FlagsAdded w (laneSum f (wkGet w s)).flags s t ∧
     wkGet w t = { movedOn (wkGet w s) with sregs := (wkGet w t).sregs, fp := (wkGet w t).fp } ∧ FloatFrame w s t) ∧
   (∀ w f s, Issues w 1 0x20 f true s → ∃ t, exec (.vcmp w f) s = .next t ∧
     (f.d.toNat % 8 ≠ 0 → ∀ i, i < 512 / laneW f →
       ((preg w t f.d.toNat).getLsbD (if laneW f = 64 then 2 * i else i) = true ↔ enabled w s f i ∧
         (if f.mod.getLsbD 1 then iCmp (laneW f) (f.mod.toNat / 4 % 8) (lane w s f f.a i) (lane w s f f.b i)
           else (fCmp (laneFmt f) (f.mod.toNat / 4 % 8) (lane w s f f.a i) (lane w s f f.b i)).1) = true)) ∧
     (laneW f = 64 → f.d.toNat % 8 ≠ 0 → ∀ i, (preg w t f.d.toNat).getLsbD (2 * i + 1) = false) ∧
     preg w t 0 = 0xFFFF ∧ FlagsAdded w (laneCmp f (wkGet w s)).2 s t ∧ (∀ j, j % 8 ≠ f.d.toNat % 8 → preg w t j = preg w s j) ∧
     wkGet w t = { movedOn (wkGet w s) with pregs := (wkGet w t).pregs, fp := (wkGet w t).fp } ∧ FloatFrame w s t)) ∧
  (∀ w f s, Issues w 1 0x30 f true s → ∃ t, exec (.vcvt w f) s = .next t ∧
     (let src := f.mod.toNat % 16
      let dst := f.mod.toNat / 16 % 16
      let rm := f.mod.toNat / 256 % 4
      let slice := f.imm16.toNat % 8
      let n := cvtCount src dst
      let scale := (sreg w s f.b).toNat / 2 ^ (8 * (slice / 2)) % 256
      let from' := fun i => (vreg w s f.a).toNat / 2 ^ cvtPos n src slice i % 2 ^ fmtBits src
      let random := fun i => if rm = 2 then (vreg w s f.c).toNat / 2 ^ (512 / n * i) % 2 ^ 32 else 0
      (∀ i, i < n → laneOn ((wkGet w s).gov f) (512 / n) i = true → ∀ b,
        (convert src dst rm (random i) (f.mod.getLsbD 10) scale scale (from' i)).bits = some b →
          (vreg w t f.d).toNat / 2 ^ cvtPos n dst slice i % 2 ^ fmtBits dst = b % 2 ^ fmtBits dst) ∧
      (∀ j, j < 512 → (∀ i, i < n → laneOn ((wkGet w s).gov f) (512 / n) i = true →
          j < cvtPos n dst slice i ∨ cvtPos n dst slice i + fmtBits dst ≤ j) →
        (vreg w t f.d).getLsbD j = (vreg w s f.d).getLsbD j)) ∧
     (∃ fl, (∀ k, fl.testBit k = true ↔ ∃ c, some c ∈ cvtAll f (wkGet w s) ∧ c.flags.testBit k = true) ∧
       FlagsAdded w fl s t) ∧
     (∀ r, r ≠ f.d → vreg w t r = vreg w s r) ∧
     wkGet w t = { movedOn (wkGet w s) with vregs := (wkGet w t).vregs, fp := (wkGet w t).fp } ∧ FloatFrame w s t)

/-- R303, R304, R315: LDL and STL within LS and aligned; bytes that a pending transfer writes are free (R305). R298, R302,
R308, R315: loads and stores of Ingot issue as long operations and send their request; STI reads its source at issue, and LDI
marks its destination pending. R298, R303 to R305, R315: the block transfers between LS and Ingot issue and send their
request; IGST takes its bytes from LS, where those that a pending transfer writes are free. R226, R315, R316: ATOM sends its
operand, which FADD_ALLOY first rounds onto its anchor; an operand that the grid refuses ends the operation with DATA_ERROR.
-/
def Obligations.LocalAndIngotTransfers : Prop :=
  ((∀ w f s, Issues w 2 0x00 f false s → address w s f + sizeBytes f ≤ 2 ^ 18 → address w s f % sizeBytes f = 0 →
     ∃ t bs, exec (.ldl w f) s = .next t ∧ bs.length = sizeBytes f ∧
       (∀ i, i < sizeBytes f →
         (∀ o ∈ (lx s w.q).ops, o.engine = w.e.val → ∀ r ∈ o.kind.targets,
           address w s f + i < r.1 ∨ r.1 + r.2 ≤ address w s f + i) →
         bs.getD i 0 = lsByte s w.q w.e (address w s f + i)) ∧
       (if f.mod.toNat % 8 = 4 then VectorSet w f.d (BitVec.ofNat 512 (leNat bs)) { s with freeCtr := t.freeCtr } t
         else ScalarSet w f.d (loaded f bs) { s with freeCtr := t.freeCtr } t)) ∧
   (∀ w f s, Issues w 2 0x01 f false s → address w s f + sizeBytes f ≤ 2 ^ 18 → address w s f % sizeBytes f = 0 →
     ∃ t, exec (.stl w f) s = .next t ∧
       (∀ i, i < sizeBytes f → lsByte t w.q w.e (address w s f + i) = storedByte w s f i) ∧
       (∀ k, (k < lsSize * w.e.val + address w s f ∨ lsSize * w.e.val + address w s f + sizeBytes f ≤ k) →
         Tbl.get 0 (lx t w.q).ls k = Tbl.get 0 (lx s w.q).ls k) ∧
       wkGet w t = movedOn (wkGet w s) ∧
       t = { s with regs := t.regs, ctr := t.ctr, lx := t.lx, sw := t.sw, freeCtr := t.freeCtr } ∧
       (∀ q, q ≠ w.q.val → lx t q = lx s q) ∧
       lx t w.q = { lx s w.q with
         wicks := (lx t w.q).wicks, cur := (lx t w.q).cur, ls := (lx t w.q).ls, ops := (lx t w.q).ops } ∧
       ((∀ o ∈ (lx s w.q).ops, o.engine = w.e.val → ∀ r ∈ o.kind.sources ++ o.kind.targets,
           r.1 + r.2 ≤ address w s f ∨ address w s f + sizeBytes f ≤ r.1) →
         (lx t w.q).ops = (lx s w.q).ops ∧ t.sw = s.sw ∧ t.freeCtr = s.freeCtr) ∧
       SameRegsBut (LanternReg w) s t ∧ SameCtrsBut (fun a => a = Ctr.lxIssued w.q) s t)) ∧
  ((∀ w f s, IngotIssues w 0x02 f (igFault s w (address w s f) (sizeBytes f) (sizeBytes f) 30 false) s →
     ∃ t, exec (.ldi w f) s = .next t ∧
       LongIssued w f (.load f.d.toNat (f.mod.toNat % 8) (f.mod.getLsbD 6)) true
         (if f.mod.toNat % 8 = 4 then 2 ^ (32 + f.d.toNat) else 2 ^ f.d.toNat) none s t ∧
       Requested w (address w s f) (.read (sizeBytes f)) 0 (memClass (address w s f) 1 0 (sizeBytes f) 0 0 0 0 0) [] s t ∧
       AccessFrame w s t) ∧
   (∀ w f s, IngotIssues w 0x03 f (igFault s w (address w s f) (sizeBytes f) (sizeBytes f) 29 false) s →
     ∃ t bs, exec (.sti w f) s = .next t ∧ bs.length = sizeBytes f ∧
       (∀ i, i < sizeBytes f → bs.getD i 0 = storedByte w s f i) ∧ LongIssued w f .store true 0 none s t ∧
       Requested w (address w s f) (.write bs) 0 (memClass (address w s f) 2 0 0 0 0 0 0 0) bs s t ∧ AccessFrame w s t)) ∧
  ((∀ w f s, IngotIssues w 0x04 f (blockFault s w f 30 false).1 s →
     ∃ t, exec (.igld w f) s = .next t ∧
       LongIssued w f (.igld (sreg w s f.b).toNat (64 * (f.imm16.toNat + 1))) true 0 none s t ∧
       Requested w (address w s f) (.read (64 * (f.imm16.toNat + 1))) 0
         (memClass (address w s f) 1 0 (64 * (f.imm16.toNat + 1)) 0 0 0 0 0) [] s t ∧ AccessFrame w s t) ∧
   (∀ w f s, IngotIssues w 0x05 f (blockFault s w f 29 false).1 s →
     ∃ t bs, exec (.igst w f) s = .next t ∧ bs.length = 64 * (f.imm16.toNat + 1) ∧
       (∀ i, i < bs.length →
         (∀ o ∈ (lx s w.q).ops, o.engine = w.e.val → ∀ r ∈ o.kind.targets,
           (sreg w s f.b).toNat + i < r.1 ∨ r.1 + r.2 ≤ (sreg w s f.b).toNat + i) →
         bs.getD i 0 = lsByte s w.q w.e ((sreg w s f.b).toNat + i)) ∧
       LongIssued w f (.igst (sreg w s f.b).toNat (64 * (f.imm16.toNat + 1))) true 0 none s t ∧
       Requested w (address w s f) (.write bs) 0 (memClass (address w s f) 2 0 0 0 0 0 0 0) bs s t ∧ AccessFrame w s t)) ∧
  (∀ w f s, IngotIssues w 0x06 f (igFault s w (address w s f) (sizeBytes f) (sizeBytes f) 28 false) s →
     ∃ t, exec (.atom w f) s = .next t ∧ AccessFrame w s t ∧
       (let wide := f.mod.toNat % 8 = 3
        let aop := f.mod.toNat / 256
        let kind : OpKind := .atom f.d.toNat (decide wide)
        let bits := if wide then 64 else 32
        (aop ≠ 1 →
          LongIssued w f kind true (2 ^ f.d.toNat) none s t ∧
          Requested w (address w s f)
            (.atomic (0x10 + aop) (decide wide) ((sreg w s f.b).toNat % 2 ^ bits) (sreg w s f.c).toNat (f.mod.getLsbD 7))
            (if aop = 0 then 16 else 0)
            (memClass (address w s f) (0x10 + aop) ((if wide then 3 else 2) + 4 * b2n (f.mod.getLsbD 7)) 0 0 0
              ((sreg w s f.b).toNat % 2 ^ bits) (if aop = 2 then (sreg w s f.c).toNat else 0) 0) [] s t) ∧
        (aop = 1 → ∀ opa, atomOperand (wkGet w s) f (decide wide) = some opa →
          LongIssued w f kind true (2 ^ f.d.toNat) none s t ∧
          Requested w (address w s f) (.atomic 0x11 (decide wide) opa (sreg w s f.c).toNat (f.mod.getLsbD 7)) 16
            (memClass (address w s f) 0x11
              ((if wide then 3 else 2) + 4 * b2n (f.mod.getLsbD 7) + 16 * (if wide then 0xB else 0xA)) 0 0
              (ofSigned 16 (toSigned 12 f.imm16.toNat)) opa 0 0) [] s t) ∧
        (aop = 1 → atomOperand (wkGet w s) f (decide wide) = none →
          LongIssued w f kind true (2 ^ f.d.toNat) (some ⟨0x0A, address w s f, []⟩) s t ∧ t.sw = s.sw ∧
            t.igStacks = s.igStacks)))

/-- R316: a PWR within the quadrant that homes its region leaves as a PEER_WR with a tag of its own on the region's fiber;
where that fiber is not PEER and UP the operation ends with PEER_STATUS. R317, R318: SEND and RECV issue as long operations;
RECV takes its message at once or waits for one in WAIT_SYN. -/
def Obligations.MirrorsAndMessages : Prop :=
  (∀ w f s, IngotIssues w 0x07 f (blockFault s w f 29 true).1 s → homeQuad (address w s f) = w.q.val →
     ∀ r, regionOf s (address w s f) (64 * (f.imm16.toNat + 1)) = some r → fiberQuad (rgnFiber s r) = w.q.val →
     ∃ t, exec (.pwr w f) s = .next t ∧ ClusterFrame w s t ∧
       (let l := (sreg w s f.b).toNat
        let n := 64 * (f.imm16.toNat + 1)
        (peerLink s (rgnFiber s r) = none →
          LongIssued w f (.pwr l n 0) true 0 (some ⟨0x0B, address w s f, []⟩) s t ∧ AccessFrame w s t ∧ t.sw = s.sw) ∧
        (∀ k, peerLink s (rgnFiber s r) = some k →
          ∃ tag, LongIssued w f (.pwr l n tag) true 0 none s t ∧
            (peers t w.q).out = (peers s w.q).out ++ [(tag, k, .op s.accCtr)] ∧
            ((peers s w.q).out.length < 16384 → ∀ o ∈ (peers s w.q).out, o.1 ≠ tag) ∧
            (∀ q, q ≠ w.q.val → peers t q = peers s q ∧ sw t q = sw s q) ∧
            (∃ bs, bs = (lsLoad w.q w.e l n s).1 ∧
              ((∃ o ∈ (sw t w.q).originQ, o.dest = .link k ∧ o.payload = bs ∧ hKind o.head = 5) ∨
               ∃ p ∈ (sw t w.q).pkts, p.dest = .link k ∧ p.payload = bs ∧ hKind p.head = 5)) ∧
            t = { s with regs := t.regs, ctr := t.ctr, lx := t.lx, accCtr := t.accCtr, sw := t.sw, peers := t.peers,
                         pktCtr := t.pktCtr, freeCtr := t.freeCtr } ∧
            SameRegsBut (fun a => LanternReg w a ∨ a = Reg.scStatus w.q ∨ ∃ k, a = Reg.scLinkstat w.q k) s t))) ∧
  ((∀ w f s, Issues w 2 0x08 f false s → roomFor s w.q w.e false = true →
     let l := (sreg w s f.b).toNat
     l % 64 = 0 → l + 64 ≤ 2 ^ 18 →
     let h := (lsLoad w.q w.e l 64 s).1
     ((hVc h = 6 ∧ hKind h = 0) ∨ (hVc h = 7 ∧ hKind h = 4)) → hPlen h ≤ 4096 → l + 64 + hPlen h ≤ 2 ^ 18 →
     ∃ t, exec (.send w f) s = .next t ∧ AccessFrame w s t ∧ NothingSent w.q s t ∧ t.sw = s.sw ∧ t.igStacks = s.igStacks ∧
       LongIssued w f (.send l (64 + hPlen h)
         (sendHead s.fuses.epid.toNat (leJob s w.q w.e) (rf s (Reg.jobEpoch (leJob s w.q w.e)) 15 0) h)) false 0 none s t) ∧
   (∀ w f s, Issues w 2 0x09 f false s → roomFor s w.q w.e false = true →
     let l := (sreg w s f.b).toNat
     l % 64 = 0 → l + 4160 ≤ 2 ^ 18 →
     ∃ t, exec (.recv w f) s = .next t ∧
       (∀ m, recvMsg s w (f.mod.getLsbD 0) = some m →
         (lx t w.q).msgs = eraseFirst (· == m) (lx s w.q).msgs ∧
         (∀ q, q ≠ w.q.val → lx t q = lx s q) ∧
         lx t w.q = { lx s w.q with
           wicks := (lx t w.q).wicks, cur := (lx t w.q).cur, ops := (lx t w.q).ops, msgs := (lx t w.q).msgs } ∧
         LongIssued w f (.recv l f.d.toNat (f.mod.getLsbD 0)) false (2 ^ f.d.toNat)
           (some ⟨0, 0, padTo 64 m.2.2.head ++ m.2.2.payload⟩) s t) ∧
       (recvMsg s w (f.mod.getLsbD 0) = none →
         ClusterFrame w s t ∧ (wkGet w t).state = wkWaitSyn ∧ (wkGet w t).wait = .message ∧ (wkGet w t).pc = (wkGet w s).pc + 1 ∧
         (lx t w.q).ops = (lx s w.q).ops ++ [⟨s.accCtr, w.e, w.w, f.mod.toNat / 16 % 4,
           .recv l f.d.toNat (f.mod.getLsbD 0), (wkGet w s).pc.toNat, false, none, []⟩]) ∧
       t = { s with regs := t.regs, ctr := t.ctr, lx := t.lx, accCtr := t.accCtr } ∧ SameRegsBut (LanternReg w) s t))

/-- R328 to R333: a COL instruction whose checks pass is issued with a record, and its posts go to the reducing quadrants.
R344: a CA2A whose checks pass takes a record; its run has asked for the commit of phase 0, or has ended with LP_FAIL because
that commit was refused. Without LPX_EN it faults instead (R330). -/
def Obligations.CollectiveInstructions : Prop :=
  (ColDoes .cred 1 ∧ ColDoes .carb 2 ∧ ColDoes .crsu 3 ∧ ColDoes .cbcs 4 ∧ ColDoes .cgat 5 ∧ ColDoes .cbar 7) ∧
  (∀ w f s b x ix, ColPasses w f 6 b x ix s → rb s (Reg.leCfg w.q w.e) 31 = true →
     (lp s w.q).result = none → (∀ o ∈ (lx s w.q).ops, o.id < s.accCtr) →
     ∃ t, exec (.ca2a w f) s = .next t ∧ (wkGet w t).pc = (wkGet w s).pc + 1 ∧
       (∃ fin, (lx t w.q).ops = (lx s w.q).ops ++
           [⟨s.accCtr, w.e, w.w, f.mod.toNat / 16 % 4, .col f.d.toNat ix, (wkGet w s).pc.toNat, false, fin, []⟩] ∧
         ((fin = none ∧ (∃ r u, fiRec? t w.q ix = some r ∧ r.run = some u ∧ r.lop = s.accCtr ∧ u.pending = true ∧ u.next = 0 ∧
             u.nph = obNph b ∧ u.period = obPeriod b ∧ u.plan = obPlan b) ∧
           ∃ c, (lp t w.q).pending = some c ∧ c.owner = some s.accCtr) ∨
          (fiRec? t w.q ix = none ∧ ∃ e, fin = some e ∧ e.fault = 0 ∧ byteAt e.data 0 = 0xFF ∧ byteAt e.data 1 = aeLpFail))) ∧
       (lx t w.q).ls = (lx s w.q).ls ∧ (lx t w.q).code = (lx s w.q).code ∧ t.time = s.time)

/-- R319: the waits go on at once where their condition holds and otherwise yield in WAIT_SYN; EVWAIT takes its flag. R319,
R324: EVSIG sets the flag of the wick that IMM16 names, or wakes it from EVWAIT; to an engine that does not run or a cluster
in reset it is lost and counted. R294, R319: HALT leaves its wick in HALTING while an operation is outstanding, else in IDLE,
where MOD[0] raises the Lantern event interrupt. -/
def Obligations.SynchronisationInstructions : Prop :=
  ((∀ w f s, Issues w 4 0x00 f false s → ∃ t, exec (.waitcnt w f) s = .next t ∧
     (let met := ∀ c, c < 4 → (BitVec.ofNat 4 f.mod.toNat).getLsbD c = true → (wkGet w s).oc.getD c 0 ≤ f.imm16.toNat % 4096
      (met → OnlyMoved w s t) ∧
      (¬ met → Yielded w wkWaitSyn (.counters (f.mod.toNat % 16) (f.imm16.toNat % 4096)) s t))) ∧
   (∀ w f s, Issues w 4 0x01 f false s → ∃ t, exec (.waitt w f) s = .next t ∧
     ((sreg w s f.a).toNat ≤ devTicks s → OnlyMoved w s t) ∧
     (devTicks s < (sreg w s f.a).toNat → Yielded w wkWaitSyn (.time (sreg w s f.a).toNat) s t)) ∧
   (∀ w f s, Issues w 4 0x03 f false s → ∃ t, exec (.evwait w f) s = .next t ∧
     ((wkGet w s).ev = true → wkGet w t = { movedOn (wkGet w s) with ev := false } ∧ WickFrame w s t) ∧
     ((wkGet w s).ev = false → Yielded w wkWaitSyn .event s t)) ∧
   (∀ w f s, Issues w 4 0x04 f false s → ∃ t, exec (.yield w f) s = .next t ∧
     Yielded w (wkGet w s).state (wkGet w s).wait s t)) ∧
  (∀ w f s, Issues w 4 0x02 f false s →
     let q := f.imm16.toNat / 2 ^ 14
     let e := f.imm16.toNat / 2 ^ 6 % 64
     let n := f.imm16.toNat % 32
     clusterPresent s q = true →
     ∃ t, exec (.evsig w f) s = .next t ∧ t = { s with regs := t.regs, ctr := t.ctr, lx := t.lx } ∧
       ((clusterDown s q = true ∨ leRun s q e = false) → OnlyMoved w { s with ctr := t.ctr } t ∧ Counted (Ctr.evLost w.q) s t) ∧
       (clusterDown s q = false → leRun s q e = true →
         (let x := if q = w.q.val ∧ e = w.e.val ∧ n = w.w.val then movedOn (wkGet w s) else wick s q e n
          wick t q e n = (if x.state = wkWaitSyn ∧ x.wait = .event then { x with ev := false, state := wkRun, wait := .none }
            else { x with ev := true })) ∧
         (¬ (q = w.q.val ∧ e = w.e.val ∧ n = w.w.val) → wkGet w t = movedOn (wkGet w s)) ∧
         (∀ q' e' n', e' < 64 → n' < 32 → ¬ (q' = q ∧ e' = e ∧ n' = n) → ¬ (q' = w.q.val ∧ e' = w.e.val ∧ n' = w.w.val) →
           wick t q' e' n' = wick s q' e' n') ∧
         (∀ q', lx t q' = { lx s q' with wicks := (lx t q').wicks, cur := (lx t q').cur }) ∧
         SameRegsBut (fun a => LanternReg w a ∨ a = Reg.wkState q e n) s t)) ∧
  (∀ w f s, Issues w 4 0x05 f false s → ∃ t, exec (.halt w f) s = .next t ∧
     (wkGet w t).pc = (wkGet w s).pc + 1 ∧ (wkGet w t).sregs = (wkGet w s).sregs ∧ (wkGet w t).vregs = (wkGet w s).vregs ∧
     (wkGet w t).pregs = (wkGet w s).pregs ∧
     ((wkGet w s).oc.any (· != 0) = true →
       wkGet w t = { wkGet w s with pc := (wkGet w s).pc + 1, quantum := 0, state := wkHalting, haltInt := f.mod.getLsbD 0 } ∧
       YieldFrame w s t) ∧
     ((wkGet w s).oc.any (· != 0) = false →
       (wkGet w t).state = wkIdle ∧ (wkGet w t).task = none ∧
       ((wkGet w s).task = none → (f.mod.getLsbD 0 = true → Raised (64 * w.q.val + 37) s t) ∧
         (f.mod.getLsbD 0 = false → YieldFrame w s t))))

/-- R97, R320: with LPX_EN, LPW writes the eight words of a shadow-set entry and gives 0, or gives 1 and counts WRITE_REJ;
LPST reads LP_STATUS; LPCAN ends a pending commit that is at least 1 µs away. R94 to R97, R320: with LPX_EN, LPC issues as a
long operation; with a commit already pending it ends at once with code 8, counted in CMD_REJ, and otherwise its commit is
pending or it has ended with the code of the check that failed. -/
def Obligations.LightpathInstructions : Prop :=
  ((∀ w f s, Issues w 5 0x00 f false s → rb s (Reg.leCfg w.q w.e) 31 = true →
     let e := (sreg w s f.a).toNat
     let l := (sreg w s f.b).toNat
     l + 32 ≤ 2 ^ 18 →
     ∃ t, exec (.lpw w f) s = .next t ∧
       ((1024 ≤ e ∨ routeAccepts s w.q e = false) →
         ScalarSet w f.d 1 { s with ctr := t.ctr } t ∧ Counted (Ctr.writeRej w.q) s t) ∧
       (e < 1024 → routeAccepts s w.q e = true →
         sreg w t f.d = 0 ∧ (∀ r, r ≠ f.d → sreg w t r = sreg w s r) ∧
         (∀ j, j < 8 → reg t (routeAddr w.q e j) =
           (reg s (routeAddr w.q e j) &&& ~~~ rwMaskAt (routeAddr w.q e j)) |||
             (BitVec.ofNat 32 (leAt (lsLoad w.q w.e l 32 s).1 (4 * j) 4) &&& rwMaskAt (routeAddr w.q e j))) ∧
         wkGet w t = { movedOn (wkGet w s) with sregs := (wkGet w t).sregs } ∧
         t = { s with regs := t.regs, ctr := t.ctr, lx := t.lx, freeCtr := t.freeCtr } ∧ ClusterFrame w s t ∧
         SameRegsBut (fun a => LanternReg w a ∨ ∃ j, j < 8 ∧ a = routeAddr w.q e j) s t)) ∧
   (∀ w f s, Issues w 5 0x03 f false s → rb s (Reg.leCfg w.q w.e) 31 = true →
     ∃ t, exec (.lpst w f) s = .next t ∧ ScalarSet w f.d ((reg s (Reg.lpStatus w.q)).setWidth 64) s t) ∧
   (∀ w f s, Issues w 5 0x02 f false s → rb s (Reg.leCfg w.q w.e) 31 = true → (lp s w.q).result = none →
     ∃ t, exec (.lpcan w f) s = .next t ∧ wkGet w t = movedOn (wkGet w s) ∧
       ((lp s w.q).pending = none → OnlyMoved w s t) ∧
       (∀ c, (lp s w.q).pending = some c → c.instant < s.time.l + 800 → OnlyMoved w s t) ∧
       (∀ c, (lp s w.q).pending = some c → s.time.l + 800 ≤ c.instant →
         (lp t w.q).pending = none ∧ rb t (Reg.lpStatus w.q) 31 = false))) ∧
  (∀ w f s, Issues w 5 0x01 f false s → rb s (Reg.leCfg w.q w.e) 31 = true → roomFor s w.q w.e false = true →
     (lp s w.q).result = none → (∀ o ∈ (lx s w.q).ops, o.id < s.accCtr) →
     ∃ t fin, exec (.lpc w f) s = .next t ∧
       LongIssued w f (.lpc f.d.toNat) false (2 ^ f.d.toNat) fin s t ∧ ClusterFrame w s t ∧
       (rb s (Reg.lpStatus w.q) 31 = true →
         fin = some ⟨0, 0, leBytes 8 (8 + rf s (Reg.lpStatus w.q) 23 16 * 2 ^ 8)⟩ ∧ Counted (Ctr.cmdRej w.q) s t ∧
         (lp t w.q).pending = (lp s w.q).pending) ∧
       (rb s (Reg.lpStatus w.q) 31 = false →
         (fin = none ∧ rb t (Reg.lpStatus w.q) 31 = true ∧ ∃ c, (lp t w.q).pending = some c ∧ c.owner = some s.accCtr ∧
           s.time.l + 2400 ≤ c.instant) ∨
         (∃ code, 1 ≤ code ∧ code ≤ 7 ∧ rf t (Reg.lpStatus w.q) 26 24 = code ∧ (lp t w.q).pending = none ∧
           fin = some ⟨0, 0, leBytes 8 (code + rf s (Reg.lpStatus w.q) 23 16 * 2 ^ 8)⟩)))

/-- R293, R321: RAND, TIME, PERF, RDWS and CLRWS. R321: HASH issues as a long operation once its state, length and LS ranges
allow it. R321, R322: TRAP stops its wick in FAULT at the instruction, with code 0x0D, its index, s[A] and IMM16 on show. -/
def Obligations.SystemInstructions : Prop :=
  ((∀ w f s, Issues w 6 0x01 f false s → ∃ t, exec (.rand w f) s = .next t ∧
     VectorSet w f.d (vreg w t f.d) s t ∧
     ∀ j i, j < 4 → i < 4 → (vreg w t f.d).extractLsb' (128 * j + 32 * i) 32 =
       BitVec.ofNat 32 ((philox (sreg w s f.a).toNat
         (((sreg w s f.c).toNat * 2 ^ 64 + (sreg w s f.b).toNat + j) % 2 ^ 128)).getD i 0)) ∧
   (∀ w f s, Issues w 6 0x02 f false s → ∃ t, exec (.time w f) s = .next t ∧
     ScalarSet w f.d (BitVec.ofNat 64 (devTicks s)) s t) ∧
   (∀ w f s, Issues w 6 0x03 f false s → rb s (Reg.lxCfg w.q) 31 = true →
     ∃ t, exec (.perf w f) s = .next t ∧ ScalarSet w f.d
       (let n := f.imm16.toNat % 64
        if n < 8 then (reg t (Reg.pmcLo w.q 44 n)).setWidth 64 ||| (BitVec.ofNat 64 (rf t (Reg.pmcHi w.q 44 n) 15 0) <<< 32)
        else 0) s t) ∧
   (∀ w f s, Issues w 6 0x05 f false s → (∀ c, (wkGet w s).oc.getD c 0 < 4096) → (wkGet w s).fp < 16 →
     ∃ t, exec (.rdws w f) s = .next t ∧
     (let x := wkGet w s
      let v := sreg w t f.d
      (∀ c, c < 4 → v.extractLsb' (12 * c) 12 = BitVec.ofNat 12 (x.oc.getD c 0)) ∧ v.getLsbD 48 = x.ev ∧
      v.extractLsb' 49 4 = BitVec.ofNat 4 x.fp ∧ v.extractLsb' 53 11 = 0) ∧ ScalarSet w f.d (sreg w t f.d) s t) ∧
   (∀ w f s, Issues w 6 0x06 f false s → ∃ t, exec (.clrws w f) s = .next t ∧
     wkGet w t = { movedOn (wkGet w s) with fp := 0 } ∧ WickFrame w s t)) ∧
  (∀ w f s, Issues w 6 0x00 f false s → roomFor s w.q w.e false = true →
     let wide := f.mod.getLsbD 0
     let start := f.mod.getLsbD 1
     let final := f.mod.getLsbD 2
     let a := (sreg w s f.a).toNat
     let n := (sreg w s f.b).toNat
     let out := (sreg w s f.c).toNat
     (start = true ∨ ∀ v p, (wkGet w s).hash = some (v, p) → v = wide) →
     (final = true ∨ n % (if wide then 72 else 136) = 0) → a + n ≤ 2 ^ 18 →
     (final = true → out + (if wide then 64 else 32) ≤ 2 ^ 18) →
     ∃ t, exec (.hash w f) s = .next t ∧ LongIssued w f (.hash a n wide start final out) false 0 none s t ∧
       AccessFrame w s t ∧ NothingSent w.q s t ∧ t.sw = s.sw ∧ t.igStacks = s.igStacks) ∧
  (∀ w f s, Issues w 6 0x04 f false s → ∃ t, exec (.trap w f) s = .next t ∧
     wkGet w t = { wkGet w s with state := wkFault, wait := .none, quantum := 0 } ∧
     reg t (Reg.wkFault w.q w.e w.w) = BitVec.ofNat 32 ((wkGet w s).pc.toNat * 2 ^ 8 + 0x0D) ∧
     reg64 t (Reg.wkFaddrLo w.q w.e w.w) (Reg.wkFaddrHi w.q w.e w.w) = (sreg w s f.a).toNat ∧
     reg t (Reg.wkTrap w.q w.e w.w) = f.imm16.setWidth 32 ∧
     Counted (Ctr.lxFaults w.q) s t ∧ Raised (64 * w.q.val + 37) s t ∧ (lx t w.q).ls = (lx s w.q).ls ∧
     (lx t w.q).ops = (lx s w.q).ops)

/-- R444, R445: a valid input brings an unpowered device up to the boot ROM with its fuses, NOR and pins as they were; its
loss leaves nothing but those. R446: a fault of the 6 V bus or a service die rail leaves the device unpowered with code
0x8010; of any other rail it leaves the unit FAILED with cause RAIL. The sequencer tries once more after a first failure. -/
def Obligations.PowerAndRails : Prop :=
  ((∀ s : State, s.power.on = false → ∃ t, exec .inputValid s = .next t ∧
     t.power = ⟨true, 0, false⟩ ∧ reg t Reg.bootStatus = 0x10 ∧ rb t Reg.pwrStatus 31 = true ∧
     4350 ≤ rf t Reg.pwrStatus 15 0 ∧ rf t Reg.pwrStatus 15 0 ≤ 5850 ∧ reg t Reg.capUnits = s.fuses.cap ∧
     t.fuses = s.fuses ∧ t.boot.norBoot = s.boot.norBoot ∧ t.cal.stored = s.cal.stored ∧ t.cal.working = s.cal.stored ∧
     t.mem = [] ∧ t.log = LogSt.init ∧ t.pending = s.pending) ∧
   (∀ s : State, s.power.on = true → s.boot.cfgPending = none → s.cal.programming = false →
     ∃ t, exec .inputLost s = .next t ∧ Dark s t ∧ (∀ a, pinAddr a = false → reg t a = resetAt a) ∧
       t.boot.norBoot = s.boot.norBoot ∧ t.cal.stored = s.cal.stored) ∧
   (∀ s v, s.power.on = true → s.boot.cfgPending = some v → ∃ t, exec .inputLost s = .next t ∧ Dark s t ∧
     (t.boot.norBoot = s.boot.norBoot ∨ t.boot.norBoot = v)) ∧
   (∀ s : State, s.power.on = true → s.cal.programming = true → ∃ t, exec .inputLost s = .next t ∧ Dark s t ∧
     calCheck s.fuses.serial t.cal.stored ≠ 0)) ∧
  ((∀ s r, r = .bus ∨ r = .serviceDie → ∃ t, exec (.railFault r) s = .next t ∧ t.power.on = false ∧
     t.power.busFails = s.power.busFails + 1 ∧ t.fuses = s.fuses ∧ (s.power.on = true → Dark s t) ∧
     rf t Reg.bootStatus 15 0 = 0x8010 ∧ rf t Reg.bootStatus 23 16 = 0x10) ∧
   (∀ (s : State) (u : Fin 164), s.power.on = true → unitFitted s u = true → unitState s u ≠ 7 →
     ∃ t, exec (.railFault (.unit u)) s = .next t ∧ unitState t u = 7 ∧ rf t (Reg.unitState u) 23 16 = 2 ∧
       rb t Reg.pwrStatus 30 = true ∧ t.power = s.power ∧ t.fuses = s.fuses) ∧
   (∀ s : State, s.power.on = false → s.power.busFails = 1 → ∃ t, exec .railRetry s = .next t ∧
     t.power = ⟨true, 1, false⟩ ∧ reg t Reg.bootStatus = 0x10 ∧ t.fuses = s.fuses) ∧
   (∀ s : State, s.power.busFails ≠ 1 → exec .railRetry s = .next s))

/-- R42, R496: a change of a feed shows in PWR_FEED and raises source 258 and nothing else; a guard bit that sets is a fault
of its quadrant, whose traffic goes on. R504: the sense contact of an engine's array closes and opens with its lasers, in
MATED; that of S0 shows in PWR_FEED. -/
def Obligations.FeedsGuardsAndReceptacles : Prop :=
  ((∀ s feed ok, let b := match feed with
       | .a => 31
       | .b => 30
     rb s Reg.pwrFeed b ≠ ok → ∃ t, exec (.feedChange feed ok) s = .next t ∧ rb t Reg.pwrFeed b = ok ∧ Raised 258 s t ∧
       t = { s with regs := t.regs, out := t.out } ∧ SameRegsBut (fun a => a = Reg.pwrFeed ∨ IntReg 258 a) s t ∧
       (∀ c, c < 32 → c ≠ b → rb t Reg.pwrFeed c = rb s Reg.pwrFeed c)) ∧
   (∀ s q, rb s Reg.clkStatus (20 + q.val) = false → ∃ t, exec (.mesoGuardSet q) s = .next t ∧
     rb t Reg.clkStatus (20 + q.val) = true ∧ Raised 258 s t ∧ Logged 4 0x0907 4 9 0 (leBytes 8 q.val ++ leBytes 8 0) s t ∧
     t = { s with regs := t.regs, out := t.out, log := t.log } ∧
     SameRegsBut (fun a => a = Reg.clkStatus ∨ IntReg 258 a) s t)) ∧
  ((∀ s, ∃ t, exec (.mateCloseDebounced .s0) s = .next t ∧ rb t Reg.pwrFeed 29 = true ∧
     OnlyRegsChanged (fun a => a = Reg.pwrFeed) s t) ∧
   (∀ s, ∃ t, exec (.mateOpen .s0) s = .next t ∧ rb t Reg.pwrFeed 29 = false ∧
     OnlyRegsChanged (fun a => a = Reg.pwrFeed) s t) ∧
   (∀ s (p : PeIx), rb s (Reg.peMate (p.val / 4) (p.val % 4)) 0 = false →
     ∃ t, exec (.mateCloseDebounced (.pe p)) s = .next t ∧ rb t (Reg.peMate (p.val / 4) (p.val % 4)) 0 = true ∧
       (quadShut s (p.val / 4) = true →
         OnlyRegsChanged (fun a => a = Reg.peMate (p.val / 4) (p.val % 4)) s t)) ∧
   (∀ s (p : PeIx), rb s (Reg.peMate (p.val / 4) (p.val % 4)) 0 = true →
     ∃ t, exec (.mateOpen (.pe p)) s = .next t ∧ rb t (Reg.peMate (p.val / 4) (p.val % 4)) 0 = false ∧
       Emit.lasersOff p.val ∈ t.out ∧
       (quadShut s (p.val / 4) = true →
         t = { s with regs := t.regs, out := .lasersOff p.val :: s.out } ∧
         SameRegsBut (fun a => a = Reg.peMate (p.val / 4) (p.val % 4)) s t)))

/-- R41, R447 to R449: a warm reset records its cause, copies NEXT into ACTIVE, clears what it resets and starts the boot ROM
at S0_TRAIN, keeping the fuses, the Ember log's ring and the NOR. The loss of ROOT_LOCK holds the quadrants in reset, and its
return is a warm reset; so is the sequence written within 1 ms. -/
def Obligations.WarmResets : Prop :=
  (∀ s cause, ∃ t, exec (.warmReset cause) s = .next t ∧ rf t Reg.rstCause 3 0 = cause.toNat ∧
    reg t Reg.bootStatus = 0x10 ∧ rf t Reg.sdPersonality 17 16 = rf s Reg.sdPersonality 1 0 ∧
    t.fuses = s.fuses ∧ t.log.ring = s.log.ring ∧ t.boot.norBoot = s.boot.norBoot ∧ t.cal.stored = s.cal.stored ∧
    t.cal.working = s.cal.stored ∧ t.mem = [] ∧ t.links = [] ∧ t.lx = [] ∧ t.ce = [] ∧ t.time = TimeSt.init ∧
    rb t Reg.hifStatus 27 = true ∧ t.pending = s.pending) ∧
  (∀ s : State, rb s Reg.clkStatus 1 = true → ∃ t, exec .rootUnlock s = .next t ∧ t.power.waitLock = true ∧
    rb t Reg.clkStatus 1 = false ∧ (∀ q, q < 4 → unitState s q ≠ 7 → unitState t q = 2) ∧
    rb t Reg.hifStatus 31 = false) ∧
  (∀ s : State, rb s Reg.clkStatus 1 = false → exec .rootUnlock s = .next s) ∧
  (∀ s : State, s.power.waitLock = true → ∃ t, exec .rootLockReturn s = .next t ∧ rf t Reg.rstCause 3 0 = 3 ∧
    t.power.waitLock = false ∧ reg t Reg.bootStatus = 0x10) ∧
  (∀ s fw, ∃ t, exec (.resetSeqArm fw) s = .next t ∧ t.boot.armed = some s.time.l ∧
    (s.boot.armed = none → t = { s with boot := { s.boot with armed := some s.time.l } }) ∧
    (s.boot.armed ≠ none → t = { s with boot := { s.boot with armed := some s.time.l }, ctr := t.ctr } ∧
      Counted Ctr.rstBadSeq s t)) ∧
  (∀ s fw l, s.boot.armed = some l → s.time.l ≤ l + 800000 → ∃ t, exec (.resetSeqConfirm fw) s = .next t ∧
    rf t Reg.rstCause 3 0 = (if fw then 2 else 1) ∧ reg t Reg.bootStatus = 0x10 ∧ t.boot.armed = none) ∧
  (∀ s fw, (∀ l, s.boot.armed = some l → l + 800000 < s.time.l) → ∃ t, exec (.resetSeqConfirm fw) s = .next t ∧
    t = { s with boot := { s.boot with armed := none }, ctr := t.ctr } ∧ Counted Ctr.rstBadSeq s t)

/-- R450, R451, R453: the staging window takes the enabled bytes of a write while it is open and refuses them during VERIFY;
WAIT_IMAGE follows S0_TRAIN; GO_HOST copies the staged image and starts the checks; their end starts the firmware or names the
first failure. -/
def Obligations.BootFromHost : Prop :=
  (∀ s off bs, perstHigh s = true → s.host.d3hot = false → (bootStage s = 0x20 ∨ bootStage s = 0x21) →
    off + bs.length ≤ 2 ^ 24 → ∃ t, exec (.stagingWrite off bs) s = .next t ∧
      (∀ i, i < bs.length → Tbl.get 0 t.boot.staging (off + i) = (bs.getD i none).getD (Tbl.get 0 s.boot.staging (off + i))) ∧
      (∀ a, (a < off ∨ off + bs.length ≤ a) → Tbl.get 0 t.boot.staging a = Tbl.get 0 s.boot.staging a) ∧
      t = { s with boot := { s.boot with staging := t.boot.staging } }) ∧
  (∀ s off bs, perstHigh s = true → s.host.d3hot = false → bootStage s = 0x30 →
    ∃ t, exec (.stagingWrite off bs) s = .next t ∧ t = { s with ctr := t.ctr } ∧ Counted Ctr.stageWrRej s t) ∧
  (∀ s, bootStage s = 0x10 → ∃ t, exec .waitImage s = .next t ∧ bootStage t = 0x20 ∧
    OnlyRegsChanged (fun a => a = Reg.bootStatus) s t) ∧
  (∀ s, bootStage s = 0x20 → ∃ t, exec .goHost s = .next t ∧ bootStage t = 0x30 ∧ rf t Reg.bootStatus 25 24 = 1 ∧
    (∀ a, a < 12582912 + 16384 → Tbl.get 0 t.boot.image a = Tbl.get 0 s.boot.staging a) ∧
    t.boot.staging = s.boot.staging ∧ t = { s with regs := t.regs, boot := t.boot } ∧
    SameRegsBut (fun a => a = Reg.bootStatus) s t) ∧
  (∀ s, bootStage s = 0x30 →
    let h := imageBytes s 0 16384
    let body := imageBytes s 16384 (leAt h 8 4)
    ∃ t, exec .imageCheckDone s = .next t ∧ t.fuses = s.fuses ∧
      (imageCheck s.fuses h (sha3_512 (h.take 0x40 ++ body)) = 0 →
        bootStage t = 0x40 ∧ t.boot.running = true ∧ t.boot.svn = leAt h 0xC 4 ∧ t.boot.imageLen = 16384 + leAt h 8 4 ∧
        t.boot.image = s.boot.image ∧ (∀ n, rslot t n = RsSlot.init) ∧
        (∀ j, j < 16 → reg t (Reg.fwDigest j) = BitVec.ofNat 32 (leAt (sha3_512 (h.take 0x40 ++ body)) (4 * j) 4))) ∧
      (imageCheck s.fuses h (sha3_512 (h.take 0x40 ++ body)) ≠ 0 →
        BootFailed (imageCheck s.fuses h (sha3_512 (h.take 0x40 ++ body))) s t ∧ t.boot = s.boot))

/-- R456, R458: the fetch from a peer spine starts from WAIT_IMAGE with PEER_EN, at GO_PEER or when no host has come; a bad
calibration set ends it with PEER_CAL; it takes the data it asked for, and the whole image starts the checks. -/
def Obligations.BootFromPeer : Prop :=
  (∀ s c, c = .goPeer ∨ (c = .hostWaitExpiry ∧ rb s Reg.hifStatus 28 = false) → bootStage s = 0x20 →
    rb s Reg.bootCfg 31 = true →
    ∃ t, exec c s = .next t ∧ (rb s Reg.calStatus 31 = true → BootFailed 0x8007 s t) ∧
      (rb s Reg.calStatus 31 = false → bootStage t = 0x21 ∧ t.boot.fetch = some ⟨none, 0, [], []⟩ ∧
        (regGated s (Reg.ftCfg (fiberQuad (bootFiber s)) (fiberTile (bootFiber s))) = false → devFault s = false →
          unitState s (36 + bootFiber s) = 4 →
          fiberMode t (bootFiber s) = 1 ∧ fiberEn t (bootFiber s) = true))) ∧
  (∀ s (off total : BitVec 32) (svn : BitVec 8) bs f, s.boot.fetch = some f → off.toNat ∈ f.outstanding →
    (f.total = none ∨ f.total = some total.toNat) → off.toNat < total.toNat → total.toNat ≤ 2 ^ 24 →
    bs.length = min 4096 (total.toNat - off.toNat) → bootStage s = 0x21 →
    ∃ t, exec (.bootDataRx off total svn bs) s = .next t ∧
      (∀ i, i < bs.length → Tbl.get 0 t.boot.staging (off.toNat + i) = bs.getD i 0) ∧
      ((f.held.length + 1) * 4096 < total.toNat → bootStage t = 0x21 ∧
        ∃ f', t.boot.fetch = some f' ∧ f'.held = f.held ++ [off.toNat] ∧ f'.total = some total.toNat) ∧
      (total.toNat ≤ (f.held.length + 1) * 4096 →
        bootStage t = 0x30 ∧ t.boot.fetch = none ∧ rf t Reg.bootStatus 25 24 = 2)) ∧
  (∀ s off, s.boot.fetch ≠ none → ∃ t, exec (.bootNakRx off) s = .next t ∧ t.boot.fetch = none ∧ bootStage t = 0x20 ∧
    rf t Reg.bootStatus 23 16 = 0x08) ∧
  (∀ s (off : BitVec 32) f, s.boot.fetch = some f → off.toNat ∈ f.outstanding → linkUp s (8 * bootFiber s) = true →
    bootFiber s < 128 →
    ∃ t, exec (.bootReqTimeout off) s = .next t ∧ t.boot = s.boot ∧
      Queued (linkQuad (8 * bootFiber s)) (8 * bootFiber s) (bootMessage 0x40 off.toNat) [] t)

/-- R457: a spine serves an offset of its image store to a booting device on a fiber that BOOT_SRV names, and answers BOOT_NAK
beyond it or without an image. R456: a write of BOOT_CFG shows at once and sets BUSY until the NOR holds it; while BUSY it is
ignored. -/
def Obligations.BootServingAndConfiguration : Prop :=
  (∀ s (k : LinkIx) (off : BitVec 32), linkUp s k = true → isBootLink s k = true → bootServed s (linkFiber k) = true →
     off.toNat % 4096 = 0 → ∃ t, exec (.bootReqRx k off) s = .next t ∧ t.boot = s.boot ∧
       ((s.boot.running = false ∨ s.boot.imageLen ≤ off.toNat) →
         Queued (linkQuad k) k (bootMessage 0x42 off.toNat) [] t) ∧
       (s.boot.running = true → off.toNat < s.boot.imageLen →
         Queued (linkQuad k) k (bootMessage 0x41 off.toNat)
           (imageBytes s off.toNat (min 4096 (s.boot.imageLen - off.toNat))) t)) ∧
  ((∀ s v, rb s Reg.bootCfg 30 = false → ∃ t, exec (.bootCfgWrite v) s = .next t ∧ rb t Reg.bootCfg 30 = true ∧
     t.boot = { s.boot with cfgPending := some (v &&& rwMaskAt Reg.bootCfg) } ∧
     reg t Reg.bootCfg &&& rwMaskAt Reg.bootCfg = v &&& rwMaskAt Reg.bootCfg ∧
     t = { s with regs := t.regs, boot := t.boot } ∧ SameRegsBut (fun a => a = Reg.bootCfg) s t) ∧
   (∀ s v, rb s Reg.bootCfg 30 = true → exec (.bootCfgWrite v) s = .next s) ∧
   (∀ s v, s.boot.cfgPending = some v → ∃ t, exec .bootCfgStored s = .next t ∧ rb t Reg.bootCfg 30 = false ∧
     t.boot = { s.boot with norBoot := v, cfgPending := none } ∧
     t = { s with regs := t.regs, boot := t.boot } ∧ SameRegsBut (fun a => a = Reg.bootCfg) s t))

/-- R454, R455, R461: one command at a time. ROLLBACK rises to the running image's SVN and never beyond, and no command lowers
it or clears an owner key or OWNER_REQ; a refused command changes no fuse. -/
def Obligations.FuseCommands : Prop :=
  (∀ s c, c = .svnAdvance ∨ c = .ownerEnroll ∨ c = .ownerRequire ∨ c = .attest → rb s Reg.secStatus 31 = true →
    ∃ t, exec c s = .next t ∧ t = { s with ctr := t.ctr } ∧ Counted Ctr.secRej s t) ∧
  (∀ s, rb s Reg.secStatus 31 = false → ∃ t, exec .svnAdvance s = .next t ∧
    rf t Reg.secStatus 3 0 = (if s.boot.running then 0 else 1) ∧
    t.fuses = { s.fuses with rollback := if s.boot.running then max s.fuses.rollback s.boot.svn else s.fuses.rollback } ∧
    t = { s with regs := t.regs, fuses := t.fuses, log := t.log, out := t.out }) ∧
  (∀ s, rb s Reg.secStatus 31 = false → ∃ t, exec .ownerEnroll s = .next t ∧
    (let enrolled := s.fuses.ownerKeyHash.any (· != 0)
     rf t Reg.secStatus 3 0 = (if enrolled then 1 else 0) ∧
     (enrolled = true → t.fuses = s.fuses) ∧
     (enrolled = false → wordsAt s (Reg.secArg 0) 16 ≠ zeroBytes 64 →
       t.fuses = { s.fuses with ownerKeyHash := wordsAt s (Reg.secArg 0) 16 } ∧ Raised 258 s t)) ∧
    t = { s with regs := t.regs, fuses := t.fuses, log := t.log, out := t.out }) ∧
  (∀ s, rb s Reg.secStatus 31 = false → ∃ t, exec .ownerRequire s = .next t ∧
    (let enrolled := s.fuses.ownerKeyHash.any (· != 0)
     rf t Reg.secStatus 3 0 = (if enrolled then 0 else 1) ∧
     t.fuses = { s.fuses with ownerReq := s.fuses.ownerReq || enrolled }) ∧
    t = { s with regs := t.regs, fuses := t.fuses, log := t.log, out := t.out })

/-- R460, R461: ATTEST takes its snapshot and sets BUSY; the signed report stands in ATT_BUF when it is done. The report names
the device, its personality, its nonce, its firmware and its rollback count as they stood at the snapshot. -/
def Obligations.Attestation : Prop :=
  (∀ s, rb s Reg.secStatus 31 = false → ∃ t, exec .attest s = .next t ∧ rb t Reg.secStatus 31 = true ∧
    t.sec = ⟨some (report s), s.sec.attBuf⟩ ∧ t = { s with regs := t.regs, sec := t.sec } ∧
    SameRegsBut (fun a => a = Reg.secStatus) s t) ∧
  (∀ s r, s.sec.building = some r → ∃ t, exec .attestDone s = .next t ∧ rb t Reg.secStatus 31 = false ∧
    rf t Reg.secStatus 3 0 = 0 ∧ t.sec = ⟨none, r ++ padTo 4627 (Config.mldsaSign (sha3_512 r))⟩ ∧
    t = { s with regs := t.regs, sec := t.sec } ∧ SameRegsBut (fun a => a = Reg.secStatus) s t) ∧
  (∀ s, (report s).length = 3392 ∧ leAt (report s) 0 4 = 0xA31DA77E ∧ leAt (report s) 4 2 = 1 ∧
    leAt (report s) 8 8 = s.fuses.serial.toNat ∧ leAt (report s) 16 4 = (reg s Reg.capUnits).toNat ∧
    byteAt (report s) 20 = rf s Reg.sdPersonality 17 16 ∧ byteAt (report s) 21 = rf s Reg.bootStatus 25 24 ∧
    (∀ j, j < 16 → leAt (report s) (64 + 4 * j) 4 = (reg s (Reg.attNonce j)).toNat) ∧
    (∀ j, j < 16 → leAt (report s) (128 + 4 * j) 4 = (reg s (Reg.fwDigest j)).toNat) ∧
    byteAt (report s) 196 = s.fuses.rollback % 256)

/-- R41, R463, R464: the conditions on which UR_CMD starts a RESET, HOLD or RELEASE; while the device waits for ROOT_LOCK
every die is in reset, and no unit command acts. R463, R464: a unit command ends with RESULT OK in SERVICE or HELD, or with
INIT_FAIL in FAILED; without a command nothing happens. -/
def Obligations.UnitCommands : Prop :=
  ((∀ s (kind : BitVec 4) (ix : BitVec 16) force c, c = .unitReset kind ix force ∨ c = .unitHold kind ix force ∨
       c = .unitRelease kind ix → rb s Reg.urStatus 31 = true →
       s.power.waitLock = false →
     ∃ t, exec c s = .next t ∧ t = { s with ctr := t.ctr } ∧ Counted Ctr.urRej s t) ∧
   (∀ s (kind : BitVec 4) (ix : BitVec 16) force hold, rb s Reg.urStatus 31 = false → s.power.waitLock = false →
     ∃ t, exec (if hold then .unitHold kind ix force else .unitReset kind ix force) s = .next t ∧
       ((urNames kind.toNat ix.toNat = false ∨ (hold = true ∧ kind = 0)) →
         rf t Reg.urStatus 3 0 = 1 ∧ OnlyRegsChanged (fun a => a = Reg.urStatus) s t) ∧
       (urNames kind.toNat ix.toNat = true → kind ≠ 0 → unitState s ix.toNat = 0 →
         rf t Reg.urStatus 3 0 = 2 ∧ OnlyRegsChanged (fun a => a = Reg.urStatus) s t) ∧
       (urNames kind.toNat ix.toNat = true → kind ≠ 0 → unitState s ix.toNat = 1 →
         rf t Reg.urStatus 3 0 = 3 ∧ OnlyRegsChanged (fun a => a = Reg.urStatus) s t) ∧
       (urNames kind.toNat ix.toNat = true → (kind = 0 → hold = false) → (kind ≠ 0 → 2 ≤ unitState s ix.toNat) →
         ∀ r, urPre kind.toNat ix.toNat force s = some r →
           rf t Reg.urStatus 3 0 = r % 16 ∧ OnlyRegsChanged (fun a => a = Reg.urStatus) s t) ∧
       (urNames kind.toNat ix.toNat = true → (kind = 0 → hold = false) → (kind ≠ 0 → 2 ≤ unitState s ix.toNat) →
         urPre kind.toNat ix.toNat force s = none → rb t Reg.urStatus 31 = true ∧ rf t Reg.urStatus 3 0 = 0 ∧
           t.unit.cmd = some ⟨kind.toNat, ix.toNat, hold⟩ ∧ (kind ≠ 0 → unitState t ix.toNat = 2))) ∧
   (∀ s (kind : BitVec 4) (ix : BitVec 16), rb s Reg.urStatus 31 = false → s.power.waitLock = false →
     urNames kind.toNat ix.toNat = true → kind ≠ 0 →
     unitState s ix.toNat = 5 → (kind = 4 ∨ kind = 5 ∨ quadShut s (unitQuad ix.toNat) = false) →
     ∃ t, exec (.unitRelease kind ix) s = .next t ∧ rf t Reg.urStatus 3 0 = 0 ∧
       unitState t ix.toNat =
         (if kind = 4 ∧ rb s (Reg.igCtrl ((ix.toNat - 20) / 3) ((ix.toNat - 20) % 3)) 31 = true then 6 else 4)) ∧
   (∀ s (kind : BitVec 4) (ix : BitVec 16) force ok c, c = .unitReset kind ix force ∨ c = .unitHold kind ix force ∨
       c = .unitRelease kind ix ∨ c = .unitResetDone ok → s.power.waitLock = true → exec c s = .next s)) ∧
  ((∀ s ok, s.unit.cmd = none → exec (.unitResetDone ok) s = .next s) ∧
   (∀ s c, s.unit.cmd = some c → c.kind ≠ 0 → c.kind ≤ 5 → urNames c.kind c.index = true →
     s.power.waitLock = false → ∃ t, exec (.unitResetDone false) s = .next t ∧ rb t Reg.urStatus 31 = false ∧
       rf t Reg.urStatus 3 0 = 5 ∧
       t.unit.cmd = none ∧ unitState t c.index = 7) ∧
   (∀ s c, s.unit.cmd = some c → c.kind ≠ 0 → c.kind ≤ 5 → urNames c.kind c.index = true →
     s.power.waitLock = false → ∃ t, exec (.unitResetDone true) s = .next t ∧ rb t Reg.urStatus 31 = false ∧
       rf t Reg.urStatus 3 0 = 0 ∧
       t.unit.cmd = none ∧ unitState t c.index = (if c.hold = true ∨ 3 ≤ c.kind then 5 else 4)) ∧
   (∀ s c ok, s.unit.cmd = some c → c.kind = 0 → s.power.waitLock = false → ∃ t, exec (.unitResetDone ok) s = .next t ∧
     rb t Reg.urStatus 31 = false ∧ rf t Reg.urStatus 3 0 = (if ok then 0 else 5) ∧ t.unit.cmd = none))

/-- R487, R488: an entry in repair is named until its repair is done and logged; an error in a quadrant's state stops its
tiles and holds it, at once or after the running unit command. R489, R490: a thermal trip is a fault of class DEVICE:
FAULT_STATUS names it with its time, and the quadrants go to RESET; a second fault leaves FAULT_STATUS alone. -/
def Obligations.RepairsAndFaults : Prop :=
  ((∀ s tbl e (q : Quad), quadShut s q = false → ∃ t, exec (.tableParityErr tbl e (.quadrant q)) s = .next t ∧
     t = { s with repairs := s.repairs ++ [(tableCode tbl, e, q.val)] }) ∧
   (∀ s tbl e, devFault s = false → ∃ t, exec (.tableParityErr tbl e .master) s = .next t ∧ devFault t = true ∧
     rf t Reg.faultStatus 15 0 = 0x0A01 ∧ t.repairs = s.repairs) ∧
   (∀ s x rest, s.repairs = x :: rest → x.2.2 < 4 → ∃ t, exec .tableRepairDone s = .next t ∧
     t = { s with repairs := rest, log := t.log, ctr := t.ctr } ∧
     ((s.log.queues.getD x.2.2 []).length < 64 → Logged x.2.2 0x0A02 1 0 x.2.2 (dataG x.1 x.2.1) s t)) ∧
   (∀ s (q : Quad) code, quadShut s q = false → rb s Reg.urStatus 31 = true →
     ∃ t, exec (.quadStateErr q code) s = .next t ∧ q.val ∈ t.unit.stopped ∧ t.unit.deferred.getLast? = some q.val ∧
       t.unit.cmd = s.unit.cmd ∧ t = { s with unit := t.unit, log := t.log, ctr := t.ctr }) ∧
   (∀ s (q : Quad) code, quadShut s q = false → rb s Reg.urStatus 31 = false → unitState s q ≠ 0 → unitState s q ≠ 1 →
     s.power.waitLock = false → ∃ t, exec (.quadStateErr q code) s = .next t ∧ t.unit.cmd = some ⟨5, q.val, true⟩ ∧
       unitState t q = 2) ∧
   (∀ s q rest, s.unit.deferred = q :: rest → q < 4 → rb s Reg.urStatus 31 = false → quadShut s q = false →
     unitState s q ≠ 0 → unitState s q ≠ 1 → s.power.waitLock = false →
     ∃ t, exec .quadHoldDeferred s = .next t ∧ t.unit.deferred = rest ∧ t.unit.cmd = some ⟨5, q, true⟩ ∧ unitState t q = 2)) ∧
  ((∀ s sensor reading, devFault s = false → ∃ t, exec (.thermalTrip sensor reading) s = .next t ∧
     reg t Reg.faultStatus = BitVec.ofNat 32 (2 ^ 31 + 0x0A04) ∧
     reg64 t Reg.faultTimeLo Reg.faultTimeHi = devTicks s % 2 ^ 64 ∧ (∀ q, q < 4 → unitState t q = 2) ∧
     (∀ q, q < 4 → lx t q = LxSt.init ∧ ce t q = CeSt.init ∧ sw t q = SwSt.init) ∧ t.unit.cmd = none) ∧
   (∀ s sensor reading, devFault s = true → ∃ t, exec (.thermalTrip sensor reading) s = .next t ∧
     reg t Reg.faultStatus = reg s Reg.faultStatus))

/-- R35, R57, R75, R101, R104, R490: setting EN of a TERM or PEER fiber starts its links in LIGHT, clearing EN disables them
and holds rotation; MODE and WIDTH change only while EN is 0, and EN stays as it is while the calibration set is bad or a
DEVICE fault is in force. -/
def Obligations.FiberEnabling : Prop :=
  (∀ s (f : FiberIx), regGated s (Reg.ftCfg (fiberQuad f) (fiberTile f)) = false → fiberEn s f = false →
    rb s Reg.calStatus 31 = false → devFault s = false → unitState s (36 + f.val) = 4 →
    ∃ t, exec (.fiberEnable f) s = .next t ∧ fiberEn t f = true ∧ fiberMode t f = fiberMode s f ∧
      (isTerminated s f = true → ∀ k ∈ fiberLinks s f, linkState t k = 1)) ∧
  (∀ s (f : FiberIx), regGated s (Reg.ftCfg (fiberQuad f) (fiberTile f)) = false → fiberEn s f = true →
    rb s Reg.calStatus 31 = false → devFault s = false →
    ∃ t, exec (.fiberDisable f) s = .next t ∧ fiberEn t f = false ∧ darkSlot t f = 15 ∧ rb t (aStatus f) 25 = true ∧
      (∀ c, c < 9 → slotState t f c = 0) ∧ (∀ i, i < 8 → linkState t (8 * f.val + i) = 0)) ∧
  (∀ s (f : FiberIx) c, (c = .fiberEnable f ∨ c = .fiberDisable f) →
    regGated s (Reg.ftCfg (fiberQuad f) (fiberTile f)) = false → (rb s Reg.calStatus 31 = true ∨ devFault s = true) →
    ∃ t, exec c s = .next t ∧ fiberEn t f = fiberEn s f) ∧
  (∀ s (f : FiberIx) v, regGated s (Reg.ftCfg (fiberQuad f) (fiberTile f)) = false → fiberEn s f = false →
    ((fld v 27 26 = 3 → fiberMode s f ≠ 3 → fused s = true ∧ peerCount s f < 8) ∧ (fld v 27 26 = 3 → fld v 25 24 = 0)) →
    ∃ t, exec (.fiberModeWrite f v) s = .next t ∧ fiberMode t f = fld v 27 26 ∧ fiberWidthCode t f = fld v 25 24 ∧
      fiberEn t f = false ∧
      OnlyRegsChanged (fun a => a = Reg.ftCfg (fiberQuad f) (fiberTile f)) s t) ∧
  (∀ s (f : FiberIx) v, regGated s (Reg.ftCfg (fiberQuad f) (fiberTile f)) = false → fiberEn s f = true →
    ∃ t, exec (.fiberModeWrite f v) s = .next t ∧ fiberMode t f = fiberMode s f ∧
      fiberWidthCode t f = fiberWidthCode s f ∧ fld (ftCfg t f) 23 20 = fld v 23 20 ∧ fiberEn t f = true ∧
      OnlyRegsChanged (fun a => a = Reg.ftCfg (fiberQuad f) (fiberTile f)) s t) ∧
  (∀ s (f : FiberIx) c, (c = .fiberEnable f ∨ c = .fiberDisable f ∨ ∃ v, c = .fiberModeWrite f v) →
    regGated s (Reg.ftCfg (fiberQuad f) (fiberTile f)) = true → exec c s = .next s)

/-- R57: light takes a link from LIGHT to LOCK, enough LOCKED rings with adapted lanes from TRAIN to ALIGN; a time limit in
LOCK to PARTNER sends it back to LIGHT with a back-off, which its expiry ends. R49 to R51, R57, R58, R70, R82, R95: a good
block aligns its lane or brings the partner's identity; a block that names another slot, or whose pilot disagrees, is counted
in WRONG_SLOT and judges nothing; each period's blocks leave on an enabled fiber, with its number and identity, at a boundary
that is a multiple of 20,800 ticks. -/
def Obligations.LinkTrainingAndAlignment : Prop :=
  ((∀ s (k : LinkIx), Trains k s → linkState s k = 1 → (link s k).backoff = false →
     ∃ t, exec (.linkLightDetected k) s = .next t ∧
       (linkState t k = 2 ∨ (linkState t k = 3 ∧ minLanes t (linkFiber k) ≤ (lockedSlots t k).length))) ∧
   (∀ s (k : LinkIx), Trains k s → linkState s k = 3 →
     minLanes s (linkFiber k) ≤ ((lockedSlots s k).filter (ownSlots s k).contains).length →
     ∃ t, exec (.linkTrainDone k) s = .next t ∧ linkState t k = 4 ∧ (link t k).aligned = 0 ∧
       (∀ c, c < 9 → ((link t k).trained.getLsbD c = true ↔ c ∈ lockedSlots s k ∧ c ∈ ownSlots s k))) ∧
   (∀ s (k : LinkIx), Trains k s → 2 ≤ linkState s k → linkState s k ≤ 5 →
     ∃ t, exec (.trainStateTimeout k) s = .next t ∧ linkState t k = 1 ∧ (link t k).backoff = true) ∧
   (∀ s (k : LinkIx), ∃ t, exec (.trainBackoffExpiry k) s = .next t ∧ LinkSet k { link s k with backoff := false } s t)) ∧
  ((∀ s (f : FiberIx), fiberEn s f = true → isTerminated s f = true → quadShut s (fiberQuad f) = false →
     ∃ t b blocks, exec (.alignPeriodTx f) s = .next t ∧ (fiber t f).boundary = some b ∧ s.time.l ≤ b ∧ t.time.l = b ∧
       ((fiber s f).boundary = none → b % 20800 = 0 ∧ (fiber t f).period = (fiber s f).period + 1) ∧
       (∀ x, (fiber s f).boundary = some x → x < b ∧ (x % 20800 = 0 → b % 20800 = 0) ∧
         (fiber t f).period = (fiber s f).period + BitVec.ofNat 32 ((b - x) / 20800)) ∧
       Emit.alignBlocks f blocks ∈ t.out ∧
       (∀ x ∈ blocks, (∃ c : Slot, slotNamed x c = true) ∧ x.fiber = BitVec.ofNat 7 f ∧ x.version = 1 ∧
         x.period = (fiber t f).period ∧ x.width = BitVec.ofNat 2 (fiberWidthCode s f) ∧
         x.role = (if isBootFiber s f then 3 else if isPeer s f then 2 else 1) ∧
         x.epid = (if isBootFiber s f then 0xFFFFFF else s.fuses.epid))) ∧
   (∀ s (f : FiberIx) (c : Slot) b pilot late frac, fiberEn s f = true → isTerminated s f = true →
     quadShut s (fiberQuad f) = false → (slotNamed b c = false ∨ pilot = false) →
     ∃ t, exec (.alignBlockRx f c b pilot late frac) s = .next t ∧ Counted (Ctr.wrongSlot (fiberQuad f) (fiberTile f) c) s t) ∧
   (∀ s (f : FiberIx) (c : Slot) b frac, fiberEn s f = true → isTerminated s f = true → quadShut s (fiberQuad f) = false →
     slotNamed b c = true → dropLocked s f c = true → linkState s (blockLink s f c) = 4 →
     (link s (blockLink s f c)).trained.getLsbD c.val = true →
     ∃ t, exec (.alignBlockRx f c b true false frac) s = .next t ∧
       (link t (blockLink s f c)).aligned = (link s (blockLink s f c)).aligned ||| oneSlot c) ∧
   (∀ s (f : FiberIx) (c : Slot) b late frac, fiberEn s f = true → isTerminated s f = true →
     quadShut s (fiberQuad f) = false → slotNamed b c = true → dropLocked s f c = true →
     linkState s (blockLink s f c) = 5 → partnerOk s (blockLink s f c) (blockPartner b) = false →
     ∃ t, exec (.alignBlockRx f c b true late frac) s = .next t ∧ rb t (aLink (blockLink s f c)) 23 = true ∧
       linkState t (blockLink s f c) = 1) ∧
   (∀ s (f : FiberIx) (c : Slot) b late frac, fiberEn s f = true → isTerminated s f = true →
     quadShut s (fiberQuad f) = false → slotNamed b c = true → dropLocked s f c = true →
     linkState s (blockLink s f c) = 5 → partnerOk s (blockLink s f c) (blockPartner b) = true →
     (commitLink (blockLink s f c) s).1 = true → minLanes s f ≤ slotCount (link s (blockLink s f c)).aligned →
     minLanes s f ≤ ((ownSlots s (blockLink s f c)).filter (fun x => (link s (blockLink s f c)).aligned.getLsbD x &&
       ringLocked s (fiberRing f x false))).length →
     ∃ t, exec (.alignBlockRx f c b true late frac) s = .next t ∧ rb t (aLink (blockLink s f c)) 23 = false ∧
       linkState t (blockLink s f c) = 6 ∧ (link t (blockLink s f c)).partner = some (blockPartner b)))

/-- R59, R61, R64, R68, R69, R71, R76, R82: a lost lane is counted and leaves its position of the transmit map; a duplicate
that does not verify abandons its swap; a period that ends before its calibration is counted in CAL_LATE, and one that ends
after it starts its swap; the end of a calibration with its slot's rings LOCKED, or one that failed, clears or counts a slot's
failures, the third of which marks it FAILED. R56, R60, R61, R63, R69, R70, R115, R519: what each lane control message and
switch row leaves at a link that takes it. -/
def Obligations.LaneControl : Prop :=
  ((∀ s (f : FiberIx) (c : Slot) cause k p, quadShut s (fiberQuad f) = false →
     (fiberLinks s f).find? (fun k => linkUp s k && (mapPos (link s k).rxMap c).isSome) = some k →
     (∀ e ∈ (fiber s f).lost, e.1 ≠ c.val) → (link s k).gap = none → mapPos (txMap s k) c = some p →
     spareSlot s k ≠ some c.val →
     ∃ t, exec (.laneLoss f c cause) s = .next t ∧ Counted (Ctr.laneLossCnt (fiberQuad f) (fiberTile f) c) s t ∧
       mapSlot (txMap t k) p ≠ c.val) ∧
   (∀ s (f : FiberIx) w, (fiber s f).swap = some w → (w.txReady = false ∨ w.rxReady = false) →
     ∃ t, exec (.swapVerifyTimeout f) s = .next t ∧
     (fiber t f).swap = none ∧ Counted (Ctr.rotAbort (fiberQuad f) (fiberTile f)) s t ∧ rb t (aStatus f) 27 = false ∧
     (w.txReady = true → txMap t w.link = mapSet (txMap s w.link) w.pos w.src)) ∧
   (∀ s (f : FiberIx), ((fiber s f).swap = none ∨ ∃ w, (fiber s f).swap = some w ∧ w.txReady = true ∧ w.rxReady = true) →
     exec (.swapVerifyTimeout f) s = .next s) ∧
   (∀ s (f : FiberIx), fiberEn s f = true → isTerminated s f = true → darkSlot s f ≠ 15 → quadShut s (fiberQuad f) = false →
     ∃ t, exec (.darkPeriodExpiry f) s = .next t ∧
       (calReady s f = false → (fiber t f).periodDue = true ∧ Counted (Ctr.calLate (fiberQuad f) (fiberTile f)) s t ∧
         t = { s with fibers := t.fibers, ctr := t.ctr }) ∧
       (∀ k src dst, swapReady s f = true → rotSync s f = false → swapPlan s f = some (k, src, dst) →
         ∃ w, (fiber t f).swap = some w ∧ w.link = k ∧ w.src = src ∧ w.dst = dst ∧ w.step = 1)) ∧
   (∀ s (f : FiberIx) (c : Slot), (fiber s f).calSlot = some c.val → fiberEn s f = true → quadShut s (fiberQuad f) = false →
     dropLocked s f c = true → ringLocked s (fiberRing f c false) = true →
     ∃ t, exec (.darkCalDone f c true) s = .next t ∧ (fiber t f).fails.getD c 0 = 0 ∧
       (fiber t f).calibrated.getLsbD c = true ∧
       t.cal = { s.cal with refit := t.cal.refit }) ∧
   (∀ s (f : FiberIx) (c : Slot), (dropLocked s f c = false ∨ ringLocked s (fiberRing f c false) = false) →
     exec (.darkCalDone f c true) s = .next s) ∧
   (∀ s (f : FiberIx) (c : Slot), (fiber s f).calSlot = some c.val → fiberEn s f = true → quadShut s (fiberQuad f) = false →
     ∃ t, exec (.darkCalDone f c false) s = .next t ∧
       ((fiber s f).fails.getD c 0 < 2 → (fiber t f).fails.getD c 0 = (fiber s f).fails.getD c 0 + 1 ∧
         t = { s with fibers := t.fibers }) ∧
       (2 ≤ (fiber s f).fails.getD c 0 → slotFailed t f c = true)) ∧
   (∀ s (f : FiberIx) (c : Slot) p,
     let k := if fiberWidth s f == 8 || c.val < 8 then slotLink s f c else lentLink s f
     linkUp s k = true → mapPos (txMap s k) c = none → dropLocked s f c = true → slotFailed s f c = false →
     (c.val ≠ darkSlot s f ∨ mapLanes (txMap s k) < 8) → c.val ∈ linkSlots s k →
     (calPending s f c = false ∨ c.val = darkSlot s f) → returnPos s k c (txMap s k) = some p →
     ∃ t, exec (.laneTrainDone f c) s = .next t ∧ (leads s k = false → txMap t k = txMap s k) ∧
       (leads s k = true → (link s k).peerMask.getLsbD c = true → ringLocked s (fiberRing (linkFiber k) c false) = true →
         mapSlot (txMap t k) p = c.val))) ∧
  ((∀ s (k : LinkIx) mask, linkUp s k = true → ∃ t, exec (.lcMaskRx k mask) s = .next t ∧ (link t k).peerMask = mask ∧
     ((∀ c ∈ mapSlots (txMap s k), mask.getLsbD c = true) →
       (∀ c, c < 9 → mask.getLsbD c = true → (link s k).peerMask.getLsbD c = true) →
         LinkSet k { link s k with peerMask := mask } s t)) ∧
   (∀ s (k : LinkIx) (pos : BitVec 3) (slot : Slot) period, linkUp s k = true → leads s k = false →
     ∃ t, exec (.lcDupRx k pos slot period) s = .next t ∧
       (period ≠ 0xFFFFFFFF → LinkSet k { link s k with dup := some (pos.toNat, slot.val, period.toNat) } s t) ∧
       (period = 0xFFFFFFFF → txMap t k = mapSet (txMap s k) pos.toNat slot)) ∧
   (∀ s (k : LinkIx) (pos : BitVec 3) (slot : Slot) w, linkUp s k = true → (fiber s (linkFiber k)).swap = some w →
     w.link = k.val → w.dst = slot.val → w.pos = pos.toNat → w.step = 2 → w.txReady = false →
     ∃ t w', exec (.lcReadyRx k pos slot) s = .next t ∧ (fiber t (linkFiber k)).swap = some w' ∧ w'.txReady = true ∧
       w'.step = (if w.rxReady then 4 else 2) ∧ txMap t k = mapSet (txMap s k) w.pos w.dst) ∧
   (∀ s (k : LinkIx) id map, linkUp s k = true → leads s k = false → ∃ t, exec (.lcSwitchRx k id map) s = .next t ∧
     (minLanes s (linkFiber k) ≤ mapLanes map → txMap t k = map ∧ (link t k).switchTx = id ∧ (link t k).dup = none) ∧
     (mapLanes map < minLanes s (linkFiber k) → linkState t k = 1)) ∧
   (∀ s (k : LinkIx) lend, linkUp s k = true → leads s k = false → ∃ t, exec (.lcLendRx k lend) s = .next t ∧
     LinkSet k { link s k with w8Tx := lend } s t) ∧
   (∀ s (k : LinkIx) (slot : Slot) on, linkUp s k = true → leads s k = false → ∃ t, exec (.lcCalRx k slot on) s = .next t ∧
     (link t k).calTx.getLsbD slot = on ∧ (∀ c, c ≠ slot.val → (link t k).calTx.getLsbD c = (link s k).calTx.getLsbD c) ∧
     (on = true → fiberWidth s (linkFiber k) = 8 → mapPos (txMap s k) slot = none → darkSlot t (linkFiber k) = slot.val)) ∧
   (∀ s (k : LinkIx) flit id m, switchFlit flit = some (id, m) → linkUp s k = true → id ≠ (link s k).switchRx →
     ∃ t, exec (.switchFlitRx k flit) s = .next t ∧ LinkSet k { link s k with switchRx := id, rxMap := m } s t) ∧
   (∀ s (k : LinkIx) flit, (switchFlit flit = none ∨ linkUp s k = false ∨
       ∃ m, switchFlit flit = some ((link s k).switchRx, m)) → exec (.switchFlitRx k flit) s = .next s))

/-- R81, R86, R87: a ring goes through PREBIAS, SEARCH, TRACK and VERIFY by the events of each state, and back to TRACK when
an alias sweep finds its peak; a ring pre-biased for a route of the shadow set waits for its commit (R99); the event of
another state does nothing. R80, R81, R84, R85, R90: a failed attempt starts again until the third, which faults a matrix ring
and excludes it; a pilot window that matches locks a ring that needs no SLOT check; a LOCKED ring that errs beyond 40 GHz, or
loses half its drop power, starts again; a ring beyond 20 GHz on a slewing engine is held. -/
def Obligations.RingAcquisition : Prop :=
  ((∀ s r, ringState s (ringNum r) = .prebias → preBiased s (ringNum r) = false →
     ∃ t, exec (.ringPrebiasSettled r) s = .next t ∧ RingIn (ringNum r) .search s t) ∧
   (∀ s r, ringState s (ringNum r) = .search → ∃ t, exec (.ringSearchPeak r) s = .next t ∧ RingIn (ringNum r) .track s t) ∧
   (∀ s r, ringState s (ringNum r) = .track → ∃ t, exec (.ringTrackSettled r) s = .next t ∧ RingIn (ringNum r) .verify s t) ∧
   (∀ s r, ringState s (ringNum r) = .aliasTrim → ∃ t, exec (.aliasHeaterStepDone r) s = .next t ∧
     t = { s with rings := t.rings } ∧ ring t (ringNum r) = { ring s (ringNum r) with sweeping := true } ∧
     (∀ j, j ≠ ringNum r → ring t j = ring s j)) ∧
   (∀ s r, ringState s (ringNum r) = .aliasTrim → (ring s (ringNum r)).sweeping = true →
     ∃ t, exec (.aliasSweepDone r true) s = .next t ∧ RingIn (ringNum r) .track s t) ∧
   (∀ s r, preBiased s (ringNum r) = true → exec (.ringPrebiasSettled r) s = .next s) ∧
   (∀ s r c, (c = .ringPrebiasSettled r ∧ ringState s (ringNum r) ≠ .prebias) ∨
       (c = .ringSearchPeak r ∧ ringState s (ringNum r) ≠ .search) ∨
       (c = .ringSearchTimeout r ∧ ringState s (ringNum r) ≠ .search) ∨
       (c = .ringTrackSettled r ∧ ringState s (ringNum r) ≠ .track) ∨
       (c = .aliasHeaterStepDone r ∧ ringState s (ringNum r) ≠ .aliasTrim) → exec c s = .next s)) ∧
  ((∀ s r, ringState s (ringNum r) = .search → (ring s (ringNum r)).fails < 2 → ringDown s (ringNum r) = false →
     ringUnlit s (ringNum r) = false →
     ∃ t, exec (.ringSearchTimeout r) s = .next t ∧ (ring t (ringNum r)).fails = (ring s (ringNum r)).fails + 1 ∧
       RingIn (ringNum r) (if ringSlewed s (ringNum r) then .hold else .prebias) s t) ∧
   (∀ s q e n, ringState s (ringNum (.matrix q e n)) = .search → 2 ≤ (ring s (ringNum (.matrix q e n))).fails →
     ∃ t, exec (.ringSearchTimeout (.matrix q e n)) s = .next t ∧ RingIn (ringNum (.matrix q e n)) .failed s t ∧
       (ring t (ringNum (.matrix q e n))).excluded = true) ∧
   (∀ s r amps, ringState s (ringNum r) = .verify →
     pilotSlot (calThresh s (ringNum r)) amps = some (ringTarget s (ringNum r)) →
     (ringOnEngine (ringNum r) = false ∨ ringDrop (ringNum r) = false ∨ (ring s (ringNum r)).slotOk = true) →
     ∃ t, exec (.pilotWindow r amps) s = .next t ∧ ringState t (ringNum r) = .locked ∧ (ring t (ringNum r)).fails = 0 ∧
       (∀ j, j < 35100 → j ≠ ringNum r → ringState t j = ringState s j ∨
         (ringOnEngine (ringNum r) = true ∧ ringDrop (ringNum r) = false ∧ j / 18 = ringNum r / 18))) ∧
   (∀ s r err half, ringState s (ringNum r) = .locked → (half = true ∨ 160 < err.toInt.natAbs) →
     ringDown s (ringNum r) = false → ringUnlit s (ringNum r) = false → ∃ t, exec (.ringLockLoss r err half) s = .next t ∧
       ringState t (ringNum r) = (if ringSlewed s (ringNum r) then .hold else .prebias)) ∧
   (∀ s r err, ringState s (ringNum r) = .locked → err.toInt.natAbs ≤ 160 →
     ∃ t, exec (.ringLockLoss r err false) s = .next t ∧
       (ringOnEngine (ringNum r) = true → rf t (aRing (ringNum r)) 15 0 = err.toNat) ∧ RingIn (ringNum r) .locked s t) ∧
   (∀ s r err, ringSlewed s (ringNum r) = true → 80 < err.toInt.natAbs → ringState s (ringNum r) ≠ .hold →
     ringState s (ringNum r) ≠ .parked → ringState s (ringNum r) ≠ .failed →
     ∃ t, exec (.ringHold r err) s = .next t ∧ ringState t (ringNum r) = .hold))

/-- R88 to R91: a sample shows each engine's hottest sensor and whether its limits are passed, and passing them sets
THERMAL_SLEW where it was clear; the heaters take their drives; 500 µs below two thirds of the limits clear it, and the rings
in HOLD start to re-acquire. -/
def Obligations.Temperature : Prop :=
  (∀ s (q : Quad) readings, quadShut s q = false → ∃ t, exec (.thermalSample q readings) s = .next t ∧
    (∃ x, (therm t q).hist = (x :: (therm s q).hist).take 101 ∧ x.length = 32 ∧
      (∀ i, i < 32 → x.getD i 0 = (readings.getD i 0).toNat)) ∧
    (∀ i, i < 4 →
      (∀ j, j < 4 → (readings.getD (16 + 4 * i + j) 0).toNat ≤ rf t (Reg.peTherm q i) 27 16) ∧
      (∃ j, j < 4 ∧ (readings.getD (16 + 4 * i + j) 0).toNat = rf t (Reg.peTherm q i) 27 16) ∧
      rf t (Reg.peTherm q i) 15 0 = min 65535 (engineSlewOf (therm t q).hist i) ∧
      rb t (Reg.peTherm q i) 30 = dieOver s q i (therm t q).hist ∧
      rb t (Reg.peTherm q i) 29 = engineOver s q i (therm t q).hist ∧
      ((engineOver s q i (therm t q).hist = true ∨ ∃ j, j < 4 ∧ dieOver s q j (therm t q).hist = true) →
        engineSlew t (4 * q.val + i) = true)) ∧
    Emit.heaters q (heaterDrives s q (therm t q).hist) ∈ t.out) ∧
  (∀ s (p : PeIx), engineSlew s p = true → 50 ≤ (therm s (p.val / 4)).quiet.getD (p.val % 4) 0 →
    ∃ t, exec (.thermalSlewClear p) s = .next t ∧ engineSlew t p = false ∧
      (∀ r ∈ engineRings s p, ringState t r ≠ .hold) ∧ (∀ n c, n < 8 → c < 9 → slotState t (8 * p.val + n) c ≠ 3)) ∧
  (∀ s (p : PeIx), (engineSlew s p = false ∨ (therm s (p.val / 4)).quiet.getD (p.val % 4) 0 < 50) →
    exec (.thermalSlewClear p) s = .next s)

/-- R94 to R97: route words change only in the shadow set with no commit pending; a commit is refused while one is pending,
fails with the first code of R94 that its shadow set meets, and is otherwise pending for a commit instant at least 3 µs away,
its rings pre-biased (R99). R66, R95 to R100, R320: a commit is cancelled up to 1 µs before its instant; its check may end it,
and its links hold their flits from then on; at its instant the sets change places and COMMIT_SEQ counts it; ACTIVE_SET shows
the new set once its light is on. -/
def Obligations.LightpathCommits : Prop :=
  ((∀ s (q : Quad) (e : RouteIx) (w : Fin 8) v, regGated s (routeAddr q e w) = false →
     ∃ t, exec (.routeWrite q e w v) s = .next t ∧
       ((rb s (Reg.lpStatus q) 31 = false ∧ e.val / 512 ≠ activeSet s q) →
         reg t (routeAddr q e w) = (reg s (routeAddr q e w) &&& ~~~ rwMaskAt (routeAddr q e w)) ||| (v &&& rwMaskAt (routeAddr q e w)) ∧
         OnlyRegsChanged (fun a => a = routeAddr q e w) s t) ∧
       ((rb s (Reg.lpStatus q) 31 = true ∨ e.val / 512 = activeSet s q) →
         t = { s with ctr := t.ctr } ∧ Counted (Ctr.writeRej q) s t)) ∧
   (∀ s (q : Quad) c, (c = .lpCommit q ∨ c = .lpCommitAt q) → regGated s (Reg.lpCmd q) = false →
     rb s (Reg.lpStatus q) 31 = true → ∃ t, exec c s = .next t ∧ t = { s with ctr := t.ctr } ∧ Counted (Ctr.cmdRej q) s t) ∧
   (∀ s (q : Quad) c, (c = .lpCommit q ∨ c = .lpCommitAt q) → regGated s (Reg.lpCmd q) = false →
     rb s (Reg.lpStatus q) 31 = false → validate s q (1 - activeSet s q) ≠ 0 →
     ∃ t, exec c s = .next t ∧ rf t (Reg.lpStatus q) 26 24 = validate s q (1 - activeSet s q) ∧
       rb t (Reg.lpStatus q) 31 = false ∧ (lp t q).pending = none ∧ Counted (Ctr.commitFail q) s t ∧
       SameRegsBut (fun a => a = Reg.lpStatus q) s t) ∧
   (∀ s (q : Quad), regGated s (Reg.lpCmd q) = false → rb s (Reg.lpStatus q) 31 = false →
     validate s q (1 - activeSet s q) = 0 → ∃ t c, exec (.lpCommit q) s = .next t ∧ rb t (Reg.lpStatus q) 31 = true ∧
       (lp t q).pending = some c ∧ c.owner = none ∧ s.time.l + 2400 ≤ c.instant ∧ c.instant % 20800 = 15200 ∧
       (15200 ≤ s.time.l + 2400 → c.instant < s.time.l + 2400 + 20800) ∧
       (∀ j ∈ shadowRings s q, ringState s j ≠ .failed → ringDown s j = false → ringUnlit s j = false →
         ringState t j = .prebias)) ∧
   (∀ s (q : Quad), regGated s (Reg.lpCmd q) = false → rb s (Reg.lpStatus q) 31 = false →
     validate s q (1 - activeSet s q) = 0 → ∃ t c, exec (.lpCommitAt q) s = .next t ∧ rb t (Reg.lpStatus q) 31 = true ∧
       (lp t q).pending = some c ∧ c.owner = none ∧ s.time.l + 2400 ≤ c.instant ∧ c.instant % 20800 = 15200)) ∧
  ((∀ s (q : Quad) c, regGated s (Reg.lpCmd q) = false → (lp s q).pending = some c → c.owner = none →
     (lp s q).result = none → s.time.l + 800 ≤ c.instant →
     ∃ t, exec (.lpCancel q) s = .next t ∧ (lp t q).pending = none ∧ rb t (Reg.lpStatus q) 31 = false) ∧
   (∀ s (q : Quad) c, (lp s q).pending = some c → (lp s q).result = none → c.instant < s.time.l + 800 →
     exec (.lpCancel q) s = .next s) ∧
   (∀ s (q : Quad) c, (lp s q).pending = some c → c.gapSent = false → ∃ t, exec (.lpGapNotice q) s = .next t ∧
     (lp t q).pending = some { c with gapSent := true }) ∧
   (∀ s (q : Quad) c, (lp s q).pending = some c → (lp s q).result = none → c.owner = none →
     ∃ t, exec (.commitPrecheck q) s = .next t ∧
       (∀ f ∈ gapFibers s q, ∀ k ∈ fiberLinks s f, linkUp s k = true → (link t k).quiet = true) ∧
       (validate s q (1 - activeSet s q) = 0 → (lp t q).pending = some { c with checked := true } ∧
         t = { s with lp := t.lp, links := t.links }) ∧
       (validate s q (1 - activeSet s q) ≠ 0 → (lp t q).pending = none ∧
         rf t (Reg.lpStatus q) 26 24 = validate s q (1 - activeSet s q) ∧ rb t (Reg.lpStatus q) 31 = false)) ∧
   (∀ s (q : Quad) c, (lp s q).pending = some c → c.checked = true → c.owner = none →
     ∃ t, exec (.commitInstant q) s = .next t ∧ (lp t q).pending = none ∧ (lp t q).moving = true ∧
       rb t (Reg.lpStatus q) 31 = false ∧ rf t (Reg.lpStatus q) 23 16 = (rf s (Reg.lpStatus q) 23 16 + 1) % 256 ∧
       rf t (Reg.lpStatus q) 30 30 = rf s (Reg.lpStatus q) 30 30 ∧
       ((lp s q).moving = false → activeSet t q = 1 - activeSet s q) ∧ Counted (Ctr.commits q) s t) ∧
   (∀ s (q : Quad), (lp s q).moving = true → (lp s q).movingOwner = none →
     ∃ t, exec (.commitLightOn q) s = .next t ∧ (lp t q).moving = false ∧ activeSet t q = activeSet s q ∧
       rf t (Reg.lpStatus q) 30 30 = 1 - rf s (Reg.lpStatus q) 30 30) ∧
   (∀ s (k : LinkIx) instant period, linkUp s k = true → ∃ t, exec (.lpGapRx k instant period) s = .next t ∧
     LinkSet k { link s k with gap := some (instant, period),
                               exch := (link s k).exch.map (fun e => { e with t2 := none }) } s t))

/-- R105: an export fills the window with the stored set; the two unlock words within 1 ms unlock an exported window, and the
unlock lapses. R104, R106, R107: PROGRAM checks the staged image before anything is erased, without an unlock or with a bad
image it changes no set; when it is done the NOR holds the image, and after a NOR fault a set that no check passes. -/
def Obligations.Calibration : Prop :=
  ((∀ s : State, s.cal.exporting = false → s.cal.programming = false → ∃ t, exec .calExport s = .next t ∧
     t.cal = { s.cal with exporting := true } ∧ rb t Reg.calStatus 29 = true ∧ t = { s with regs := t.regs, cal := t.cal } ∧
     SameRegsBut (fun a => a = Reg.calStatus) s t) ∧
   (∀ s : State, s.cal.exporting = true ∨ s.cal.programming = true → exec .calExport s = .next s) ∧
   (∀ s : State, s.cal.exporting = true → ∃ t, exec .calExportDone s = .next t ∧ t.cal.window = s.cal.stored.image ∧
     t.cal.exporting = false ∧ t.cal.stored = s.cal.stored ∧ rb t Reg.calStatus 28 = true ∧
     rb t Reg.calStatus 29 = s.cal.programming ∧ t = { s with regs := t.regs, cal := t.cal } ∧
     SameRegsBut (fun a => a = Reg.calStatus) s t) ∧
   (∀ s : State, exec .calUnlockFirst s =
     .next { s with cal := { s.cal with unlockFirst := if rb s Reg.calStatus 28 then some s.time.l else none } }) ∧
   (∀ s l, s.cal.unlockFirst = some l → s.time.l ≤ l + 800000 →
     ∃ t, exec .calUnlockSecond s = .next t ∧ rb t Reg.calStatus 30 = true ∧
       t.cal = { s.cal with unlockFirst := none, unlockedAt := some s.time.l } ∧ t = { s with regs := t.regs, cal := t.cal } ∧
       SameRegsBut (fun a => a = Reg.calStatus) s t) ∧
   (∀ s : State, (∀ l, s.cal.unlockFirst = some l → l + 800000 < s.time.l) →
     exec .calUnlockSecond s = .next { s with cal := { s.cal with unlockFirst := none } }) ∧
   (∀ s : State, ∃ t, exec .calUnlockLapse s = .next t ∧ rb t Reg.calStatus 30 = false ∧
     t.cal = { s.cal with unlockedAt := none } ∧
     t = { s with regs := t.regs, cal := t.cal } ∧ SameRegsBut (fun a => a = Reg.calStatus) s t)) ∧
  ((∀ s : State, s.cal.exporting = false → s.cal.programming = false → s.cal.unlockedAt = none →
     ∃ t, exec .calProgram s = .next t ∧ rf t Reg.calStatus 26 24 = 5 ∧ t.cal = s.cal ∧
       t = { s with regs := t.regs, log := t.log } ∧ SameRegsBut (fun a => a = Reg.calStatus) s t) ∧
   (∀ s : State, s.cal.exporting = false → s.cal.programming = false → s.cal.unlockedAt ≠ none →
     ∃ t, exec .calProgram s = .next t ∧ rf t Reg.calStatus 26 24 = calCheck s.fuses.serial (calSetOf s.cal.window) ∧
       t.cal.stored = s.cal.stored ∧ t.cal.unlockedAt = none ∧ rb t Reg.calStatus 30 = false ∧
       t.cal.programming = (calCheck s.fuses.serial (calSetOf s.cal.window) == 0) ∧
       t = { s with regs := t.regs, log := t.log, cal := t.cal } ∧ SameRegsBut (fun a => a = Reg.calStatus) s t) ∧
   (∀ s : State, s.cal.exporting = true ∨ s.cal.programming = true → exec .calProgram s = .next s) ∧
   (∀ s : State, s.cal.programming = true → ∃ t, exec (.calProgramDone false) s = .next t ∧
     t.cal.stored = calSetOf s.cal.window ∧ t.cal.working = s.cal.working ∧ t.cal.programming = false ∧
     rb t Reg.calStatus 27 = true ∧ Logged 4 0x010B 0 9 0 (leBytes 8 0 ++ leBytes 8 0) s t ∧
     t = { s with regs := t.regs, log := t.log, cal := t.cal } ∧ SameRegsBut (fun a => a = Reg.calStatus) s t) ∧
   (∀ s : State, s.cal.programming = true → ∃ t, exec (.calProgramDone true) s = .next t ∧
     calCheck s.fuses.serial t.cal.stored ≠ 0 ∧ rf t Reg.calStatus 26 24 = 6 ∧ t.cal.programming = false ∧
     t = { s with regs := t.regs, log := t.log, cal := t.cal } ∧ SameRegsBut (fun a => a = Reg.calStatus) s t))

/-- R112, R116 to R120: a group that verifies in order advances RX_GSEQ, and one that does not is counted, releases nothing
and is answered with a NAK; an acknowledgement frees the groups up to it; a NAK resends every buffered group unchanged, until
the limit or the timeout loses the link. R122, R123, R135 to R137: CRD_INIT sets the transmit credits, CRD adds to them up to
what the partner advertised, a CRD before CRD_INIT and a record of an unknown code are counted and discarded. -/
def Obligations.GroupsAndCredits : Prop :=
  ((∀ s (k : LinkIx) fs tr, linkUp s k = true → lcrcGood fs tr → tGseq (padTo 64 tr) = rxGseq s k →
     tAckValid (padTo 64 tr) = false → tNak (padTo 64 tr) = false → (link s k).nakDue = false →
     NothingWaits k s → ∃ t, exec (.groupRx k fs tr) s = .next t ∧ rxGseq t k = (rxGseq s k + 1) % 4096 ∧ txGseq t k = txGseq s k ∧
       link t k = { link s k with rxAny := true, rxAwait := false } ∧ LinkRxFrame k s t) ∧
   (∀ s (k : LinkIx) fs tr, linkUp s k = true → lcrcGood fs tr → tGseq (padTo 64 tr) ≠ rxGseq s k →
     tAckValid (padTo 64 tr) = false → tNak (padTo 64 tr) = false → (link s k).nakDue = false → (link s k).rxAwait = true →
     NothingWaits k s → ∃ t, exec (.groupRx k fs tr) s = .next t ∧ link t k = link s k ∧
       Counted (Ctr.lcrcErr (linkQuad k) (linkTile k) (linkIx k)) s t ∧ rxGseq t k = rxGseq s k ∧ LinkRxFrame k s t) ∧
   (∀ s (k : LinkIx) fs tr, linkUp s k = true → ¬ lcrcGood fs tr → (link s k).rxAwait = false →
     (link s k).replay.length < replayShare s k → txHolds s k = false →
     ∃ t, exec (.groupRx k fs tr) s = .next t ∧ rxGseq t k = rxGseq s k ∧ (link t k).rxAwait = true ∧
       Counted (Ctr.lcrcErr (linkQuad k) (linkTile k) (linkIx k)) s t ∧
       t.out = .group k (txGseq s k) ((rxGseq s k + 4095) % 4096) (link s k).rxAny true (fillGroup [])
         (stripe (mapSlots (txMap s k)) (link s k).rowPos 32) :: s.out) ∧
   (∀ s (k : LinkIx) fs tr old g rest, linkUp s k = true → lcrcGood fs tr → tGseq (padTo 64 tr) = rxGseq s k →
     tAckValid (padTo 64 tr) = true → tNak (padTo 64 tr) = false → (link s k).nakDue = false → (link s k).txWait = [] →
     (link s k).replay = old ++ g :: rest → g.gseq = tAck (padTo 64 tr) → (∀ o ∈ old, o.gseq ≠ g.gseq) →
     ∃ t, exec (.groupRx k fs tr) s = .next t ∧ link t k =
       { link s k with rxAny := true, rxAwait := false, replay := rest, replayCount := 0, lastReplay := none } ∧
       LinkRxFrame k s t) ∧
   (∀ s (k : LinkIx) fs tr g rest, linkUp s k = true → lcrcGood fs tr → tGseq (padTo 64 tr) = rxGseq s k →
     tAckValid (padTo 64 tr) = false → tNak (padTo 64 tr) = true → (link s k).nakDue = false →
     (link s k).replay = g :: rest → (link s k).lastReplay = none →
     (link s k).replayCount < max 1 (rf s (Reg.llCfg (linkQuad k) (linkTile k)) 3 0) →
     txHolds s k = false → (link s k).txWait = [] →
     ∃ t, exec (.groupRx k fs tr) s = .next t ∧ (link t k).replay = (link s k).replay ∧
       (link t k).replayCount = (link s k).replayCount + 1 ∧
       t.out = Resent k (rxGseq s k) (mapSlots (txMap s k)) (g :: rest) (link s k).rowPos s.out) ∧
   (∀ s (k : LinkIx) fs tr g rest, linkUp s k = true → lcrcGood fs tr → tGseq (padTo 64 tr) = rxGseq s k →
     tAckValid (padTo 64 tr) = false → tNak (padTo 64 tr) = true → (link s k).replay = g :: rest →
     (link s k).lastReplay = none → max 1 (rf s (Reg.llCfg (linkQuad k) (linkTile k)) 3 0) ≤ (link s k).replayCount →
     ∃ t, exec (.groupRx k fs tr) s = .next t ∧ linkState t k = 1 ∧
       Counted (Ctr.replayExhaust (linkQuad k) (linkTile k) (linkIx k)) s t) ∧
   (∀ s (k : LinkIx), linkUp s k = true → (link s k).replay ≠ [] → ∃ t, exec (.replayTimeout k) s = .next t ∧
     linkState t k = 1 ∧ (link t k).replay = [] ∧ Counted (Ctr.replayExhaust (linkQuad k) (linkTile k) (linkIx k)) s t)) ∧
  ((∀ s (k : LinkIx) (cs : List (BitVec 16)), linkUp s k = true → ∃ t, exec (.crdInitRx k cs) s = .next t ∧
     (∀ i, i < 7 → txCred t k (i + 1) = (cs.getD i 0).toNat) ∧
     link t k = { link s k with credInit := true, peerAdv := (List.range 7).map (fun i => (cs.getD i 0).toNat) } ∧
     t = { s with regs := t.regs, links := t.links } ∧ (∀ j, j ≠ k.val → link t j = link s j) ∧
     SameRegsBut (fun a => a = aLl k ∨ ∃ v, v < 8 ∧ a = aCred k v) s t) ∧
   (∀ s (k : LinkIx) (cs : List (BitVec 16)), linkUp s k = true → (link s k).credInit = true →
     (∀ i, i < 7 → (link s k).peerAdv.getD i 0 < 65536) → ∃ t, exec (.crdRx k cs) s = .next t ∧
       (∀ i, i < 7 → txCred t k (i + 1) = min (txCred s k (i + 1) + (cs.getD i 0).toNat) ((link s k).peerAdv.getD i 0)) ∧
       t = { s with regs := t.regs, ctr := t.ctr } ∧
       SameRegsBut (fun a => a = aLl k ∨ ∃ v, v < 8 ∧ a = aCred k v) s t ∧
       SameCtrsBut (fun a => a = Ctr.credErr (linkQuad k) (linkTile k) (linkIx k)) s t) ∧
   (∀ s (k : LinkIx) (cs : List (BitVec 16)), linkUp s k = true → (link s k).credInit = false →
     ∃ t, exec (.crdRx k cs) s = .next t ∧ Counted (Ctr.credErr (linkQuad k) (linkTile k) (linkIx k)) s t ∧
       t = { s with ctr := t.ctr }) ∧
   (∀ s (k : LinkIx) c, linkUp s k = true → ctrlKnown c.toNat = false → ∃ t, exec (.ctrlUnknownRx k c) s = .next t ∧
     Counted (Ctr.hdrErr (linkQuad k) (linkTile k) (linkIx k)) s t ∧ t = { s with ctr := t.ctr }))

/-- R125, R128, R131, R134, R144: a head that breaks R125 or R131 is counted and dropped, one with STOMP too; a memory request
for this endpoint that finds its committed cells waits for the quadrant that homes its address, a PEER one for its own; the
tail completes the packet only when its CRC and length are right. -/
def Obligations.PacketReceipt : Prop :=
  (∀ s (k : LinkIx) h, headReady k s → kindVcOk (isPeer s (linkFiber k)) (hKind (padTo 64 h)) (hVc (padTo 64 h)) = false →
    ∃ t, exec (.packetHeadRx k h) s = .next t ∧ headDropped k (padTo 64 h) t ∧
      Counted (if isPeer s (linkFiber k) then Ctr.peerErr (linkQuad k) (linkTile k) (linkIx k)
        else Ctr.hdrErr (linkQuad k) (linkTile k) (linkIx k)) s t ∧
      Counted (Ctr.rxPkts (linkQuad k) (linkTile k) (linkIx k)) s t) ∧
  (∀ s (k : LinkIx) h, headReady k s → kindVcOk (isPeer s (linkFiber k)) (hKind (padTo 64 h)) (hVc (padTo 64 h)) = true →
    4096 < hPlen (padTo 64 h) →
    ∃ t, exec (.packetHeadRx k h) s = .next t ∧ headDropped k (padTo 64 h) t ∧
      Counted (Ctr.hdrErr (linkQuad k) (linkTile k) (linkIx k)) s t) ∧
  (∀ s (k : LinkIx) h, headReady k s → kindVcOk (isPeer s (linkFiber k)) (hKind (padTo 64 h)) (hVc (padTo 64 h)) = true →
    hPlen (padTo 64 h) ≤ 4096 → hStomp (padTo 64 h) = true →
    ∃ t, exec (.packetHeadRx k h) s = .next t ∧ headDropped k (padTo 64 h) t ∧
      Counted (Ctr.stompRx (linkQuad k) (linkTile k) (linkIx k)) s t) ∧
  (∀ s (k : LinkIx) h, headReady k s → isPeer s (linkFiber k) = true → bootOnly s k = false →
    hKind (padTo 64 h) = 5 → hVc (padTo 64 h) = 1 → hPlen (padTo 64 h) ≤ 4096 → hStomp (padTo 64 h) = false →
    rxRoom s k 1 (hFlits (padTo 64 h)) = true →
    ∃ t, exec (.packetHeadRx k h) s = .next t ∧ headQueued k (padTo 64 h) (.unit (linkQuad k) .peerWr) t) ∧
  (∀ s (k : LinkIx) h, headReady k s → isPeer s (linkFiber k) = false → bootOnly s k = false →
    hKind (padTo 64 h) = 1 → hVc (padTo 64 h) = 1 → hPlen (padTo 64 h) ≤ 4096 → hStomp (padTo 64 h) = false →
    hDst (padTo 64 h) = s.fuses.epid.toNat → quadShut s (bitsOf (mAddr (padTo 64 h)) 40 39) = false →
    rxRoom s k 1 (hFlits (padTo 64 h)) = true →
    ∃ t, exec (.packetHeadRx k h) s = .next t ∧
      headQueued k (padTo 64 h) (.unit (bitsOf (mAddr (padTo 64 h)) 40 39) .ms) t) ∧
  (∀ s (k : LinkIx) p b, linkUp s k = true → (link s k).rxOpen = none → exec (.packetTailRx k p b) s = .next s) ∧
  (∀ s (k : LinkIx) p b o id, linkUp s k = true → (link s k).rxOpen = some o → o.answer = none → o.id = some id →
    b = false → crcGood o.head p = true →
    ∃ t, exec (.packetTailRx k p b) s = .next t ∧ link t k = { link s k with rxOpen := none } ∧
      (sw t (linkQuad k)).pkts = (sw s (linkQuad k)).pkts.map
        (fun x => if x.rx == id then { x with payload := p, tail := .good } else x) ∧
      (∀ j, j ≠ k.val → link t j = link s j) ∧ (∀ q, q ≠ linkQuad k → sw t q = sw s q) ∧
      t = { s with links := t.links, sw := t.sw }) ∧
  (∀ s (k : LinkIx) p b o id, linkUp s k = true → (link s k).rxOpen = some o → o.answer = none → o.id = some id →
    (b = true ∨ crcGood o.head p = false) → hStomp o.head = false →
    ∃ t, exec (.packetTailRx k p b) s = .next t ∧ (link t k).rxOpen = none ∧
      Counted (if b then Ctr.stompRx (linkQuad k) (linkTile k) (linkIx k)
        else Ctr.e2eCrcErr (linkQuad k) (linkTile k) (linkIx k)) s t)

/-- R134, R144, R146, R150 to R152: a match starts packets and neither loses, adds nor reorders any, but for shared copies
that take a free entry (R160); a lone eligible packet for a unit starts at once; a transfer's end hands a good packet to its
unit or to its link's groups, and a bad one to no unit; until its tail has come it does not end. R148, R149, R154, R156: the
oldest packet on a bridge is queued where it is bound, or joins the transit FIFO toward that quadrant; every other quadrant
takes a quadrant's backlogs. -/
def Obligations.SwitchTransfers : Prop :=
  ((∀ s (q : Quad), quadShut s q = true → exec (.schedMatch q) s = .next s) ∧
   (∀ s (q : Quad), (∀ p ∈ (sw s q).pkts, ∀ g, p.dest ≠ .quad q g) → ∃ t, exec (.schedMatch q) s = .next t ∧
     (sw t q).pkts.map QPkt.still = (sw s q).pkts.map QPkt.still ∧
     (∀ i : Nat, ((sw s q).pkts[i]?.any (·.crossing.isSome)) = true → ((sw t q).pkts[i]?.any (·.crossing.isSome)) = true)) ∧
   (∀ s (q : Quad) p u, quadShut s q = false → (sw s q).pkts = [p] → p.crossing = none → p.via = none → p.dest = .unit q u →
     p.inp < 80 →
     p.vc < 8 → eligible s q p = true → ∃ t, exec (.schedMatch q) s = .next t ∧
       (sw t q).pkts = [{ p with crossing := some (outGroup q p) }]) ∧
   (∀ s (q : Quad) p ps, (sw s q).pkts = p :: ps → p.crossing.isSome = true → p.tail = .waiting →
     exec (.xbarTransferDone q p.id) s = .next s) ∧
   (∀ s (q : Quad) p ps u, (sw s q).pkts = p :: ps → p.crossing.isSome = true → p.tail = .good → p.dest = .unit q u →
     (unitQueue (sw s q) u).length < unitDepth → (u = .lx → p.wick = none) → ∃ t, exec (.xbarTransferDone q p.id) s = .next t ∧
       (sw t q).pkts = ps ∧ unitQueue (sw t q) u = unitQueue (sw s q) u ++ [p.given] ∧ Counted (Ctr.unitPkts q) s t) ∧
   (∀ s (q : Quad) p ps u, (sw s q).pkts = p :: ps → p.crossing.isSome = true → p.tail = .bad → p.dest = .unit q u →
     ∃ t, exec (.xbarTransferDone q p.id) s = .next t ∧ (sw t q).pkts = ps ∧
       ∀ v, unitQueue (sw t q) v = unitQueue (sw s q) v) ∧
   (∀ s (q : Quad) p ps (k : LinkIx), (sw s q).pkts = p :: ps → p.crossing.isSome = true → p.tail = .good →
     p.dest = .link k → linkQuad k = q.val → linkUp s k = true → (link s k).txWait = [] → (link s k).nakDue = false →
     txHolds s k = false → (link s k).replay.length < replayShare s k → (packetFlits p.head p.payload false).length ≤ 31 →
     ∃ t, exec (.xbarTransferDone q p.id) s = .next t ∧ (sw t q).pkts = ps ∧
       .group k (txGseq s k) ((rxGseq s k + 4095) % 4096) (link s k).rxAny false
         (fillGroup (packetFlits p.head p.payload false)) (stripe (mapSlots (txMap s k)) (link s k).rowPos 32) ∈ t.out)) ∧
  ((∀ s (src dst : Quad), src = dst ∨ quadShut s dst = true ∨ (bridge s src dst).wire = [] →
     exec (.bridgePacketRx src dst) s = .next s) ∧
   (∀ s (src dst : Quad) p rest, src ≠ dst → quadShut s dst = false → (bridge s src dst).wire = p :: rest →
     p.dest.quad? = dst.val → (∀ g, p.dest ≠ .quad dst g) →
     (∀ k, p.dest = .link k → linkUp s k = true ∨ noWait s dst = false) → ∃ t, exec (.bridgePacketRx src dst) s = .next t ∧
       (bridge t src dst).wire = rest ∧ (sw t dst).pkts = (sw s dst).pkts ++
         [{ p with via := none, cells := .bridge src p.vc, cq := dst }]) ∧
   (∀ s (src dst : Quad) p rest, src ≠ dst → quadShut s dst = false → (bridge s src dst).wire = p :: rest →
     p.dest.quad? ≠ dst.val → ∃ t, exec (.bridgePacketRx src dst) s = .next t ∧ (bridge t src dst).wire = rest ∧
       (if lowerTransit src dst p.dest.quad? then
         (bridge t dst p.dest.quad?).transit1 = (bridge s dst p.dest.quad?).transit1 ++ [p] ∧
         (bridge t dst p.dest.quad?).transit2 = (bridge s dst p.dest.quad?).transit2
       else (bridge t dst p.dest.quad?).transit2 = (bridge s dst p.dest.quad?).transit2 ++ [p] ∧
         (bridge t dst p.dest.quad?).transit1 = (bridge s dst p.dest.quad?).transit1) ∧
       (sw t dst).pkts = (sw s dst).pkts) ∧
   (∀ s (q : Quad), ∃ t, exec (.backlogBroadcast q) s = .next t ∧ t = { s with sw := t.sw } ∧ sw t q = sw s q ∧
     (∀ b : Quad, b ≠ q → ∀ k : LinkIx, Tbl.get 0 (sw t b).reported k =
       if linkQuad k = q then rf s (Reg.scLinkstat q (k.val % 256)) 21 0 else Tbl.get 0 (sw s b).reported k)))

/-- R142, R157, R160, R163, R171, R177, R178, R515: the copier makes a job's copies in order, each from MC_POOL but the first,
and waits for its room; a unit that waits takes pool cells once they are there; new pool sizes come into force in an empty
pool; LINK_WAIT's end drops what waits for a link that is down. -/
def Obligations.CellsAndCopies : Prop :=
  (∀ s (q : Quad) j rest k ks, quadShut s q = false → (sw s q).copyQ = j :: rest → j.started = true → j.links = k :: ks →
    j.firstDone = true → (sw s q).mcUsed + j.pkt.flits ≤ (sw s q).mcPool → ∃ t, exec (.mcCopy q) s = .next t ∧
      (sw t q).mcUsed = (sw s q).mcUsed + j.pkt.flits ∧ Counted (Ctr.mcCopies q) s t ∧
      (sw t q).copyQ = (if ks = [] ∧ j.quads = [] then rest else { j with links := ks } :: rest) ∧
      ∃ p, (sw t q).pkts = (sw s q).pkts ++ [p] ∧ p.dest = .link k ∧ p.rx = j.pkt.rx ∧ p.cells = .mcPool ∧
        p.payload = j.pkt.payload ∧ p.flits = j.pkt.flits) ∧
  (∀ s (q : Quad) j rest k ks, quadShut s q = false → (sw s q).copyQ = j :: rest → j.started = true → j.links = k :: ks →
    j.firstDone = false → ∃ t, exec (.mcCopy q) s = .next t ∧ (sw t q).mcUsed = (sw s q).mcUsed ∧
      (sw t q).copyQ = (if ks = [] ∧ j.quads = [] then rest else { j with links := ks, firstDone := true } :: rest) ∧
      ∃ p, (sw t q).pkts = (sw s q).pkts ++ [p] ∧ p.dest = .link k ∧ p.rx = j.pkt.rx ∧ p.cells = j.pkt.cells) ∧
  (∀ s (q : Quad) j rest k ks, quadShut s q = false → (sw s q).copyQ = j :: rest → j.started = true → j.links = k :: ks →
    j.firstDone = true → (sw s q).mcPool < (sw s q).mcUsed + j.pkt.flits → ∃ t, exec (.mcCopy q) s = .next t ∧
      rb t (Reg.scStatus q) 2 = true ∧ Counted (Ctr.mcPoolWait q) s t ∧ sw t q = sw s q) ∧
  (∀ s (q : Quad) r k, (sw s q).originQ = [r] → r.dest = .link k →
    (sw s q).originUsed + hFlits r.head ≤ (sw s q).originPool → r.bad = false → ∃ t, exec (.originAlloc q) s = .next t ∧
      (sw t q).originQ = [] ∧ (sw t q).originUsed = (sw s q).originUsed + hFlits r.head ∧
      ∃ p, (sw t q).pkts = (sw s q).pkts ++ [p] ∧ p.dest = .link k ∧ p.head = r.head ∧ p.payload = r.payload ∧
        p.cells = .originPool ∧ p.tail = .good ∧ p.inp = r.inp ∧ p.vc = hVc r.head) ∧
  (∀ s (q : Quad) r (k : LinkIx), (sw s q).originQ = [r] → r.dest = .link k →
    (sw s q).originPool < (sw s q).originUsed + hFlits r.head → linkQuad k = q.val → linkUp s k = false →
    exec (.originAlloc q) s = .next s) ∧
  (∀ s (q : Quad), ∃ t, exec (.scPoolApply q) s = .next t ∧
    (sw t q).mcPool = (if (sw s q).mcUsed = 0 then rf s (Reg.scPool q) 31 16 * 1024 else (sw s q).mcPool) ∧
    (sw t q).originPool = (if (sw s q).originUsed = 0 then rf s (Reg.scPool q) 15 0 * 1024 else (sw s q).originPool) ∧
    sw t q = { sw s q with mcPool := (sw t q).mcPool, originPool := (sw t q).originPool } ∧
    t = { s with regs := t.regs, sw := t.sw } ∧
    SameRegsBut (fun a => a = Reg.scBudget q ∨ a = Reg.scStatus q) s t) ∧
  (∀ s (q : Quad) (k : LinkIx) p, (sw s q).pkts = [p] → p.dest = .link k → p.crossing = none → linkUp s k = false →
    (∀ r, p.cells ≠ .shared r) → ∃ t, exec (.linkWaitExpiry q k) s = .next t ∧ (sw t q).pkts = [] ∧
      Counted (Ctr.downDrop q) s t)

/-- R182, R183, R185: each forwarding command writes, removes or shows the entry of its key or location and no other, and
completes with its RESULT; while one is BUSY a command is ignored and sets CMD_OVERRUN. R188, R191, R192: a sweep marks an
entry older than AGE_LIMIT as aged, or removes it, and leaves PIN and young ones; what it does to one used in the same tick is
open (R192); FWD_NR_CI takes an index that the ring allows. -/
def Obligations.ForwardingTable : Prop :=
  ((∀ s (q : Quad) loc, FwdReady q s → fwdFind s q (fwdKey s q) = some loc → ∃ t, exec (.fwdInsert q) s = .next t ∧
     FwdResult q 2 t ∧ t.fwd = s.fwd ∧ rf t (Reg.fwdLoc q) 19 0 = loc % 2 ^ 20 ∧ FwdFrame q s t) ∧
   (∀ s (q : Quad) loc, FwdReady q s → fwdFind s q (fwdKey s q) = none → fwdPlace s q (fwdKey s q) = some loc →
     ∃ t, exec (.fwdInsert q) s = .next t ∧ FwdResult q 0 t ∧ FwdPuts q loc (some (fwdNew s q)) s t ∧
       rf t (Reg.fwdLoc q) 19 0 = loc % 2 ^ 20 ∧ FwdFrame q s t) ∧
   (∀ s (q : Quad), FwdReady q s → fwdFind s q (fwdKey s q) = none → fwdPlace s q (fwdKey s q) = none →
     ∃ t, exec (.fwdInsert q) s = .next t ∧ FwdResult q 3 t ∧ t.fwd = s.fwd ∧ Counted (Ctr.fwdInsertFail q) s t) ∧
   (∀ s (q : Quad) loc, FwdReady q s → fwdFind s q (fwdKey s q) = some loc → ∃ t, exec (.fwdUpdate q) s = .next t ∧
     FwdResult q 0 t ∧ FwdPuts q loc (some (fwdNew s q)) s t ∧ rf t (Reg.fwdLoc q) 19 0 = loc % 2 ^ 20 ∧ FwdFrame q s t) ∧
   (∀ s (q : Quad) loc, FwdReady q s → fwdFind s q (fwdKey s q) = some loc → ∃ t, exec (.fwdDelete q) s = .next t ∧
     FwdResult q 0 t ∧ FwdPuts q loc none s t ∧ rf t (Reg.fwdLoc q) 19 0 = loc % 2 ^ 20 ∧ FwdFrame q s t) ∧
   (∀ s (q : Quad) loc, FwdReady q s → fwdFind s q (fwdKey s q) = some loc → ∃ t, exec (.fwdLookup q) s = .next t ∧
     FwdResult q 0 t ∧ rf t (Reg.fwdLoc q) 19 0 = loc % 2 ^ 20 ∧ FwdShows q (fwdAt s q loc) t ∧ FwdSeen q loc s t) ∧
   (∀ s (q : Quad) c, FwdReady q s → fwdFind s q (fwdKey s q) = none →
     (c = .fwdUpdate q ∨ c = .fwdDelete q ∨ c = .fwdLookup q) → ∃ t, exec c s = .next t ∧ FwdResult q 1 t ∧
       OnlyRegsChanged (fun a => a = Reg.fwdCmdStatus q) s t) ∧
   (∀ s (q : Quad), FwdReady q s → ∃ t, exec (.fwdReadLoc q) s = .next t ∧
     (if rf s (Reg.fwdLoc q) 19 0 ≤ 0x81FFF then FwdResult q 0 t ∧ FwdShows q (fwdAt s q (rf s (Reg.fwdLoc q) 19 0)) t ∧
         FwdSeen q (rf s (Reg.fwdLoc q) 19 0) s t
       else FwdResult q 1 t ∧ FwdShows q none t ∧ t.fwd = s.fwd ∧ FwdRegs q s t)) ∧
   (∀ s (q : Quad) (op : BitVec 4), FwdReady q s → op = 0 ∨ 5 < op.toNat → ∃ t, exec (.fwdBadOp q op) s = .next t ∧
     FwdResult q 4 t ∧ OnlyRegsChanged (fun a => a = Reg.fwdCmdStatus q) s t) ∧
   (∀ s (q : Quad) c, regGated s (Reg.fwdCmd q) = false → rb s (Reg.fwdCmdStatus q) 31 = true →
     (c = .fwdInsert q ∨ c = .fwdUpdate q ∨ c = .fwdDelete q ∨ c = .fwdLookup q ∨ c = .fwdReadLoc q ∨ ∃ op, c = .fwdBadOp q op) →
     ∃ t, exec c s = .next t ∧ rb t (Reg.fwdCmdStatus q) 30 = true ∧ rb t (Reg.fwdCmdStatus q) 31 = true ∧
       rf t (Reg.fwdCmdStatus q) 23 16 = (rf s (Reg.fwdCmdStatus q) 23 16 + 1) % 256 ∧ t.fwd = s.fwd ∧
       SameRegsBut (fun a => a = Reg.fwdCmdStatus q) s t)) ∧
  ((∀ s (q : Quad) (loc : BitVec 20) e, rb s (Reg.fwdCfg q) 30 = true → fwdAt s q loc.toNat = some e →
     touchedNow s q loc.toNat = none → e.pin = false →
     e.aged = false → max 1 (rf s (Reg.fwdCfg q) 14 0) ≤ (now16 s + 65536 - e.ts) % 65536 →
     ∃ t, exec (.ageSweepVisit q loc) s = .next t ∧
       FwdPuts q loc.toNat (if rb s (Reg.fwdCfg q) 29 then none else some { e with aged := true }) s t ∧
       Counted (if rb s (Reg.fwdCfg q) 29 then Ctr.agedRemoved q else Ctr.agedRpt q) s t ∧
       (nrFill s q ≠ 4096 → (fwd t q).ring = Tbl.set (zeroBytes 16) (fwd s q).ring (rf s (Reg.fwdNrPi q) 12 0 % 4096)
         (noticeBytes e.dst (if rb s (Reg.fwdCfg q) 29 then 4 else 3) 0 0 0 loc.toNat e.target (noticeTime s)) ∧
         rf t (Reg.fwdNrPi q) 12 0 = (rf s (Reg.fwdNrPi q) 12 0 + 1) % 8192) ∧
       (nrFill s q = 4096 → (fwd t q).ring = (fwd s q).ring ∧ Counted (Ctr.noticeDrop q) s t)) ∧
   (∀ s (q : Quad) (loc : BitVec 20) e, rb s (Reg.fwdCfg q) 30 = true → fwdAt s q loc.toNat = some e →
     touchedNow s q loc.toNat ≠ none → ∃ t, exec (.ageSweepVisit q loc) s = .next t ∧
       (fwdAt t q loc.toNat = some e ∨ (rb s (Reg.fwdCfg q) 29 = true ∧ fwdAt t q loc.toNat = none) ∨
         (rb s (Reg.fwdCfg q) 29 = false ∧ fwdAt t q loc.toNat = some { e with aged := true })) ∧
       ∀ l, l ≠ loc.toNat → fwdAt t q l = fwdAt s q l) ∧
   (∀ s (q : Quad) (loc : BitVec 20), touchedNow s q loc.toNat = none → (rb s (Reg.fwdCfg q) 30 = false ∨
     fwdAt s q loc.toNat = none ∨
       ∃ e, fwdAt s q loc.toNat = some e ∧ (e.pin = true ∨ e.aged = true ∨
         (now16 s + 65536 - e.ts) % 65536 < max 1 (rf s (Reg.fwdCfg q) 14 0))) →
     exec (.ageSweepVisit q loc) s = .next s) ∧
   (∀ s (q : Quad) v, regGated s (Reg.fwdNrCi q) = false →
     (rf s (Reg.fwdNrPi q) 12 0 + 8192 - (v.toNat % 8192)) % 8192 ≤ 4096 → ∃ t, exec (.fwdNrCiWrite q v) s = .next t ∧
       rf t (Reg.fwdNrCi q) 12 0 = v.toNat % 8192 ∧ (rb t (Reg.fwdStatus q) 1 = decide (0 < nrFill t q)) ∧
       (rb t (Reg.fwdStatus q) 2 = decide (nrFill t q = 4096)) ∧ (fwd t q).table = (fwd s q).table) ∧
   (∀ s (q : Quad) v, regGated s (Reg.fwdNrCi q) = false →
     4096 < (rf s (Reg.fwdNrPi q) 12 0 + 8192 - (v.toNat % 8192)) % 8192 → ∃ t, exec (.fwdNrCiWrite q v) s = .next t ∧
       t = { s with ctr := t.ctr } ∧ Counted (Ctr.fwdCiErr q) s t))

/-- R198, R200, R203, R204: a write of a shaper or a meter word starts its credit or its buckets afresh; a shaper's word 3
takes no write. R209 to R215: a decision moves the calendar on one slot and serves the slot's owner if it was sampled, else
draws the lottery; a grant whose requester has gone is lost; FREEZE stops all of it; ARB_SEED never holds 0. R216, R217, R219,
R396: a congestion map is taken once for each boundary that device time reaches, published in the buffer of its sequence
number, link by link. -/
def Obligations.TrafficControl : Prop :=
  ((∀ s (q : Quad) (k : Fin 256) (c : Fin 8) (w : Fin 4) v, regGated s (shaperAddr q k c w) = false → w.val < 3 →
     ∃ t, exec (.shaperWrite q k c w v) s = .next t ∧
       reg t (shaperAddr q k c w) = (reg s (shaperAddr q k c w) &&& ~~~ rwMaskAt (shaperAddr q k c w)) |||
         (v &&& rwMaskAt (shaperAddr q k c w)) ∧
       shaperCredit t q k c = (if shaperOn t q k c = true ∧ rb t (Reg.shaper0 q k c) 30 = true then
         ((rf t (Reg.shaper1 q k c) 19 0 * 65536 : Nat) : Int) else 0) ∧
       deficit t q k c = 0 ∧ t = { s with regs := t.regs, sw := t.sw } ∧
       SameRegsBut (fun a => a = shaperAddr q k c w ∨ a = Reg.shaper3 q k c) s t) ∧
   (∀ s (q : Quad) (k : Fin 256) (c : Fin 8) v, exec (.shaperWrite q k c 3 v) s = .next s) ∧
   (∀ s (q : Quad) (m : Fin 1024) (w : Fin 5) v, regGated s (meterAddr q m w) = false →
     ∃ t, exec (.meterWrite q m w v) s = .next t ∧
       reg t (meterAddr q m w) = (reg s (meterAddr q m w) &&& ~~~ rwMaskAt (meterAddr q m w)) |||
         (v &&& rwMaskAt (meterAddr q m w)) ∧
       meterBucket t q m false = rf t (Reg.meter2 q m) 23 0 * 65536 ∧
       meterBucket t q m true = rf t (Reg.meter3 q m) 23 0 * 65536 ∧ t = { s with regs := t.regs, sw := t.sw } ∧
       SameRegsBut (fun a => a = meterAddr q m w ∨ a = Reg.meterTc q m ∨ a = Reg.meterTe q m) s t)) ∧
  ((∀ s a m, arbFrozen s a = true → exec (.arbDecision a m) s = .next s) ∧
   (∀ s m, let slot := (rf s (Reg.dmaArbCfg + 0xC) 7 0 + 1) % 256
     arbDown s .dma = false → arbFrozen s .dma = false → arbOwner s .dma slot < 32 →
     m.getLsbD (arbOwner s .dma slot) = true → ∃ t, exec (.arbDecision .dma m) s = .next t ∧
       rf t (Reg.dmaArbCfg + 0xC) 7 0 = slot ∧ reg t (Reg.dmaArbCfg + 8) = reg s (Reg.dmaArbCfg + 8) ∧
       Counted (Reg.dmaArbCfg + 0x40) s t ∧
       (arbOwner s .dma slot ∈ arbRequests s .dma → (dma t (arbOwner s .dma slot)).granted = true) ∧
       (arbOwner s .dma slot ∉ arbRequests s .dma → Counted (Reg.dmaArbCfg + 0x50) s t)) ∧
   (∀ s m r, let slot := (rf s (Reg.dmaArbCfg + 0xC) 7 0 + 1) % 256
     arbDown s .dma = false → arbFrozen s .dma = false →
     (32 ≤ arbOwner s .dma slot ∨ m.getLsbD (arbOwner s .dma slot) = false) →
     lotteryWinner (arbTickets s .dma) (reg s (Reg.dmaArbCfg + 8)).toNat
       ((List.range 32).filter (fun i => m.getLsbD i && decide (0 < arbTickets s .dma i))) = some r →
     ∃ t, exec (.arbDecision .dma m) s = .next t ∧ rf t (Reg.dmaArbCfg + 0xC) 7 0 = slot ∧
       reg t (Reg.dmaArbCfg + 8) = lfsrStep (reg s (Reg.dmaArbCfg + 8)) ∧ Counted (Reg.dmaArbCfg + 0x48) s t) ∧
   (∀ s a m, arbDown s a = false → arbFrozen s a = false → m = 0 → ∃ t, exec (.arbDecision a m) s = .next t ∧
     rf t (arbPage a + 0xC) 7 0 = (rf s (arbPage a + 0xC) 7 0 + 1) % 256 ∧ reg t (arbPage a + 8) = reg s (arbPage a + 8) ∧
     Counted (arbPage a + 0x58) s t) ∧
   (∀ s a v, arbDown s a = false → ∃ t, exec (.arbSeedWrite a v) s = .next t ∧
     reg t (arbPage a + 8) = (if v = 0 then 1 else v) ∧ OnlyRegsChanged (fun b => b = arbPage a + 8) s t) ∧
   (∀ s a, arbDown s a = false → ∃ t, exec (.arbFreeze a) s = .next t ∧ arbFrozen t a = true ∧
     OnlyRegsChanged (fun b => b = arbPage a) s t) ∧
   (∀ s a, arbDown s a = false → ∃ t, exec (.arbUnfreeze a) s = .next t ∧ arbFrozen t a = false ∧
     OnlyRegsChanged (fun b => b = arbPage a) s t) ∧
   (∀ s a, arbDown s a = false → ∃ t, exec (.starveDetect a) s = .next t ∧ ∀ r, r < arbRequesters a →
     rb t (arbPage a + 0x10) r = decide (max 1 (rf s (arbPage a) 23 0) < (arb s (arbIx a)).starve.getD r 0))) ∧
  ((∀ s (q : Quad), let period := 800 * cmapInterval s q
     quadShut s q = false → period ≠ 0 →
     (∀ l, (sw s q).cmap.last = some l ∨ s.time.was = some l → l < devTicks s / period * period) →
       ∃ t, exec (.cmapSample q) s = .next t ∧
       reg t (Reg.cmapSeq q) = reg s (Reg.cmapSeq q) + 1 ∧ (sw t q).cmap.last = some (devTicks s / period * period) ∧
       (let even := (reg s (Reg.cmapSeq q)).toNat % 2 = 1
        let buf := if even then (sw t q).cmap.buf0 else (sw t q).cmap.buf1
        let other := if even then (sw t q).cmap.buf1 else (sw t q).cmap.buf0
        (∀ i, i < 1024 → (buf.drop (8 * i)).take 8 = linkRecord s q i) ∧
        other = if even then (sw s q).cmap.buf1 else (sw s q).cmap.buf0)) ∧
   (∀ s (q : Quad), (quadShut s q = true ∨ cmapInterval s q = 0 ∨
       ∃ l, ((sw s q).cmap.last = some l ∨ s.time.was = some l) ∧
         devTicks s / (800 * cmapInterval s q) * (800 * cmapInterval s q) ≤ l) →
     exec (.cmapSample q) s = .next s))

/-- R249, R251, R252, R257, R259, R280: a packet without a communicator or from no member is dropped and counted, one of a
stale epoch dropped, one of a later epoch, or without a descriptor or a slot, answered with a RETRY; no chunk changes. -/
def Obligations.PacketsTurnedAway : Prop :=
  (∀ s (q : Quad) n p, n < 3 → CeTakes q n p s → commServes s p.head = false → ∃ t, exec (ceCommand q n) s = .next t ∧
    (sw t q).ceIn = (sw s q).ceIn.drop 1 ∧ Counted (Ctr.noCommDrop q) s t ∧
    t = { s with ctr := t.ctr, log := t.log, sw := t.sw }) ∧
  (∀ s (q : Quad) n p, n < 3 → CeTakes q n p s → commServes s p.head = true →
    findSlot s q (hJob p.head) (cComm p.head) (cSeq p.head) (cChunk p.head) = none →
    (groupLinks s q (rf s (Reg.comm0 (cComm p.head)) 11 0)).contains p.link = false →
    ∃ t, exec (ceCommand q n) s = .next t ∧ (sw t q).ceIn = (sw s q).ceIn.drop 1 ∧ Counted (Ctr.notMemberDrop q) s t ∧
      (ce t q).slots = (ce s q).slots) ∧
  (∀ s (q : Quad) n p, n < 3 → CeTakes q n p s → commServes s p.head = true →
    findSlot s q (hJob p.head) (cComm p.head) (cSeq p.head) (cChunk p.head) = none →
    (groupLinks s q (rf s (Reg.comm0 (cComm p.head)) 11 0)).contains p.link = true →
    epochCmp s (hJob p.head) (hEpoch p.head) = 1 → ∃ t, exec (ceCommand q n) s = .next t ∧
      Counted (Ctr.epochAhead q) s t ∧ Retried q p csEpochAhead s t ∧ t.ce = s.ce) ∧
  (∀ s (q : Quad) n p, n < 3 → CeTakes q n p s → commServes s p.head = true →
    findSlot s q (hJob p.head) (cComm p.head) (cSeq p.head) (cChunk p.head) = none →
    (groupLinks s q (rf s (Reg.comm0 (cComm p.head)) 11 0)).contains p.link = true →
    epochCmp s (hJob p.head) (hEpoch p.head) = 2 → ∃ t, exec (ceCommand q n) s = .next t ∧
      Counted (Ctr.epochStaleDrop q) s t ∧ t = { s with ctr := t.ctr, sw := t.sw }) ∧
  (∀ s (q : Quad) n p, n < 2 → CeTakes q n p s → Admitted q p none s → selectDesc s (cComm p.head) (cSeq p.head) = none →
    ∃ t, exec (ceCommand q n) s = .next t ∧ Counted (Ctr.retryNoDesc q) s t ∧ Retried q p csNoDesc s t ∧ t.ce = s.ce) ∧
  (∀ s (q : Quad) n p d, n < 2 → CeTakes q n p s → Admitted q p none s →
    selectDesc s (cComm p.head) (cSeq p.head) = some d → birthSlot s q (cComm p.head) = none →
    ∃ t, exec (ceCommand q n) s = .next t ∧ Counted (Ctr.retryNoSlot q) s t ∧ Retried q p csNoSlot s t ∧ t.ce = s.ce)

/-- R264 to R271, R283 to R285: a contribution adds its elements and its count to its chunk, an exponent packet its exponents,
an acknowledgement its count; one that would pass EXPECT poisons the chunk; the last acknowledgement ends a broadcast. -/
def Obligations.PacketsTaken : Prop :=
  (∀ s (q : Quad) p r x, CeTakes q 0 p s → Admitted q p (some (r, x)) s → x.state = 2 → x.cap = 0 →
    sigPlace x (cSig p.head) = some 0 → fieldsBad x p.head = false → cScoutExp p.head = false →
    p.payload.take (hPlen p.head) = [] → cPktIdx p.head = 0 → x.count + cNcontrib p.head < x.expect →
    ∃ t, exec (.contributionRx q) s = .next t ∧
      slotAt t q r = some { noted q x p s with count := x.count + cNcontrib p.head } ∧
      (∀ r', r' ≠ r → slotAt t q r' = slotAt s q r')) ∧
  (∀ s (q : Quad) p r x, CeTakes q 0 p s → Admitted q p (some (r, x)) s → x.state = 2 → x.cap = 0 →
    sigPlace x (cSig p.head) = some 0 → fieldsBad x p.head = false → cScoutExp p.head = false →
    p.payload.take (hPlen p.head) = [] → cPktIdx p.head = 0 → x.expect < x.count + cNcontrib p.head →
    ∃ t, exec (.contributionRx q) s = .next t ∧ Counted (Ctr.overcount q) s t ∧ Counted (Ctr.poisoned q) s t ∧
      (∀ y, slotAt t q r = some y → y.state = 9)) ∧
  (∀ s (q : Quad) p r x, let h := p.head
    let x' := noted q x p s
    let cov := x'.covers (cFmt h) (cPktIdx h)
    let a := x'.addNative (cPktIdx h) (cVcount h) (p.payload.take (hPlen h))
    let y := { a.slot with maxVc := max x.maxVc (cVcount h), ovfDrop := x.ovfDrop + a.dropped }.addCounts cov (cNcontrib h)
    CeTakes q 0 p s → Admitted q p (some (r, x)) s → r < 1024 → x.state = 2 → x.cap ≠ 0 → x.pass2 = false → x.scout = false →
    x.action ≠ actCgat → sigPlace x (cSig h) = some 0 → fieldsBad x h = false → cScoutExp h = false → cFmt h ≠ 10 →
    cFmt h ≠ 11 → cov ≠ [] → (∀ j ∈ cov, (x'.block j).count + cNcontrib h ≤ x.expect) → y.complete = false →
    ∃ t, exec (.contributionRx q) s = .next t ∧ slotAt t q r = some y ∧ ∀ r', r' ≠ r → slotAt t q r' = slotAt s q r') ∧
  (∀ s (q : Quad) p r x, CeTakes q 1 p s → Admitted q p (some (r, x)) s → x.state = 1 →
    sigPlace x (cSig p.head) = some 0 → fieldsBad x p.head = false → cScoutExp p.head = true →
    x.expCount + cNcontrib p.head < x.expect → ∃ t, exec (.exponentRx q) s = .next t ∧
      slotAt t q r =
        some { (noted q x p s).addExponents (p.payload.take (hPlen p.head)) with expCount := x.expCount + cNcontrib p.head } ∧
      (∀ r', r' ≠ r → slotAt t q r' = slotAt s q r')) ∧
  (∀ s (q : Quad) p r x, CeTakes q 2 p s → Admitted q p (some (r, x)) s → x.state ≠ 9 → x.tFirst.isSome = true →
    sigPlace x (cSig p.head) = some 0 → hPlen p.head = 0 → cPktIdx p.head = 0 → x.count + cNcontrib p.head < x.expect →
    ∃ t, exec (.bcsAckRx q) s = .next t ∧
      slotAt t q r = some { noted q x p s with count := x.count + cNcontrib p.head,
                                               acked := if x.acked.contains p.link then x.acked else x.acked ++ [p.link] }) ∧
  (∀ s (q : Quad) p r x, CeTakes q 2 p s → Admitted q p (some (r, x)) s → x.state = 6 ∨ x.state = 7 →
    sigPlace x (cSig p.head) = some 0 → hPlen p.head = 0 → cPktIdx p.head = 0 → x.count + cNcontrib p.head = x.expect →
    ∃ t, exec (.bcsAckRx q) s = .next t ∧ slotAt t q r = none ∧ Counted (Ctr.chunksDone q) s t) ∧
  (∀ s (q : Quad) p, CeTakes q 2 p s → Admitted q p none s → ∃ t, exec (.bcsAckRx q) s = .next t ∧
    Counted (Ctr.lateContrib q) s t ∧ (ce t q).slots = (ce s q).slots)

/-- R132, R263, R281, R283 to R287: a delivery that has ended frees its record, but a broadcast that still awaits
acknowledgements waits; its timeout holds the job; ending the hold releases held barriers; a new epoch fences the job's
chunks, which end once their accesses have; a parity error drops what it hits and poisons a chunk. -/
def Obligations.ChunkEnds : Prop :=
  (∀ s (q : Quad) (r : SlotIx) x, slotAt s q r = some x → x.state = 5 → x.stage = 0 → x.stopped = false → x.fenced = false →
    slotAccs s q r = [] → slotAcks s q r = 0 → slotSending s q x = false → ∃ t, exec (.deliveryDone q r) s = .next t ∧
      if x.action = actCbcs ∧ x.count < x.expect then slotAt t q r = some { x with state := 6 }
      else slotAt t q r = none ∧ Counted (Ctr.chunksDone q) s t) ∧
  (∀ s (q : Quad) (r : SlotIx) x, slotAt s q r = some x → x.state = 6 → x.fenced = false → x.job < 4096 →
    ∃ t, exec (.bcsTimeout q r) s = .next t ∧ jobHold t x.job = true ∧ Counted (Ctr.bcsIncomplete q) s t ∧
      slotAt t q r = some { x with state := 7, wasHeld := true, told := true }) ∧
  (∀ s (j : JobIx), jobHold s j = false → exec (.jobHoldClear j) s = .next s) ∧
  (∀ s (j : JobIx), jobHold s j = true → ∃ t, exec (.jobHoldClear j) s = .next t ∧ jobHold t j = false ∧
    ∀ (q : Quad) r x, (ce s q).slots = [(r, some x)] → x.state = 8 → x.job = j.val → x.fenced = false →
      slotAt t q r =
        some { x with state := 5, result := leBytes 8 (devTicks s + rf s (Reg.ceBeacon q) 23 0) ++ zeroBytes 8 }) ∧
  (∀ s (j : JobIx) v, ∃ t, exec (.epochWrite j v) s = .next t ∧ rf t (Reg.jobEpoch j) 15 0 = v.toNat % 65536 ∧
    (jobHold t j = if v.toNat % 65536 = rf s (Reg.jobEpoch j) 15 0 then flag v 31 else false) ∧
    ∀ (q : Quad) r x, v.toNat % 65536 ≠ rf s (Reg.jobEpoch j) 15 0 → (ce s q).slots = [(r, some x)] → x.job = j.val →
      x.fenced = false → x.epoch ≠ v.toNat % 65536 → slotAt t q r = some { x with fenced := true }) ∧
  (∀ s (q : Quad) (r : SlotIx) x, slotAt s q r = some x → x.fenced = true → slotAccs s q r = [] →
    ∃ t, exec (.fenceDone q r) s = .next t ∧ slotAt t q r = none ∧ Counted (Ctr.fenced q) s t) ∧
  (∀ s (q : Quad) (k : LinkIx), quadShut s q = false → linkQuad k = q.val → (link s k).rxOpen.isSome = true →
    ∃ t, exec (.parityError q (.ingress k)) s = .next t ∧ (link t k).rxOpen = none ∧
      Counted (Ctr.parityErrCnt q (linkTile k) (linkIx k)) s t) ∧
  (∀ s (q : Quad) (r : SlotIx) x, quadShut s q = false → slotAt s q r = some x → poisonable x.state = true →
    x.fenced = false → ∃ t, exec (.parityError q (.slot r)) s = .next t ∧ Counted (Ctr.poisoned q) s t ∧
      ∀ y, slotAt t q r = some y → y.state = 9)

/-- R252, R254, R256, R261, R278, R511: a COMM entry and the spill slots take a write unless it breaks the reservations, which
is rejected whole; a write of DSEQ applies the staged words of its descriptor and makes it valid. -/
def Obligations.CollectiveTables : Prop :=
  (∀ s (c : CommIx) v, resvBreaks s c (commNew s c v) (reg s (Reg.comm3 c)) = [] → ∃ t, exec (.commWrite c v) s = .next t ∧
    reg t (Reg.comm0 c) = commNew s c v ∧
    Tbl.get 0 t.descs c = (if flag v 31 then Tbl.get 0 s.descs c else 0)) ∧
  (∀ s (c : CommIx) v, resvBreaks s c (commNew s c v) (reg s (Reg.comm3 c)) ≠ [] → ∃ t, exec (.commWrite c v) s = .next t ∧
    t = { s with regs := t.regs, ctr := t.ctr, log := t.log } ∧
    (∀ q ∈ resvBreaks s c (commNew s c v) (reg s (Reg.comm3 c)), rb t (Reg.ceStatus q) 31 = true) ∧
    SameRegsBut (fun a => ∃ q, q < 4 ∧ a = Reg.ceStatus q) s t) ∧
  (∀ s (c : CommIx) v, ∃ t, exec (.descApply c false v) s = .next t ∧ reg t (Reg.comm6 c) = v ∧
    reg t (Reg.comm7 c) = stagedReg s (Reg.comm7 c) ∧ reg t (Reg.comm8 c) = stagedReg s (Reg.comm8 c) ∧
    Tbl.get 0 t.descs c = Tbl.get 0 s.descs c / 2 * 2 + 1 ∧
    t = { s with regs := t.regs, staged := t.staged, descs := t.descs } ∧
    SameRegsBut (fun a => a ∈ [Reg.comm6 c, Reg.comm7 c, Reg.comm8 c]) s t) ∧
  (∀ s (c : CommIx) v, ∃ t, exec (.descApply c true v) s = .next t ∧ reg t (Reg.comm9 c) = v ∧
    reg t (Reg.comm10 c) = stagedReg s (Reg.comm10 c) ∧ reg t (Reg.comm11 c) = stagedReg s (Reg.comm11 c) ∧
    Tbl.get 0 t.descs c = Tbl.get 0 s.descs c % 2 + 2 ∧
    t = { s with regs := t.regs, staged := t.staged, descs := t.descs } ∧
    SameRegsBut (fun a => a ∈ [Reg.comm9 c, Reg.comm10 c, Reg.comm11 c]) s t) ∧
  (∀ s (q : Quad) v, let base := rf s (Reg.ceSpillBaseLo q) 31 12 * 4096 + rf s (Reg.ceSpillBaseHi q) 8 0 * 2 ^ 32
    regGated s (Reg.ceCfg q) = false → spillBreaks s q (v.toNat % 4096) base = false →
    ∃ t, exec (.spillCfgWrite q .cfg v) s = .next t ∧ rf t (Reg.ceCfg q) 11 0 = v.toNat % 4096 ∧
      rb t (Reg.ceCfg q) 31 = flag v 31 ∧
      ((usedSlots s q).any (fun e => 1024 ≤ e.1) = false → (ce t q).spill = v.toNat % 4096 ∧ (ce t q).spillBase = base) ∧
      ((usedSlots s q).any (fun e => 1024 ≤ e.1) = true → ce t q = ce s q)) ∧
  (∀ s (q : Quad) v, let base := rf s (Reg.ceSpillBaseLo q) 31 12 * 4096 + rf s (Reg.ceSpillBaseHi q) 8 0 * 2 ^ 32
    regGated s (Reg.ceCfg q) = false → spillBreaks s q (v.toNat % 4096) base = true →
    ∃ t, exec (.spillCfgWrite q .cfg v) s = .next t ∧ rf t (Reg.ceCfg q) 11 0 = rf s (Reg.ceCfg q) 11 0 ∧
      rb t (Reg.ceCfg q) 31 = flag v 31 ∧ rb t (Reg.ceStatus q) 31 = true ∧ t.ce = s.ce) ∧
  (∀ s (q : Quad) v, regGated s (Reg.ceCrCi q) = false →
    (rf s (Reg.ceCrPi q) 12 0 + 8192 - v.toNat % 8192) % 8192 ≤ 4096 → ∃ t, exec (.ceCrCiWrite q v) s = .next t ∧
      rf t (Reg.ceCrCi q) 12 0 = v.toNat % 8192 ∧ (ce t q).ring = (ce s q).ring ∧ (ce t q).slots = (ce s q).slots) ∧
  (∀ s (q : Quad) v, 4096 < (rf s (Reg.ceCrPi q) 12 0 + 8192 - v.toNat % 8192) % 8192 → exec (.ceCrCiWrite q v) s = .next s)

/-- R332, R334, R343, R349, R350: a post of the job's epoch is given to its chunk, or waits in its quadrant's queue; a second
post for a chunk is counted and discarded, one of another epoch too; a barrier's instruction ends at its release time; a task
is given to an idle task wick, and starts at SUB_ENTRY once its loads have ended. -/
def Obligations.PostsAndTasks : Prop :=
  (∀ s (q : Quad) p rest r x, quadShut s q = false → (fi s q).ring = p :: rest → (fi s q).queue.length < 1024 →
    epochCmp s p.job p.epoch = 0 → findSlot s q p.job p.comm p.seq p.chunk = some (r, x) → x.post = none → x.gather = [] →
    x.state ≠ 4 → x.state ≠ 9 → ∃ t, exec (.postRx q) s = .next t ∧ (fi t q).ring = rest ∧
      (fi t q).queue = (fi s q).queue ∧ slotAt t q r = some { x with post := some p } ∧ Counted (Ctr.posts p.q) s t) ∧
  (∀ s (q : Quad) p rest r x, quadShut s q = false → (fi s q).ring = p :: rest → (fi s q).queue.length < 1024 →
    epochCmp s p.job p.epoch = 0 → findSlot s q p.job p.comm p.seq p.chunk = some (r, x) → x.post.isSome = true →
    (p.repair = false ∨ x.state ≠ 7) → ∃ t, exec (.postRx q) s = .next t ∧ (fi t q).ring = rest ∧ t.ce = s.ce ∧
      Counted (Ctr.dupPost p.q) s t) ∧
  (∀ s (q : Quad) p rest, quadShut s q = false → (fi s q).ring = p :: rest → (fi s q).queue.length < 1024 →
    epochCmp s p.job p.epoch ≠ 0 → ∃ t, exec (.postRx q) s = .next t ∧ (fi t q).ring = rest ∧
      (fi t q).queue = (fi s q).queue ∧ t.ce = s.ce ∧
      Counted (if epochCmp s p.job p.epoch = 1 then Ctr.epochAhead q else Ctr.epochStaleDrop q) s t) ∧
  (∀ s (q : Quad) p rest, quadShut s q = false → (fi s q).ring = p :: rest → (fi s q).queue.length < 1024 →
    epochCmp s p.job p.epoch = 0 → findSlot s q p.job p.comm p.seq p.chunk = none → selectDesc s p.comm p.seq = none →
    ∃ t, exec (.postRx q) s = .next t ∧ (fi t q).ring = rest ∧ (fi t q).queue = (fi s q).queue ++ [p] ∧ t.ce = s.ce) ∧
  (∀ s (q : Quad), 1024 ≤ (fi s q).queue.length → exec (.postRx q) s = .next s) ∧
  (∀ s (q : Quad) p r x, quadShut s q = false → (fi s q).queue = [p] → epochCmp s p.job p.epoch = 0 →
    findSlot s q p.job p.comm p.seq p.chunk = some (r, x) → x.post = none → x.gather = [] → x.state ≠ 4 → x.state ≠ 9 →
    ∃ t, exec (.postRetry q) s = .next t ∧ (fi t q).queue = [] ∧ slotAt t q r = some { x with post := some p }) ∧
  (∀ s (q : Quad) (ix : Fin 256) r T, fiRec? s q ix = some r → r.release = some T → T ≤ devTicks s → r.fail = none →
    ∃ t, exec (.cbarReleaseTime q ix) s = .next t ∧
      if r.nchunk ≤ r.ends.length then fiRec? t q ix = none ∧ Counted (Ctr.fiDone q) s t
      else fiRec? t q ix = some { r with release := none }) ∧
  (∀ s (q : Quad) (ix : Fin 256) r T, fiRec? s q ix = some r → r.release = some T → devTicks s < T →
    exec (.cbarReleaseTime q ix) s = .next s) ∧
  (∀ s (q : Quad) r i x p e w, clusterDown s q = false → waitingTask s q = some (r, i, x, p) →
    nextTaskWick s q x.job p.digest = some (e, w) → ∃ t, exec (.taskDispatch q) s = .next t ∧
      wick t q e w = { wick s q e w with task := some (r, i) } ∧ (lx t q).taskEng = (e + 1) % 64 ∧
      Tbl.get 0 (lx t q).taskWick e = (w + 1) % 32 ∧
      ∃ k, slotAt t q r = some { x with tasks := listSet x.tasks i k } ∧ k.phase = 1 ∧ k.engine = e ∧ k.wick = w) ∧
  (∀ s (q : Quad) r i x p, clusterDown s q = false → waitingTask s q = some (r, i, x, p) →
    nextTaskWick s q x.job p.digest = none → ∃ t, exec (.taskDispatch q) s = .next t ∧ t = { s with ctr := t.ctr } ∧
      Counted (Ctr.taskWait q) s t) ∧
  (∀ s (w : WickId) r i x p k, clusterDown s w.q = false → (wkGet w s).task = some (r, i) → slotAt s w.q r = some x →
    x.post = some p → x.tasks[i]? = some k → k.phase = 1 → x.stopped = false → x.fenced = false →
    (∀ a ∈ quadAccs s w.q, ∀ part off, a.owner ≠ .load w.q r i part off) → ∃ t, exec (.taskLoadDone w) s = .next t ∧
      (wkGet w t).state = 1 ∧ (wkGet w t).pc = BitVec.ofNat 18 p.entry ∧ Counted (Ctr.tasks w.q) s t ∧
      sreg w t 0 = BitVec.ofNat 64 (x.chunk * x.cap + i * taskElems p) ∧ sreg w t 1 = BitVec.ofNat 64 (i * taskElems p) ∧
      sreg w t 2 = BitVec.ofNat 64 x.chunk ∧ sreg w t 3 = BitVec.ofNat 64 p.step ∧ sreg w t 4 = BitVec.ofNat 64 p.seed ∧
      sreg w t 5 = BitVec.ofNat 64 x.expect ∧ sreg w t 6 = BitVec.ofNat 64 x.vcount ∧ sreg w t 7 = 0 ∧
      slotAt t w.q r = some { x with tasks := listSet x.tasks i { k with phase := 2 } })

/-- R293, R294, R324 to R327, R349: START runs an IDLE or FAULT wick that is no task wick from the given PC, KILL ends one;
RUN is set only over a VALID, measured code range; a code range becomes VALID and is measured, its digest is SHA3-256 of its
bytes, and it is not taken from an engine. -/
def Obligations.EngineControl : Prop :=
  (∀ s (w : WickId) v, clusterDown s w.q = false → ((wkGet w s).state = 0 ∨ (wkGet w s).state = 6) →
    rb s (Reg.leTask w.q w.e) w.w = false → ∃ t, exec (.wickStart w v) s = .next t ∧
      wkGet w t = { wkGet w s with pc := BitVec.ofNat 18 v.toNat, oc := [0, 0, 0, 0], ev := false, state := 1,
                                   wait := .none, quantum := 0, haltInt := false, task := none,
                                   sregs := (wkGet w t).sregs } ∧
      sreg w t 0 = BitVec.ofNat 64 (reg64 s (Reg.wkArgLo w.q w.e w.w) (Reg.wkArgHi w.q w.e w.w)) ∧
      (∀ r, r ≠ 0 → sreg w t r = sreg w s r) ∧ reg t (Reg.wkFault w.q w.e w.w) = 0 ∧ reg t (Reg.wkTrap w.q w.e w.w) = 0) ∧
  (∀ s (w : WickId) v, (clusterDown s w.q = true ∨ ((wkGet w s).state ≠ 0 ∧ (wkGet w s).state ≠ 6) ∨
    rb s (Reg.leTask w.q w.e) w.w = true) → exec (.wickStart w v) s = .next s) ∧
  (∀ s (w : WickId), clusterDown s w.q = false → (wkGet w s).state ≠ 0 → ∃ t, exec (.wickKill w) s = .next t ∧
    (wkGet w t).state = if (wkGet w s).oc.all (· == 0) then 0 else 7) ∧
  (∀ s (w : WickId), (wkGet w s).state = 0 → exec (.wickKill w) s = .next s) ∧
  (∀ s (q : Quad) (e : EngineIx), clusterDown s q = false → ∃ t, exec (.engineRunSet q e) s = .next t ∧
    if rb s (Reg.csRange0 q (leRange s q e)) 31 = true ∧ rb s (Reg.csRange0 q (leRange s q e)) 30 = false then
      leRun t q e = true ∧ OnlyRegsChanged (fun a => a = Reg.leCtrl q e ∨ a = Reg.leStatus q e) s t
    else t = { s with ctr := t.ctr } ∧ Counted (Ctr.runRej q) s t) ∧
  (∀ s (q : Quad) (e : EngineIx), clusterDown s q = false → ∃ t, exec (.engineRunClear q e) s = .next t ∧
    leRun t q e = false ∧ (lx t q).msgs = (lx s q).msgs.filter (fun m => m.1 != e.val) ∧
    lx t q = { lx s q with msgs := (lx t q).msgs } ∧
    SameRegsBut (fun a => a = Reg.leCtrl q e ∨ a = Reg.leStatus q e ∨ a = Reg.lxStatus q) s t) ∧
  (∀ s (q : Quad) (m : Fin 16) v, codeDown s q = false → rb s (Reg.csRange0 q m) 31 = false →
    rf s (Reg.csRange2 q m) 18 0 ≠ 0 → rf s (Reg.csRange1 q m) 17 0 + rf s (Reg.csRange2 q m) 18 0 ≤ 262144 →
    ∃ t, exec (.codeRangeValidate q m v) s = .next t ∧ rb t (Reg.csRange0 q m) 31 = true ∧
      rb t (Reg.csRange0 q m) 30 = true ∧ OnlyRegsChanged (fun a => a = Reg.csRange0 q m) s t) ∧
  (∀ s (q : Quad) (m : Fin 16) v, (rb s (Reg.csRange0 q m) 31 = true ∨ rf s (Reg.csRange2 q m) 18 0 = 0 ∨
    262144 < rf s (Reg.csRange1 q m) 17 0 + rf s (Reg.csRange2 q m) 18 0) → exec (.codeRangeValidate q m v) s = .next s) ∧
  (∀ s (q : Quad) (m : Fin 16) v, codeDown s q = false → rb s (Reg.csRange0 q m) 31 = true →
    ∃ t, exec (.codeRangeInvalidate q m v) s = .next t ∧
      if (∃ e : EngineIx, leRange s q e = m.val) then t = { s with ctr := t.ctr } ∧ Counted (Ctr.csBusyRej q) s t
      else rb t (Reg.csRange0 q m) 31 = false ∧ rb t (Reg.csRange0 q m) 30 = false ∧
        OnlyRegsChanged (fun a => a = Reg.csRange0 q m) s t) ∧
  (∀ s (q : Quad) (m : Fin 16), codeDown s q = false → rb s (Reg.csRange0 q m) 30 = true →
    ∃ t, exec (.codeMeasureDone q m) s = .next t ∧ rb t (Reg.csRange0 q m) 30 = false ∧
      (∀ j, j < 8 → reg t (Reg.csDigest q m j) = BitVec.ofNat 32 (leAt (sha3_256 (rangeBytes s q m)) (4 * j) 4)) ∧
      SameRegsBut (fun a => a = Reg.csRange0 q m ∨ ∃ j, j < 8 ∧ a = Reg.csDigest q m j) s t)

/-- R295, R298, R301, R303, R310, R318, R319, R322: a finished long operation writes its destination, lowers its counter and
frees its entry, a failed one faults its wick; a spent quantum yields, a reached time wakes; a message of the engine's job is
queued; a reserved word faults with ILLEGAL and a PC beyond the code with PC_RANGE. -/
def Obligations.EngineEvents : Prop :=
  (∀ s (q : Quad) o d size sx data, clusterDown s q = false → (lx s q).ops.find? (fun x => x.id == o.id) = some o →
    o.kind = .load d size sx → d < 32 → size < 4 → o.ctr < 4 → o.fin = some ⟨0, 0, data⟩ →
    (wick s q o.engine o.wick).state ≠ 7 → ∃ t, exec (.longOpComplete q o.id) s = .next t ∧
      (wick t q o.engine o.wick).sregs.getD d 0 = BitVec.ofNat 64 (loadValue size sx data) ∧
      (wick t q o.engine o.wick).busy = (wick s q o.engine o.wick).busy &&& ~~~ BitVec.ofNat 48 (2 ^ d) ∧
      (wick t q o.engine o.wick).oc.getD o.ctr 0 = (wick s q o.engine o.wick).oc.getD o.ctr 0 - 1 ∧
      (lx t q).ops = (lx s q).ops.filter (fun x => x.id != o.id)) ∧
  (∀ s (w : WickId) o f a data, clusterDown s w.q = false → (lx s w.q).ops.find? (fun x => x.id == o.id) = some o →
    o.ready = true → o.engine = w.e.val → o.wick = w.w.val → o.fin = some ⟨f, a, data⟩ → 0 < f → f < 16 →
    (∀ l n h, o.kind ≠ .send l n h) → (∀ l n p b c d, o.kind ≠ .hash l n p b c d) →
    (wkGet w s).state ≠ 7 → (wkGet w s).state ≠ 6 → ∃ t, exec (.longOpComplete w.q o.id) s = .next t ∧
      Faulted w f true o.fpc t ∧ (wkGet w t).sregs = (wkGet w s).sregs ∧ (wkGet w t).vregs = (wkGet w s).vregs ∧
      (lx t w.q).ops = (lx s w.q).ops.filter (fun x => x.id != o.id) ∧ Counted (Ctr.lxFaults w.q) s t) ∧
  (∀ s (w : WickId), canIssue s w.q w.e w.w = true → quantumSpent s w.q w.e w.w = true →
    ∃ t, exec (.yieldQuantumExpiry w) s = .next t ∧ wkGet w t = { wkGet w s with quantum := 0 } ∧
      Tbl.get 0 (lx t w.q).cur w.e = (w.w.val + 1) % 32 ∧ Counted (Ctr.lxYields w.q) s t) ∧
  (∀ s (w : WickId), (canIssue s w.q w.e w.w = false ∨ quantumSpent s w.q w.e w.w = false) →
    exec (.yieldQuantumExpiry w) s = .next s) ∧
  (∀ s (w : WickId) T, clusterDown s w.q = false → (wkGet w s).state = 4 → (wkGet w s).wait = .time T → T ≤ devTicks s →
    ∃ t, exec (.waittExpiry w) s = .next t ∧ wkGet w t = { wkGet w s with state := 1, wait := .none }) ∧
  (∀ s (w : WickId), (∀ T, (wkGet w s).wait = .time T → devTicks s < T) → exec (.waittExpiry w) s = .next s) ∧
  (∀ s (q : Quad) p rest, let e := byteAt p.head 24 % 64
    let b := byteAt p.head 25 % 32
    quadShut s q = false → (sw s q).lxIn = p :: rest → clusterDown s q = false → leRun s q e = true →
    hJob p.head = leJob s q e → engineMsgs s q e < 32 → msgFull s q = false → waitingRecv s q e b = none →
    ∃ t, exec (.lanternMsgRx q) s = .next t ∧ (sw t q).lxIn = rest ∧ Counted (Ctr.lxMsgRx q) s t ∧
      (lx t q).msgs = (lx s q).msgs ++ [(e, b, { p with payload := p.payload.take (hPlen p.head) })]) ∧
  (∀ s (q : Quad) p rest, let e := byteAt p.head 24 % 64
    quadShut s q = false → (sw s q).lxIn = p :: rest → (clusterDown s q = true ∨ leRun s q e = false ∨
      hJob p.head ≠ leJob s q e ∨ 32 ≤ engineMsgs s q e ∨ msgFull s q = true) →
    ∃ t, exec (.lanternMsgRx q) s = .next t ∧ (sw t q).lxIn = rest ∧ Counted (Ctr.lxMsgDrop q) s t ∧ t.lx = s.lx) ∧
  (∀ s (w : WickId) (b : BitVec 128), AtIssue w s →
    legal (b.extractLsb' 124 4).toNat (b.extractLsb' 116 8).toNat (fieldsOf b) = false →
    ∃ t, exec (.reservedInstruction w b) s = .next t ∧ Faulted w 1 false (wkGet w s).pc.toNat t ∧
      (wkGet w t).pc = (wkGet w s).pc) ∧
  (∀ s (w : WickId), canIssue s w.q w.e w.w = true → pcInRange s w.q w.e w.w = false →
    ∃ t, exec (.pcRange w) s = .next t ∧ Faulted w 2 false (wkGet w s).pc.toNat t ∧ (wkGet w t).pc = (wkGet w s).pc) ∧
  (∀ s (q : Quad), quadShut s q = false → fused s = true → lxTagsUsed s q = 0 → ∃ t, exec (.tagPoolApply q true) s = .next t ∧
    (ms t q).lxPool = min 61440 (rf s (Reg.lxCfg q) 15 0)) ∧
  (∀ s (q : Quad), quadShut s q = false → fused s = true → msTagsUsed s q = 0 → ∃ t, exec (.tagPoolApply q false) s = .next t ∧
    (ms t q).msPool = rf s (Reg.msTags q) 15 0 ∧ (ms t q).lxPool = (ms s q).lxPool)

/-- R138, R166, R371, R373, R374, R377 to R380, R386: a request that fails a check is answered with its STATUS, one that
passes joins an open entry or waits at its stack, with the origin space of its answer reserved, and one that finds no tag or
no such space stays; an entry's window issues its add once for all members; a PEER write is applied only to a REPLICA region
of its fiber; an acknowledgement ends its PEER write. -/
def Obligations.MemoryService : Prop :=
  (∀ s (q : Quad) p rest, quadShut s q = false → (sw s q).msIn = p :: rest → p.resv = none →
    needsRepair s q p.head (reqLen p.head) = false → reqCheck s p ≠ 0 → ∃ t, exec (.memReqService q) s = .next t ∧
      (sw t q).msIn = rest ∧ Counted (msErrCtr q (reqCheck s p)) s t ∧ t.mem = s.mem ∧ t.igStacks = s.igStacks ∧
      ReqAnswered q p (memRspHead s.fuses.epid.toNat p.head (reqCheck s p) 0 0 (hEcn p.head) false []) t) ∧
  (∀ s (q : Quad) p rest, quadShut s q = false → (sw s q).msIn = p :: rest → reqCheck s p = 0 →
    (needsRepair s q p.head (reqLen p.head) = true ∨ reserveAnswer q (answerFlits p.head) p s = none) →
    exec (.memReqService q) s = .next s) ∧
  (∀ s (q : Quad) p rest p' held, quadShut s q = false → (sw s q).msIn = p :: rest →
    needsRepair s q p.head (reqLen p.head) = false → reqCheck s p = 0 → combKind s q p.head = none → openCombs s q = [] →
    reserveAnswer q (answerFlits p.head) p s = some (p', held) → msTagsUsed s q < msPoolSize s q →
      ∃ t, exec (.memReqService q) s = .next t ∧ (sw t q).msIn = rest ∧
      Joined q (reqAddr p.head) (reqOp p) (.request p') s t) ∧
  (∀ s (q : Quad) p rest, quadShut s q = false → (sw s q).msIn = p :: rest →
    needsRepair s q p.head (reqLen p.head) = false → reqCheck s p = 0 → combKind s q p.head = none →
    (reserveAnswer q (answerFlits p.head) p s).isSome = true → msPoolSize s q ≤ msTagsUsed s q →
      ∃ t, exec (.memReqService q) s = .next t ∧ t = { s with ctr := t.ctr } ∧
      Counted (Ctr.msTagWait q) s t) ∧
  (∀ s (q : Quad) p rest k c p' held, quadShut s q = false → (sw s q).msIn = p :: rest →
    needsRepair s q p.head (reqLen p.head) = false → reqCheck s p = 0 → combKind s q p.head = some k →
    (ms s q).combs.find? (combMatches s.time.l (combineWindow s q) k p.head) = some c →
    reserveAnswer q (answerFlits p.head) p s = some (p', held) → (c.kind = 0 ∨ c.members.length < 63) →
      ∃ t, exec (.memReqService q) s = .next t ∧ (sw t q).msIn = rest ∧
      t.igStacks = s.igStacks ∧ (ms t q).combs = modifyFirst (fun x => x.id == c.id)
        (fun _ => { c with members := c.members ++ [(p', if c.kind = 0 then 0 else combOperand p.head)] }) (ms s q).combs) ∧
  (∀ s (q : Quad) c, quadShut s q = false → (ms s q).combs = [c] → c.closed = false → c.kind ≠ 0 →
    ∃ t, exec (.combineWindowExpiry q c.id) s = .next t ∧ (ms t q).combs = [{ c with closed := true }] ∧
      Joined q c.addr (.atomic 0x10 (c.size = 3) ((c.members.map (·.2)).sum % 2 ^ c.width) 0 false) (.comb q c.id) s t) ∧
  (∀ s (q : Quad) p rest p' held, quadShut s q = false → (sw s q).peerIn = p :: rest →
    needsRepair s q p.head (hPlen p.head) = false → peerCheck s q p = 0 → reserveAnswer q 1 p s = some (p', held) →
      ∃ t, exec (.peerWrRx q) s = .next t ∧ (sw t q).peerIn = rest ∧
      Joined q (reqAddr p.head) (.write (p.payload.take (hPlen p.head))) (.peer q p') s t) ∧
  (∀ s (q : Quad) p rest, quadShut s q = false → (sw s q).peerIn = p :: rest → needsRepair s q p.head (hPlen p.head) = false →
    p.resv = none → peerCheck s q p ≠ 0 → ∃ t, exec (.peerWrRx q) s = .next t ∧ (sw t q).peerIn = rest ∧ t.mem = s.mem ∧
      t.igStacks = s.igStacks ∧ Counted (Ctr.peerWrRefused q) s t ∧
      ReqAnswered q p (peerAckHead s.fuses.epid.toNat p.head (peerCheck s q p)) t) ∧
  (∀ s (q : Quad) p rest, quadShut s q = false → (sw s q).peerIn = p :: rest → peerCheck s q p = 0 →
    (needsRepair s q p.head (hPlen p.head) = true ∨ reserveAnswer q 1 p s = none) → exec (.peerWrRx q) s = .next s) ∧
  (∀ s (q : Quad) p rest o id, quadShut s q = false → (sw s q).ackIn = p :: rest →
    (peers s q).out.find? (fun o => o.1 == mRtag p.head % 16384) = some o → o.2.2 = .op id →
    ∃ t, exec (.peerAckRx q) s = .next t ∧ (sw t q).ackIn = rest ∧
      (peers t q).out = eraseFirst (fun x => x == o) (peers s q).out ∧
      OpEnded q id ⟨if mStatus p.head = 0 then 0 else 0x0B, mAddr p.head, []⟩ s t ∧ t.mem = s.mem)

/-- R366 to R370, R372, R373, R378: an access that is done reads or changes the bytes its operation names, fails without
effect on a stack that is not ONLINE or on a line beyond the code, and ends its long operation accordingly; a retired page is
copied to a spare. -/
def Obligations.StackAccesses : Prop :=
  (∀ s (n : StackIx) a errs, (a.granted = false ∨ accReady s n a = false) →
    (stack s n).accs.find? (fun x => x.id == a.id) = some a → exec (.stackAccessDone n a.id errs) s = .next s) ∧
  (∀ s (n : StackIx) a q id m, AccDue n a s → stackOnline s n = true → (stack s n).bad = [] → a.owner = .op q id →
    a.op = .read m → ∃ t, exec (.stackAccessDone n a.id []) s = .next t ∧
      OpEnded q id ⟨0, a.addr, memRead s a.addr m⟩ s t ∧ t.mem = s.mem ∧
      (stack t n).accs = eraseFirst (fun x => x.id == a.id) (stack s n).accs) ∧
  (∀ s (n : StackIx) a id off bs, AccDue n a s → stackOnline s n = true → (stack s n).bad = [] → a.owner = .window id off →
    a.op = .write bs → ∃ t, exec (.stackAccessDone n a.id []) s = .next t ∧
      (∀ i, i < bs.length → memByte t (a.addr + i) = bs.getD i 0) ∧
      (∀ b, b < a.addr ∨ a.addr + bs.length ≤ b → memByte t b = memByte s b) ∧
      (stack t n).accs = eraseFirst (fun x => x.id == a.id) (stack s n).accs) ∧
  (∀ s (n : StackIx) a q id o wide x y sg, let k := if wide then 8 else 4
    let old := memRead s a.addr k
    AccDue n a s → stackOnline s n = true → (stack s n).bad = [] → a.owner = .op q id → a.op = .atomic o wide x y sg →
    ∃ t, exec (.stackAccessDone n a.id []) s = .next t ∧ OpEnded q id ⟨0, a.addr, old⟩ s t ∧
      memRead t a.addr k = leBytes k (atomicWord o (8 * k) (leNat old) x y sg) ∧
      (∀ b, b < a.addr ∨ a.addr + k ≤ b → memByte t b = memByte s b)) ∧
  (∀ s (n : StackIx) a q id errs, AccDue n a s → stackOnline s n = false → a.owner = .op q id →
    ∃ t, exec (.stackAccessDone n a.id errs) s = .next t ∧ OpEnded q id ⟨0x08, a.addr, []⟩ s t ∧ t.mem = s.mem) ∧
  (∀ s (n : StackIx) a q id m l errs, AccDue n a s → stackOnline s n = true → (stack s n).bad = [] → a.owner = .op q id →
    a.op = .read m → accLines a.addr a.op = [l] → markedDie s n = none →
    8 < (errs.eraseDups.filter (fun e => e.line.val == l)).length →
    ∃ t, exec (.stackAccessDone n a.id errs) s = .next t ∧ OpEnded q id ⟨0x0A, a.addr, []⟩ s t ∧ t.mem = s.mem ∧
      Counted (Ctr.igUncorr (n.val / 3) (n.val % 3)) s t) ∧
  (∀ s (n : StackIx) (page : BitVec 25), (stack s n).copying.contains page.toNat = true →
    ∃ t, exec (.retireCopyDone n page) s = .next t ∧ (stack t n).copying = (stack s n).copying.erase page.toNat ∧
      page.toNat ∈ (stack t n).retired ∧ rf t (Reg.igLastRetired (n.val / 3) (n.val % 3)) 24 0 = page.toNat ∧
      Counted (Ctr.igRetired (n.val / 3) (n.val % 3)) s t ∧ t.mem = s.mem) ∧
  (∀ s (n : StackIx) (page : BitVec 25), (stack s n).copying.contains page.toNat = false →
    exec (.retireCopyDone n page) s = .next s) ∧
  (∀ s (n : StackIx) v, regGated s (Reg.igRetire (n.val / 3) (n.val % 3)) = false →
    (stack s n).copying.contains (v.toNat % 2 ^ 25) = false → ∃ t, exec (.igRetireWrite n v) s = .next t ∧
      if spares s n = 0 then rb t (Reg.igStatus (n.val / 3) (n.val % 3)) 26 = true ∧ t.igStacks = s.igStacks
      else spares t n = spares s n - 1 ∧ (stack t n).copying = (stack s n).copying ++ [v.toNat % 2 ^ 25]) ∧
  (∀ s (n : StackIx) v, regGated s (Reg.igCtrl (n.val / 3) (n.val % 3)) = false →
    ∃ t, exec (.stackDieMarkWrite n v) s = .next t ∧ markedDie t n = (if flag v 20 then some (v.toNat / 2 ^ 16 % 16) else none) ∧
      rb t (Reg.igStatus (n.val / 3) (n.val % 3)) 27 = flag v 20) ∧
  (∀ s (n : StackIx) line errs, ∃ t, exec (.scrubRead n line errs) s = .next t ∧ t.mem = s.mem ∧
    if rb s (Reg.igCtrl (n.val / 3) (n.val % 3)) 30 = true ∧ stackOnline s n = true then
      Counted (Ctr.igScrubbed (n.val / 3) (n.val % 3)) s t else t = s)

/-- R307, R365, R386, R388 to R390: OFFLINE drains an ONLINE stack, which leaves service once its accesses are done and
returns when OFFLINE is cleared; training ends in HELD; a region takes its staged words whole, or none with the cause shown;
ROLE takes every value but the reserved one. -/
def Obligations.StacksAndRegions : Prop :=
  (∀ s (n : StackIx), regGated s (Reg.igCtrl (n.val / 3) (n.val % 3)) = false →
    rb s (Reg.igCtrl (n.val / 3) (n.val % 3)) 31 = true → exec (.stackOfflineSet n) s = .next s) ∧
  (∀ s (n : StackIx), regGated s (Reg.igCtrl (n.val / 3) (n.val % 3)) = false →
    rb s (Reg.igCtrl (n.val / 3) (n.val % 3)) 31 = false → ∃ t, exec (.stackOfflineSet n) s = .next t ∧
      rb t (Reg.igCtrl (n.val / 3) (n.val % 3)) 31 = true ∧
      (stackState s n ≠ 3 → OnlyRegsChanged (fun a => a = Reg.igCtrl (n.val / 3) (n.val % 3)) s t) ∧
      (stackState s n = 3 → (stack s n).accs = [] → openCombs s (n.val / 3) = [] → usedSlots s (n.val / 3) = [] →
        stackState t n = 4 ∧ unitState t (20 + n) = 6)) ∧
  (∀ s (n : StackIx), regGated s (Reg.igCtrl (n.val / 3) (n.val % 3)) = false →
    rb s (Reg.igCtrl (n.val / 3) (n.val % 3)) 31 = true → ∃ t, exec (.stackOfflineClear n) s = .next t ∧
      rb t (Reg.igCtrl (n.val / 3) (n.val % 3)) 31 = false ∧
      if stackState s n = 5 then stackState t n = 3 ∧ unitState t (20 + n) = 4
      else OnlyRegsChanged (fun a => a = Reg.igCtrl (n.val / 3) (n.val % 3)) s t) ∧
  (∀ s (n : StackIx), stackGone s n = false → stackState s n = 4 → (stack s n).accs = [] →
    ∃ t, exec (.stackDrained n) s = .next t ∧
      stackState t n = if rb s (Reg.igCtrl (n.val / 3) (n.val % 3)) 31 then 5 else 3) ∧
  (∀ s (n : StackIx), (stackState s n ≠ 4 ∨ (stack s n).accs ≠ []) → exec (.stackDrained n) s = .next s) ∧
  (∀ s (n : StackIx), stackGone s n = false → stackState s n = 2 → (unitState s (20 + n) = 3 ∨ unitState s (20 + n) = 2) →
    ∃ t, exec (.stackTrainingDone n) s = .next t ∧ unitState t (20 + n) = 5 ∧ stackState t n = 2) ∧
  (∀ s (r : RegionIx) v, let words := [Reg.rgn1 r, Reg.rgn2 r, Reg.rgn3 r, Reg.rgn4 r, Reg.rgn5 r]
    (flag v 31 = false ∨ rgnRejects s r (stagedReg s (Reg.rgn1 r)) (stagedReg s (Reg.rgn2 r)) (stagedReg s (Reg.rgn3 r))
      (stagedReg s (Reg.rgn4 r)) = 0) → ∃ t, exec (.regionWrite r v) s = .next t ∧
      (∀ a ∈ words, reg t a = stagedReg s a) ∧
      reg t (Reg.rgn0 r) = (reg s (Reg.rgn0 r) &&& ~~~ rwMaskAt (Reg.rgn0 r)) ||| (v &&& rwMaskAt (Reg.rgn0 r)) ∧
      t = { s with regs := t.regs, staged := t.staged } ∧ SameRegsBut (fun a => a = Reg.rgn0 r ∨ a ∈ words) s t) ∧
  (∀ s (r : RegionIx) v, let words := [Reg.rgn1 r, Reg.rgn2 r, Reg.rgn3 r, Reg.rgn4 r, Reg.rgn5 r]
    let cause := rgnRejects s r (stagedReg s (Reg.rgn1 r)) (stagedReg s (Reg.rgn2 r)) (stagedReg s (Reg.rgn3 r))
      (stagedReg s (Reg.rgn4 r))
    flag v 31 = true → cause ≠ 0 → ∃ t, exec (.regionWrite r v) s = .next t ∧ rf t Reg.rgnStatus 3 0 = cause ∧
      rb t Reg.rgnStatus 31 = true ∧ (∀ a ∈ words, stagedReg t a = reg s a) ∧
      SameRegsBut (fun a => a = Reg.rgnStatus) s t) ∧
  (∀ s (r : RegionIx) v, ∃ t, exec (.roleWrite r v) s = .next t ∧ rb t (Reg.rgnMem r) 29 = flag v 29 ∧
    rgnRole t r = if v.toNat / 2 ^ 30 = 3 then rgnRole s r else v.toNat / 2 ^ 30)

/-- R393 to R395, R403, R405, R406, R410: a host write of TIME_SET, TIME_STEP or TIME_RSET is decided and applies 64 ticks
later, a set or step in place of what the running servo decided in that tick, a rate only while the servo does not run; at its
apply tick device time takes the set value, the step or the new rate without a jump; the read latches show one tick. -/
def Obligations.DeviceTime : Prop :=
  (∀ (s : State) v, ∃ t, exec (.timeSet v) s = .next t ∧
    t.time.applies = keptApplies s ++ [(s.time.l + 64, .set (BitVec.ofNat 80 (timeSetValue s v)))] ∧
    t.time.offset = s.time.offset ∧ t.time.rate = s.time.rate ∧ t.time.l = s.time.l ∧ reg t Reg.setHi = v ∧
    (servoRuns s = true → servoState t = 1)) ∧
  (∀ (s : State) v, ∃ t, exec (.timeStep v) s = .next t ∧ t.time.applies = keptApplies s ++
      [(s.time.l + 64, .step (toSigned 48 ((reg s Reg.tstepLo).toNat + v.toNat % 65536 * 2 ^ 32)))] ∧
    t.time.offset = s.time.offset ∧ t.time.rate = s.time.rate ∧ t.time.l = s.time.l ∧
    (servoRuns s = true → servoState t = 1)) ∧
  (∀ (s : State) v, ∃ t, exec (.timeRset v) s = .next t ∧ OnlyRegsChanged (fun a => a = Reg.rsetHi) { s with time := t.time } t ∧
    t.time = if servoRuns s then s.time else { s.time with
      applies := s.time.applies ++ [(s.time.l + 64, .rate (BitVec.ofNat 40 ((reg s Reg.rsetLo).toNat + v.toNat % 256 * 2 ^ 32)))] }) ∧
  (∀ (s : State), s.time.applies = [] → exec .timeApply s = .next s) ∧
  (∀ (s : State) la c rest, s.time.applies = (la, c) :: rest → ∃ t, exec .timeApply s = .next t ∧
    t.time.applies = rest ∧ t.time.lref = la ∧ t.time.l = max s.time.l la ∧ t = { s with time := t.time } ∧
    (match c with
      | .rate r => t.time.rate = r ∧ t.time.offset = s.time.offset + BitVec.ofInt 80 (rateDrift s.time la)
      | .step d => t.time.rate = s.time.rate ∧
        t.time.offset = s.time.offset + BitVec.ofInt 80 (rateDrift s.time la) + BitVec.ofInt 80 d
      | .set v => t.time.rate = s.time.rate ∧ t.time.offset + BitVec.ofNat 80 (la * 65536) = v)) ∧
  (∀ s : State, ∃ t, exec .timeReadLatch s = .next t ∧
    reg64 t Reg.timeReadLo Reg.timeReadHi = devTime s / 65536 % 2 ^ 64 ∧
    reg t Reg.timeReadFrac = BitVec.ofNat 32 (devTime s % 65536) ∧
    reg64 t Reg.localReadLo Reg.localReadHi = s.time.l % 2 ^ 64 ∧
    reg64 t Reg.offsetLo Reg.offsetHi = s.time.offset.toNat / 65536 ∧
    reg64 t Reg.rateLo Reg.rateHi = s.time.rate.toNat ∧ t = { s with regs := t.regs }) ∧
  (∀ s : State, ∃ t, exec .ageReadLatch s = .next t ∧ reg64 t Reg.lastValidAgeLo Reg.lastValidAgeHi = s.time.age.toNat % 2 ^ 64 ∧
    OnlyRegsChanged (fun a => a = Reg.lastValidAgeLo ∨ a = Reg.lastValidAgeHi) s t) ∧
  (∀ (s : State) v, ∃ t, exec (.servoEnWrite v) s = .next t ∧ rb t Reg.timeCfg 30 = flag v 30 ∧
    t.time = (if flag v 30 && !rb s Reg.timeCfg 30 then { s.time with integ := s.time.rate.toInt } else s.time) ∧
    OnlyRegsChanged (fun a => a = Reg.timeCfg) { s with time := t.time } t) ∧
  (∀ (s : State) v, ∃ t, exec (.servoSrcWrite v) s = .next t ∧ servoSrc t = v.toNat % 1024 ∧ servoRuns t = servoRuns s ∧
    (servoRuns s = true → servoState t = 3) ∧ (servoRuns s = false → servoState t = servoState s) ∧
    (link t (servoSrc s)).exch = none) ∧
  (∀ s : State, s.time.age.toNat ≤ holdTicks s → exec .holdoverTimeout s = .next s) ∧
  (∀ s : State, holdTicks s < s.time.age.toNat → servoRuns s = true → servoState s ≠ 3 →
    ∃ t, exec .holdoverTimeout s = .next t ∧ servoState t = 3 ∧ Counted Ctr.holdovers s t ∧ t.time.rate = s.time.rate ∧
      t.time.offset = s.time.offset)

/-- R399 to R404, R406 to R408: a SYNC opens an exchange at a slave, FOLLOW_UP and DELAY_RESP complete it, and a valid one
gives its link theta and path delay and moves the servo's rate; a master answers DELAY_REQ and takes PATH; a software port
queues every record and sends one at a time. -/
def Obligations.TimeExchanges : Prop :=
  (∀ s (k : LinkIx) m, tpSlave s k = true → ∃ t, exec (.syncRx k m) s = .next t ∧
    (link t k).exch = some ⟨m.seqid, m.flags.toNat % 2 == 1, m.steps.toNat, m.period,
      if (link s k).gap.isNone then findStamp m.period (link s k).rxStamps else none, none, 0, (fiber s (linkFiber k)).period + 1⟩ ∧
    rf t (tpCfg k + 8) 15 0 = m.seqid.toNat ∧
    (k.val = servoSrc s → rf t Reg.timeStatus 23 16 = (if timeGm s then 0 else min 255 (m.steps.toNat + 1)) ∧
      (m.flags.toNat % 2 = 0 → servoRuns s = true → servoState t = 3))) ∧
  (∀ s (k : LinkIx) m e, tpSlave s k = true → (link s k).exch = some e → e.seqid = m.seqid →
    ∃ t, exec (.followUpRx k m) s = .next t ∧
      LinkSet k { link s k with exch := some { e with t1 := some m.stamp, corrF := m.corr.toInt } } s t) ∧
  (∀ s (k : LinkIx) m, tpMaster s k = true → findStamp m.period (link s k).rxStamps = none →
    ∃ t, exec (.delayReqRx k m) s = .next t ∧
      LinkSet k { link s k with reqWait := (link s k).reqWait ++ [(m.seqid, m.period)] } s t) ∧
  (∀ s (k : LinkIx) m x, tpMaster s k = true → findStamp m.period (link s k).rxStamps = some x →
    ∃ t, exec (.delayReqRx k m) s = .next t ∧ rf t (tpCfg k + 8) 15 0 = m.seqid.toNat ∧ (link t k).reqWait = (link s k).reqWait) ∧
  (∀ s (k : LinkIx) m, tpMaster s k = true → ∃ t, exec (.pathRx k m) s = .next t ∧
    reg t (tpCfg k + 0xC) = m.mpd + m.mpd ∧ link t k = { link s k with rttValid := true } ∧
    t = { s with regs := t.regs, links := t.links } ∧ SameRegsBut (fun a => a = tpCfg k + 0xC) s t) ∧
  (∀ s (k : LinkIx) m e t1 t2 t3,
    let r := exchange t1 t2.time t3.time m.stamp e.corrF m.corr.toInt (corrRx s k) (corrTx s k)
    tpSlave s k = true → (link s k).exch = some e → e.t1 = some t1 → e.t2 = some t2 →
    findStamp e.reqPeriod (link s k).txStamps = some t3 → e.seqid = m.seqid → e.valid = true →
    (findStamp e.syncPeriod (link s k).rxStamps).isSome = true → lanesHeld s k t2 t3 = true → 0 ≤ r.2 → r.2 ≤ 2 ^ 36 →
    ∃ t, exec (.delayRespRx k m) s = .next t ∧ reg t (tpCfg k + 0xC) = BitVec.ofNat 32 (2 * (r.2 / 256).toNat) ∧
      reg t (tpCfg k + 0x14) = BitVec.ofNat 32 (r.2 / 256).toNat ∧ reg t (tpCfg k + 0x10) = sat32 (r.1 / 256) ∧
      rb t (tpCfg k + 8) 31 = true ∧ (link t k).exch = none ∧ (link t k).rttValid = true ∧ Counted Ctr.exchanges s t ∧
      (k.val ≠ servoSrc s → t.time = s.time) ∧
      (k.val = servoSrc s → t.time.prevT2 = some t2.l ∧ t.time.age = 0) ∧
      (k.val = servoSrc s → servoRuns s = true → hostDecided s = true → t.time.applies = s.time.applies) ∧
      (k.val = servoSrc s → servoRuns s = true → hostDecided s = false → servoState s = 1 → rb s Reg.timeCfg 29 = true →
        reg s Reg.stepThresh ≠ 0 → (reg s Reg.stepThresh).toNat * 65536 < r.1.natAbs →
        t.time.applies = s.time.applies ++ [(s.time.l + 64, .step (-r.1))] ∧ Counted Ctr.steps s t) ∧
      (∀ p, k.val = servoSrc s → servoRuns s = true → hostDecided s = false → servoState s = 2 → s.time.prevT2 = some p →
        p < t2.l →
        t2.l - p ≤ 16 * syncTicks s →
        let x := r.1 * 2 ^ 32 / ((t2.l - p : Nat) : Int)
        let integ := (s.time.integ * 65536 - (rf s Reg.timeServo 15 0 : Int) * x) / 65536
        t.time.integ = integ ∧ reg t Reg.lastTheta = sat32 (r.1 / 256) ∧ t.time.applies = s.time.applies ++ [(s.time.l + 64,
          .rate (BitVec.ofInt 40 (clampRate ((integ * 65536 - (rf s Reg.timeServo 31 16 : Int) * x) / 65536))))])) ∧
  (∀ s (k : LinkIx) m, tpSlave s k = true → (link s k).exch = none → ∃ t, exec (.delayRespRx k m) s = .next t ∧
    Counted Ctr.exchDiscard s t ∧ t = { s with ctr := t.ctr }) ∧
  (∀ s (k : LinkIx) m e, tpSlave s k = true → (link s k).exch = some e → (e.seqid ≠ m.seqid ∨ e.valid = false ∨ e.t1 = none ∨
    e.t2 = none) → ∃ t, exec (.delayRespRx k m) s = .next t ∧ Counted Ctr.exchDiscard s t ∧
      (∀ j, j ≠ k.val → link t j = link s j) ∧ link t k = { link s k with exch := none } ∧
      t = { s with links := t.links, ctr := t.ctr }) ∧
  (∀ s (k : LinkIx) m c code, (c, code) ∈ [(Instr.syncRx k m, 0x30), (.followUpRx k m, 0x31), (.delayReqRx k m, 0x32),
      (.delayRespRx k m, 0x33), (.pathRx k m, 0x34)] → linkUp s k = true → tpSw s k = true →
    ∃ t, exec c s = .next t ∧
      if tqFill s (Reg.trxPi (linkQuad k)) (Reg.trxCi (linkQuad k)) = 64 then
        t = { s with ctr := t.ctr } ∧ Counted (Ctr.trxDrop (linkQuad k)) s t
      else rf t (Reg.trxPi (linkQuad k)) 6 0 = (rf s (Reg.trxPi (linkQuad k)) 6 0 + 1) % 128 ∧
        ∃ e, (tq t (linkQuad k)).trx = Tbl.set (zeroBytes 32) (tq s (linkQuad k)).trx
            (rf s (Reg.trxPi (linkQuad k)) 6 0 % 64) e ∧ e.take 16 = timeRecord m code) ∧
  (∀ s (q : Quad) v, regGated s (Reg.tqTxCtl q) = false → ∃ t, exec (.tqTxSend q v) s = .next t ∧
    if rb s (Reg.tqStatus q) 2 then t = { s with ctr := t.ctr } ∧ Counted (Ctr.txRej q) s t
    else rb t (Reg.tqStatus q) 2 = true ∧ tq t q = { tq s q with tx := some (v.toNat / 65536, flag v 15, v.toNat % 1024,
        ((List.range 4).map (fun i => leBytes 4 (reg s (Reg.tqTx q i)).toNat)).flatten) }) ∧
  (∀ s (q : Quad), (tq s q).tx = none → exec (.tqTxSent q) s = .next s) ∧
  (∀ s (q : Quad) id stamp k r, k < 1024 → (tq s q).tx = some (id, stamp, k, r) →
    linkQuad k = q.val → linkUp s k = true → ∃ t, exec (.tqTxSent q) s = .next t ∧
    rb t (Reg.tqStatus q) 2 = false ∧ (tq t q).tx = none ∧ (tq t q).await = (tq s q).await ++
      (if stamp = true ∧ (byteAt r 0 = 0x30 ∨ byteAt r 0 = 0x32) then [(k, id, (fiber s (linkFiber k)).period + 1)] else [])) ∧
  (∀ s (q : Quad) id stamp k r, (tq s q).tx = some (id, stamp, k, r) → (linkQuad k ≠ q.val ∨ linkUp s k = false) →
    let stamped := stamp = true ∧ (byteAt r 0 = 0x30 ∨ byteAt r 0 = 0x32)
    ∃ t, exec (.tqTxSent q) s = .next t ∧ rb t (Reg.tqStatus q) 2 = false ∧ (tq t q).tx = none ∧
      (tq t q).await = (tq s q).await ∧ t.links = s.links ∧
      (¬ stamped → tq t q = { tq s q with tx := none }) ∧
      (stamped → tqFill s (Reg.tsqPi q) (Reg.tsqCi q) ≠ 64 → (tq t q).tsq = Tbl.set (zeroBytes 32) (tq s q).tsq
        (rf s (Reg.tsqPi q) 6 0 % 64) (tqEntry k id 0 none))) ∧
  (∀ s (q : Quad) trx v, let pi := if trx then Reg.trxPi q else Reg.tsqPi q
    let ci := if trx then Reg.trxCi q else Reg.tsqCi q
    regGated s ci = false → ∃ t, exec (.timeQueueCiWrite q trx v) s = .next t ∧
      if (rf s pi 6 0 + 128 - v.toNat % 128) % 128 ≤ 64 then rf t ci 6 0 = v.toNat % 128 ∧
        (if tqFill s pi ci = 0 ∧ (rf s pi 6 0 + 128 - v.toNat % 128) % 128 ≠ 0 then Raised (64 * q.val + 36) s t
         else OnlyRegsChanged (fun a => a = ci ∨ a = Reg.tqStatus q) s t)
      else t = s)

/-- R415, R417, R435, R451, R514: a function-level reset puts every register of the host interface unit, its slots and its
engines at their reset values and leaves the rest; the endpoint's readiness and its power state change as commanded. R41,
R412, R416, R443, R514: the link comes up with all eight lanes verified, but not while the device waits for ROOT_LOCK, and
answers WAKE; as it goes down, or a lost lane does not recover in time, unfinished window accesses are forgotten; each change
is logged. -/
def Obligations.HostLink : Prop :=
  ((∀ s : State, perstHigh s = true → ∃ t, exec .functionLevelReset s = .next t ∧
     (∀ a, hifAddr a = true → reg t a = resetAt a ∧ ctr t a = 0) ∧
     (∀ a, hifAddr a = false → a ≠ Reg.bootStatus → a ≠ arbPage .dma + 0xC → reg t a = reg s a) ∧
     (∀ a, hifAddr a = false → ctr t a = ctr s a) ∧
     bootStage t = (if bootStage s = 0x30 then 0x20 else bootStage s) ∧
     (bootStage s = 0x20 ∨ bootStage s = 0x30 → t.boot.staging = [] ∧ t.boot.image = []) ∧
     (∀ n, rslot t n = RsSlot.init) ∧ (∀ i, dma t i = DmaSt.init) ∧ t.host.d3hot = false ∧
     t.host.bars = HostSt.init.bars ∧
     t.host.devReady = s.host.devReady ∧ rb t Reg.hifStatus 31 = rb s Reg.hifStatus 31 ∧
     t = { s with
       regs := t.regs, staged := t.staged, ctr := t.ctr, hold := t.hold, boot := t.boot, host := t.host, arbs := t.arbs }) ∧
   (∀ s : State, perstHigh s = true → ∃ t, exec .endpointConfigReady s = .next t ∧ t.host.devReady = true ∧
     t = { s with host := { s.host with devReady := t.host.devReady } }) ∧
   (∀ (s : State) d3, perstHigh s = true → ∃ t, exec (.powerManagementState d3) s = .next t ∧ t.host.d3hot = d3 ∧
     t = { s with host := { s.host with d3hot := t.host.d3hot } }) ∧
   (∀ (s : State) c, c = .functionLevelReset ∨ c = .endpointConfigReady ∨ (∃ d3, c = .powerManagementState d3) →
     perstHigh s = false → exec c s = .next s)) ∧
  ((∀ s : State, perstHigh s = true → s.host.devReady = true → s.power.waitLock = false → rf s Reg.hifStatus 7 0 = 0xFF →
     ∃ t, exec .pcieLinkUp s = .next t ∧
     rb t Reg.hifStatus 31 = true ∧ rb t Reg.hifStatus 27 = false ∧
     (∀ b, b < 31 → b ≠ 27 → rb t Reg.hifStatus b = rb s Reg.hifStatus b) ∧
     t = { s with regs := t.regs, log := t.log } ∧ SameRegsBut (fun a => a = Reg.hifStatus) s t ∧
     (rb s Reg.hifStatus 31 = false → Logged 4 0x0802 0 9 0 (dataG 1 0) s t) ∧
     (rb s Reg.hifStatus 31 = true → t.log = s.log)) ∧
   (∀ s : State, perstHigh s = false ∨ s.host.devReady = false ∨ s.power.waitLock = true ∨ rf s Reg.hifStatus 7 0 ≠ 0xFF →
     exec .pcieLinkUp s = .next s) ∧
   (∀ s : State, ∃ t, exec .pcieLinkDown s = .next t ∧ rb t Reg.hifStatus 31 = false ∧ t.host.wins = [] ∧
     (∀ b, b < 31 → rb t Reg.hifStatus b = rb s Reg.hifStatus b) ∧ LinkDropped s t) ∧
   (∀ s : State, rf s Reg.hifStatus 7 0 ≠ 0xFF → ∃ t, exec .s0RecoveryTimeout s = .next t ∧ rb t Reg.hifStatus 31 = false ∧
     t.host.wins = [] ∧ (∀ b, b < 31 → rb t Reg.hifStatus b = rb s Reg.hifStatus b) ∧ LinkDropped s t) ∧
   (∀ s : State, rf s Reg.hifStatus 7 0 = 0xFF → exec .s0RecoveryTimeout s = .next s))

/-- R413, R414, R416: a good frame acts on a flag that eight frames in a row show; a missing frame, or one whose CRC is wrong,
is counted, and eight in a row lose the sideband until 64 good ones, with PERST_N taken as 0; every change of SB_LOST or of
PERST_N is logged, and PERST_N at 0 resets the host interface unit. R413: the frame sent carries WAKE, DEV_READY, PWR_OK and
FAULT, BOOT_STAGE and the CRC-8 of the three bytes. -/
def Obligations.Sideband : Prop :=
  ((∀ (s : State) frame, frame.length = 4 → crc8 (frame.take 3) = byteAt frame 3 →
     ∃ t, exec (.sidebandFrameRx frame) s = .next t ∧ t.host.sbBad = 0 ∧ t.host.sbGood = min 64 (s.host.sbGood + 1) ∧
       (∀ i, i < 3 →
         let v := byteAt frame 0 / 2 ^ i % 2 == 1
         let c := s.host.sbCand.getD i (false, 0)
         let n := if c.1 = v then min 8 (c.2 + 1) else 1
         t.host.sbCand.getD i (false, 0) = (v, n) ∧
         t.host.sbFlags.getD i false = if n = 8 then v else s.host.sbFlags.getD i false) ∧
       rb t Reg.hifStatus 30 = (rb s Reg.hifStatus 30 && decide (s.host.sbGood + 1 < 64)) ∧
       perstHigh t = (t.host.sbFlags.getD 0 false && !rb t Reg.hifStatus 30) ∧
       rb t Reg.hifStatus 28 = t.host.sbFlags.getD 1 false ∧ rb t Reg.hifStatus 8 = rb s Reg.hifStatus 8 ∧
       rb t Reg.hifStatus 27 = (rb s Reg.hifStatus 27 && !t.host.sbFlags.getD 2 false) ∧
       SidebandShown s t) ∧
   (∀ (s : State) c, c = .sidebandFrameMissed ∨
       (∃ frame, c = .sidebandFrameRx frame ∧ (frame.length ≠ 4 ∨ crc8 (frame.take 3) ≠ byteAt frame 3)) →
     ∃ t, exec c s = .next t ∧ t.host.sbBad = min 8 (s.host.sbBad + 1) ∧ t.host.sbGood = 0 ∧
       t.host.sbFlags = s.host.sbFlags ∧ (∀ i, i < 3 → (t.host.sbCand.getD i (false, 0)).2 = 0) ∧
       rb t Reg.hifStatus 30 = (rb s Reg.hifStatus 30 || decide (8 ≤ s.host.sbBad + 1)) ∧
       perstHigh t = (s.host.sbFlags.getD 0 false && !rb t Reg.hifStatus 30) ∧
       (¬ (perstHigh s = true ∧ perstHigh t = false) → Counted Ctr.sbBadFrame s t) ∧ SidebandShown s t)) ∧
  (∀ s : State, ∃ t b0 b1 b2 b3, exec .sidebandFrameTx s = .next t ∧ t = { s with out := .sideband [b0, b1, b2, b3] :: s.out } ∧
     b0.getLsbD 0 = rb s Reg.hifStatus 27 ∧ b0.getLsbD 1 = s.host.devReady ∧ b0.getLsbD 2 = rb s Reg.pwrStatus 31 ∧
     b0.getLsbD 3 = rb s Reg.faultStatus 31 ∧ b0.toNat < 16 ∧ b1.toNat + 256 * b2.toNat = bootStage s ∧
     b3.toNat = crc8 [b0, b1, b2])

/-- R18, R19, R97, R421, R415, R417: an aligned access of 4 bytes writes the RW fields of a plain register and nothing else;
one of 8 bytes is two of 4, low word first; a write that reaches no register is ignored, and counted where it hits a route
entry that takes no writes; one of another shape is counted; in D3hot a write is an Unsupported Request. R422, R511: the SET,
CLR and TGL aliases combine the written bits with the RW fields of the register, or of the staged value of a staged word, and
leave its other fields; the result counts as a write of the whole register, whatever its rule; a register with no RW field,
and the MSI-X table, have no alias. -/
def Obligations.RegisterAccesses : Prop :=
  ((∀ s a d v, Answered a s → PlainReg d a.toNat s → ∃ t, exec (.regWrite a (word32 v)) s = .next t ∧
     RegSet a.toNat (written d (reg s a.toNat) v) s t) ∧
   (∀ s a v, Answered a s → (a.toNat < 0xC00000 ∨ 0x1000000 ≤ a.toNat) →
     ((regDef a.toNat = none ∧ ¬ isRouteSpare a.toNat) ∨ (∃ d, regDef a.toNat = some d ∧ writeReaches s d a.toNat = false)) →
     exec (.regWrite a (word32 v)) s = .next s) ∧
   (∀ s (a : BarAddr) v, Answered a s → regDef a.toNat = none → isRouteSpare a.toNat →
     let q := quadOf a.toNat
     let e := (a.toNat % 0x800000 - 0x610000) / 32
     ∃ t, exec (.regWrite a (word32 v)) s = .next t ∧
       (if regGated s (Reg.route0 q e) = false ∧ routeAccepts s q e = false then t = { s with ctr := t.ctr } ∧
         Counted (Ctr.writeRej q) s t ∧ SameCtrsBut (fun c => c = Ctr.writeRej q) s t else t = s)) ∧
   (∀ s (a : BarAddr) (v : DWord), bar0On s = true → a.toNat % 8 = 0 →
     ∃ t u, exec (.regWrite a (word32 (v.setWidth 32))) s = .next t ∧
       (bar0On t = true → exec (.regWrite (a + 4) (word32 ((v >>> 32).setWidth 32))) t = .next u ∧
         exec (.regWrite a ⟨8, true, v⟩) s = .next u)) ∧
   (∀ s (a : BarAddr) (acc : BarAccess), bar0On s = true →
     acc.allBytes = false ∨ (acc.size ≠ 4 ∧ acc.size ≠ 8) ∨ a.toNat % acc.size ≠ 0 →
     ∃ t, exec (.regWrite a acc) s = .next t ∧ t = { s with ctr := t.ctr } ∧ Counted Ctr.hifBadAcc s t ∧
       SameCtrsBut (fun c => c = Ctr.hifBadAcc) s t) ∧
   (∀ (s : State) c, ((∃ a acc, c = .regWrite a acc) ∨ (∃ a v, c = .aliasSetWrite a v ∨ c = .aliasClrWrite a v ∨
     c = .aliasTglWrite a v) ∨
       (∃ i v, c = .winApply i v) ∨ (∃ n, c = .msixVectorUnmask n) ∨ (∃ q e, c = .dmaEnable q e ∨ c = .dmaDisable q e) ∨
       (∃ q e v, c = .dmaTailWrite q e v)) →
     (perstHigh s = false → exec c s = .next s) ∧
     (perstHigh s = true → s.host.d3hot = true → ∃ t, exec c s = .next t ∧ Unsupported s t))) ∧
  (∀ (mk : BarAddr → Word → Instr) (f : Word → Word → Word),
     (mk = .aliasSetWrite ∧ f = fun old v => old ||| v) ∨ (mk = .aliasClrWrite ∧ f = fun old v => old &&& ~~~ v) ∨
       (mk = .aliasTglWrite ∧ f = fun old v => old ^^^ v) →
     (∀ s a d v, Answered a s → PlainReg d a.toNat s → d.rw ≠ 0 → (a.toNat < 0x10000 ∨ 0x20000 ≤ a.toNat) →
       ∃ t, exec (mk a v) s = .next t ∧ RegSet a.toNat (written d (reg s a.toNat) (f (reg s a.toNat) v)) s t) ∧
     (∀ s a d v, Answered a s → regDef a.toNat = some d → isStaged d = true → writeReaches s d a.toNat = true →
       ∃ t, exec (mk a v) s = .next t ∧ t = { s with staged := t.staged } ∧
         stagedReg t a.toNat = written d (stagedReg s a.toNat) (f (stagedReg s a.toNat) v) ∧
         ∀ b, b ≠ a.toNat → stagedReg t b = stagedReg s b) ∧
     (∀ s a d v, Answered a s → regDef a.toNat = some d → d.rw ≠ 0 → isStaged d = false → isSnap d = false → sqBit d = none →
       (a.toNat < 0x10000 ∨ 0x20000 ≤ a.toNat) → (a.toNat < 0xC00000 ∨ 0x1000000 ≤ a.toNat) →
       exec (mk a v) s = exec (.regWrite a (word32 (f (reg s a.toNat) v &&& d.rw))) s) ∧
     (∀ s a v, (regDef a.toNat = none ∨ (∃ d, regDef a.toNat = some d ∧ d.rw = 0) ∨
         (0x10000 ≤ a.toNat ∧ a.toNat < 0x20000)) → Answered a s → exec (mk a v) s = .next s))

/-- R426: a sequence-cleared flag clears only with its bit and the current sequence; the sequence never changes. R427: a
snapshot copies every counter of its block into its holding register, and clears none. R428, R430, R511: a write of a staged
word changes its staged value alone; word 0 of WIN applies base and EN together. R436: unmasking a vector sends its pending
message, once, and clears its PBA bit. R472, R475, R476, R478: a write of RUN or GRUN takes effect wherever the unit answers;
a snapshot gives the live values, a reconfiguration restarts the monitor, and a sample is counted by an enabled monitor whose
level source exists. -/
def Obligations.FlagsSnapshotsAndStagedWords : Prop :=
  ((∀ s a d b v, Answered a s → regDef a.toNat = some d → sqBit d = some b → writeReaches s d a.toNat = true →
     flag v b = true → fld v 23 16 = rf s a.toNat 23 16 → ∃ t, exec (.sqClearWrite a v) s = .next t ∧
       rb t a.toNat b = false ∧ (∀ c, c < 32 → c ≠ b → rb t a.toNat c = rb s a.toNat c) ∧
       OnlyRegsChanged (fun r => r = a.toNat) s t) ∧
   (∀ s a d b v, Answered a s → regDef a.toNat = some d → sqBit d = some b →
     flag v b = false ∨ fld v 23 16 ≠ rf s a.toNat 23 16 ∨ writeReaches s d a.toNat = false →
     exec (.sqClearWrite a v) s = .next s)) ∧
  ((∀ s a d v, Answered a s → regDef a.toNat = some d → isSnap d = true → writeReaches s d a.toNat = true →
     flag v 0 = true → (s.ctr.map (·.1)).Nodup → ∃ t, exec (.snapWrite a v) s = .next t ∧ t = { s with hold := t.hold } ∧
       (∀ c, (snapSpan d a.toNat).1 ≤ c → c < (snapSpan d a.toNat).1 + (snapSpan d a.toNat).2 →
         Tbl.get 0 t.hold c = ctr s c) ∧
       (∀ c, (c < (snapSpan d a.toNat).1 ∨ (snapSpan d a.toNat).1 + (snapSpan d a.toNat).2 ≤ c) →
         Tbl.get 0 t.hold c = Tbl.get 0 s.hold c)) ∧
   (∀ s a d v, Answered a s → regDef a.toNat = some d → isSnap d = true → flag v 0 = false →
     exec (.snapWrite a v) s = .next s)) ∧
  ((∀ s a d v, Answered a s → regDef a.toNat = some d → isStaged d = true → writeReaches s d a.toNat = true →
     ∃ t, exec (.stagedWordWrite a v) s = .next t ∧ t = { s with staged := t.staged } ∧ reg t a.toNat = reg s a.toNat ∧
       stagedReg t a.toNat = written d (stagedReg s a.toNat) v ∧ (∀ b, b ≠ a.toNat → stagedReg t b = stagedReg s b)) ∧
   (∀ s a d v, Answered a s → regDef a.toNat = some d → isStaged d = true → writeReaches s d a.toNat = false →
     exec (.stagedWordWrite a v) s = .next s) ∧
   (∀ s (i : Fin 16) v, bar0On s = true → regGated s (Reg.win0 i) = false → ∃ t, exec (.winApply i v) s = .next t ∧
     reg t (Reg.win1 i) = stagedReg s (Reg.win1 i) ∧ reg t (Reg.win2 i) = stagedReg s (Reg.win2 i) ∧
     rb t (Reg.win0 i) 31 = flag v 31 ∧
     (∀ b, b = Reg.win1 i ∨ b = Reg.win2 i → stagedReg t b = reg t b) ∧
     t = { s with regs := t.regs, staged := t.staged } ∧
     SameRegsBut (fun a => a = Reg.win0 i ∨ a = Reg.win1 i ∨ a = Reg.win2 i) s t) ∧
   (∀ s (i : Fin 16) v, regGated s (Reg.win0 i) = false → bar0On s = true →
     exec (.regWrite (BitVec.ofNat 26 (Reg.win0 i)) (word32 v)) s = exec (.winApply i v) s)) ∧
  (∀ s (n : Fin 2048), bar0On s = true → ∃ t, exec (.msixVectorUnmask n) s = .next t ∧ rb t (Reg.msixCtrl n) 0 = false ∧
     rb t (Reg.msixPba (n / 32)) (n % 32) = false ∧
     (∀ b, b < 32 → b ≠ n % 32 → rb t (Reg.msixPba (n / 32)) b = rb s (Reg.msixPba (n / 32)) b) ∧
     t.out = (if rb s (Reg.msixPba (n / 32)) (n % 32) then
       .msix n (BitVec.ofNat 64 ((reg s (Reg.msixAddrLo n)).toNat + 2 ^ 32 * (reg s (Reg.msixAddrHi n)).toNat))
         (reg s (Reg.msixData n)) :: s.out else s.out) ∧
     t = { s with regs := t.regs, out := t.out } ∧
     SameRegsBut (fun a => a = Reg.msixCtrl n ∨ a = Reg.msixPba (n / 32)) s t) ∧
  ((∀ s (q : Quad) (u : Fin 48) run, regGated s (Reg.pmcCtl q u) = false → ∃ t, exec (.pmcRunWrite q u run) s = .next t ∧
     rb t (Reg.pmcCtl q u) 31 = run) ∧
   (∀ s run, ∃ t, exec (.pmcGrunWrite run) s = .next t ∧ rb t Reg.pmcGlobal 0 = run) ∧
   (∀ s (q : Quad) (m : Fin 16), regGated s (Reg.monSnap q m) = false → ∃ t, exec (.monSnap q m) s = .next t ∧
     (mon t (16 * q.val + m.val)).held = (mon s (16 * q.val + m.val)).live) ∧
   (∀ s (q : Quad) (m : Fin 16) r v, regGated s (monRegAddr q m r) = false → ∃ t, exec (.monReconfig q m r v) s = .next t ∧
     (mon t (16 * q.val + m.val)).live = MonVals.init ∧
     (mon t (16 * q.val + m.val)).held = (mon s (16 * q.val + m.val)).held) ∧
   (∀ s (q : Quad) (m : Fin 16) sensed, rb s (Reg.monCfg q m) 31 = true → quadShut s q = false →
     monLevelOf s q (rf s (Reg.monCfg q m) 23 16) (rf s (Reg.monCfg q m) 15 0) = true →
     ∃ t, exec (.monSample q m sensed) s = .next t ∧
       (mon t (16 * q.val + m.val)).live.count.toNat = min ((mon s (16 * q.val + m.val)).live.count.toNat + 1) (2 ^ 48 - 1)))

/-- R428 to R431, R417, R517: a BAR2 access goes to the Ingot address its aperture gives, as requester 4, a page at a time;
where a condition of R429 holds it completes with all ones, or its data is discarded, and is counted; in D3hot or without
Ingot it is an unsupported request. -/
def Obligations.WindowAccesses : Prop :=
  (∀ s x n i kind ops, winShape x n i kind ops → Bar2On s → 0 < n → ops ≠ [] → x % 4096 + n ≤ 4096 → ∀ k, k = x / 2 ^ 32 % 16 →
    regGated s (Reg.win0 k) = false → rb s (Reg.win0 k) 31 = true →
    let a := (rf s (Reg.win1 k) 31 12 * 4096 + rf s (Reg.win2 k) 8 0 * 2 ^ 32 + x % 2 ^ 32) % 2 ^ 41
    allPopulated s a n = true → stackOnline s (stackOf s a) = true →
    ∃ t, exec i s = .next t ∧
      (stack t (stackOf s a)).accs = (stack s (stackOf s a)).accs ++ ops.zipIdx.map (fun o =>
        ⟨s.accCtr + 1 + o.2, 4, 0, true, false, 0, a + o.1.1, o.1.2, .window s.accCtr o.1.1⟩) ∧
      (∀ m, m ≠ stackOf s a → stack t m = stack s m) ∧
      Tbl.get none t.host.wins s.accCtr = some ⟨kind, List.replicate n 0xFF, ops.length, false⟩ ∧
      (∀ id, id ≠ s.accCtr → Tbl.get none t.host.wins id = Tbl.get none s.host.wins id) ∧
      t.accCtr = s.accCtr + 1 + ops.length ∧
      t = { s with accCtr := t.accCtr, igStacks := t.igStacks, sw := t.sw, host := { s.host with wins := t.host.wins } } ∧
      t.mem = s.mem) ∧
  (∀ s x n i kind ops, winShape x n i kind ops → Bar2On s → (∀ c ∈ pageCuts x n, WinOk s c.1 c.2) → ops = [] →
    ∃ t, exec i s = .next t ∧ t.mem = s.mem ∧ t.out = s.out ∧ t.igStacks = s.igStacks ∧ t.regs = s.regs) ∧
  (∀ s x n i kind ops, winShape x n i kind ops → kind ≠ 1 → Bar2On s → (∀ c ∈ pageCuts x n, WinOk s c.1 c.2) → n ≠ 0 →
    ∃ t, exec i s = .next t ∧ t.mem = s.mem ∧ t.out = s.out ∧ t.regs = s.regs ∧
      Tbl.get none t.host.wins s.accCtr = some ⟨kind, List.replicate n 0xFF, (pageCuts x n).length, false⟩) ∧
  (∀ s x n i kind ops, winShape x n i kind ops → Bar2On s → (∃ c ∈ pageCuts x n, ¬ WinOk s c.1 c.2) →
    ∃ t, exec i s = .next t ∧ t.out = failedCompletion kind n s ∧ Counted Ctr.winErr s t ∧
      t = { s with ctr := t.ctr, out := t.out, accCtr := t.accCtr, host := { s.host with wins := t.host.wins } } ∧
      SameCtrsBut (fun c => c = Ctr.winErr) s t) ∧
  (∀ s x n i kind ops, winShape x n i kind ops → perstHigh s = true → s.host.d3hot = true ∨ partCode s = 3 →
    ∃ t, exec i s = .next t ∧ Unsupported { s with out := if kind = 1 then s.out else .unsupported :: s.out } t) ∧
  (∀ s x n i kind ops, winShape x n i kind ops → perstHigh s = false → exec i s = .next s) ∧
  (∀ s x o a b (wide : Bool), x % (if wide then 8 else 4) ≠ 0 → exec (.windowAtomic x o a b wide) s = .next s)

/-- R432, R434, R435: EN starts an engine and ends its error halt, and stops it after the descriptor in progress, which gives
up a grant that no descriptor uses; TAIL takes no value more than a ring ahead of HEAD. R208, R432 to R434: an engine that
DMA_ARB has granted fetches; a fetched descriptor is checked: BAD_DESC for illegal fields, ABSENT for memory or clusters the
part lacks, ADDR for a range that is not the quadrant's, STACK_OFFLINE for a stack that is not ONLINE; a good I2H transfer
reads Ingot. R433, R434: a descriptor completes once its data has arrived: I2H data goes to host memory, H2I data to Ingot,
H2C data to the code store, unless the range is VALID code; a host error ends it with PCIE_ERR. -/
def Obligations.DmaEngines : Prop :=
  ((∀ s q e, DmaOpen q.val e.val s → s.host.d3hot = false → ∃ t, exec (.dmaEnable q e) s = .next t ∧
     rb t (Reg.dmaCtl q e) 31 = true ∧
     rf t (Reg.dmaCtl q e) 3 0 = rf s (Reg.dmaCtl q e) 3 0 ∧
     rb t (Reg.dmaStatus q e) 30 = (rb s (Reg.dmaCtl q e) 31 && rb s (Reg.dmaStatus q e) 30) ∧
     (∀ b, b < 32 → b ≠ 30 → rb t (Reg.dmaStatus q e) b = rb s (Reg.dmaStatus q e) b) ∧
     OnlyRegsChanged (fun a => a = Reg.dmaCtl q e ∨ a = Reg.dmaStatus q e) s t) ∧
   (∀ s q e, DmaOpen q.val e.val s → s.host.d3hot = false →
     let d := dma s (8 * q.val + e.val)
     ∃ t, exec (.dmaDisable q e) s = .next t ∧ rb t (Reg.dmaCtl q e) 31 = false ∧
       rf t (Reg.dmaCtl q e) 3 0 = rf s (Reg.dmaCtl q e) 3 0 ∧
       (d.job ≠ none ∨ d.granted = false → OnlyRegsChanged (fun a => a = Reg.dmaCtl q e) s t) ∧
       (d.job = none → dma t (8 * q.val + e.val) = DmaSt.init ∨ d.granted = false) ∧
       (∀ i, i ≠ 8 * q.val + e.val → dma t i = dma s i) ∧
       SameRegsBut (fun a => a = Reg.dmaCtl q e ∨ a = arbPage .dma + 0xC) s t ∧
       t = { s with regs := t.regs, arbs := t.arbs, host := { s.host with dma := t.host.dma } }) ∧
   (∀ s (q : Quad) (e : Fin 8) v, DmaOpen q.val e.val s → s.host.d3hot = false →
     let m := 2 * ringSize q e s
     let tail := fld v 16 0 % m
     (tail + m - rf s (Reg.dmaHead q e) 16 0 % m) % m ≤ ringSize q e s →
     ∃ t, exec (.dmaTailWrite q e v) s = .next t ∧ rf t (Reg.dmaTail q e) 16 0 = tail ∧
       OnlyRegsChanged (fun a => a = Reg.dmaTail q e) s t) ∧
   (∀ s (q : Quad) (e : Fin 8) v, DmaOpen q.val e.val s → s.host.d3hot = false →
     let m := 2 * ringSize q e s
     ringSize q e s < (fld v 16 0 % m + m - rf s (Reg.dmaHead q e) 16 0 % m) % m →
     exec (.dmaTailWrite q e v) s = .next s) ∧
   (∀ (s : State) (q : Quad) (e : Fin 8) c, ¬ DmaOpen q.val e.val s → s.host.d3hot = false →
     c = .dmaEnable q e ∨ c = .dmaDisable q e ∨ (∃ v, c = .dmaTailWrite q e v) → exec c s = .next s) ∧
   (∀ (s : State) (q : Quad) (e : Fin 8) c, ¬ DmaOpen q.val e.val s →
     (∃ d, c = .dmaDescFetch q e d) ∨ (∃ bs err, c = .dmaDescComplete q e bs err) → exec c s = .next s)) ∧
  ((∀ s q e desc, DmaFetches q.val e.val s → desc.length = 32 →
     let d := desc
     let n := dLen d
     let a := dDev d
     ∃ t, exec (.dmaDescFetch q e desc) s = .next t ∧ t.mem = s.mem ∧ t.out = s.out ∧
       (¬ DescLegal d → DmaTook q e d 1 false [] s t) ∧
       (DescLegal d → dDir d = 2 →
         DmaTook q e d (if clusterGone s q then 7 else if 2 ^ 22 < a + n then 2 else 0) false [] s t) ∧
       (DescLegal d → dDir d ≠ 2 → (fused s = false ∨ partCode s = 3) → DmaTook q e d 7 false [] s t) ∧
       (DescLegal d → dDir d ≠ 2 → fused s = true → partCode s ≠ 3 →
         (homeQuad a ≠ q.val ∨ allPopulated s a n = false → DmaTook q e d 2 false [] s t) ∧
         (homeQuad a = q.val → allPopulated s a n = true →
           ((∃ m ∈ stacksOf s a n, stackOnline s m = false) → DmaTook q e d 3 false [] s t) ∧
           ((∀ m ∈ stacksOf s a n, stackOnline s m = true) →
             (dDir d = 0 → DmaTook q e d 0 false [] s t) ∧
             (dDir d = 1 → DmaTook q e d 0 true (List.replicate n 0) s t ∧
               (a % 4096 + n ≤ 4096 → (stack t (stackOf s a)).accs = (stack s (stackOf s a)).accs ++
                 [⟨s.accCtr + 1, 4, 0, true, false, 0, a, .read n, .dma (8 * q.val + e.val) s.accCtr 0⟩]))))) ∧
       SameRegsBut (fun r => r = Reg.dmaStatus q e ∨ r = arbPage .dma + 0xC) s t) ∧
   (∀ s q e desc, rb s (Reg.dmaCtl q.val e.val) 31 = false ∨ rb s (Reg.dmaStatus q.val e.val) 30 = true ∨
       (dma s (8 * q.val + e.val)).job ≠ none ∨ (dma s (8 * q.val + e.val)).granted = false ∨
         rf s (Reg.dmaHead q.val e.val) 16 0 = rf s (Reg.dmaTail q.val e.val) 16 0 →
     exec (.dmaDescFetch q e desc) s = .next s)) ∧
  ((∀ s (q : Quad) (e : Fin 8) hd err j, DmaOpen q.val e.val s → (dma s (8 * q.val + e.val)).job = some j → JobIdle q e j.id s →
     j.status ≤ 7 → (j.status ≠ 0 ∨ j.moved = true) → ∃ t, exec (.dmaDescComplete q e hd err) s = .next t ∧
       DmaCompleted q e j j.status (if j.status = 0 ∧ dDir j.desc = 1 then [.hostWrite (dHost j.desc) j.data] else []) s t ∧
       t.mem = s.mem ∧ t.lx = s.lx ∧ Counted (Ctr.dmaDescDone q e) s t ∧
       (j.status = 0 → (ctr t (Ctr.dmaBytes q e)).toNat = min ((ctr s (Ctr.dmaBytes q e)).toNat + dLen j.desc) (2 ^ 48 - 1))) ∧
   (∀ s (q : Quad) (e : Fin 8) hd err j, DmaOpen q.val e.val s → (dma s (8 * q.val + e.val)).job = some j → JobIdle q e j.id s →
     j.status = 0 → j.moved = false → dDir j.desc ≠ 1 →
     let n := dLen j.desc
     let a := dDev j.desc
     ∃ t, exec (.dmaDescComplete q e hd err) s = .next t ∧ t.mem = s.mem ∧
       (err = true → DmaCompleted q e j 6 [] s t ∧ t.lx = s.lx) ∧
       (err = false → dDir j.desc = 2 →
         ((∃ m, m < 16 ∧ rb s (Reg.csRange0 q m) 31 = true ∧ max a (16 * rf s (Reg.csRange1 q m) 17 0) <
             min (a + n) (16 * (rf s (Reg.csRange1 q m) 17 0 + rf s (Reg.csRange2 q m) 18 0))) →
           DmaCompleted q e j 5 [] s t ∧ t.lx = s.lx ∧ Counted (Ctr.csWriteRej q) s t) ∧
         ((∀ m, m < 16 → rb s (Reg.csRange0 q m) 31 = true →
             min (a + n) (16 * (rf s (Reg.csRange1 q m) 17 0 + rf s (Reg.csRange2 q m) 18 0)) ≤
             max a (16 * rf s (Reg.csRange1 q m) 17 0)) →
           DmaCompleted q e j 0 [] s t ∧
           (∀ i, i < n → Tbl.get 0 (lx t q).code (a + i) = (padTo n hd).getD i 0) ∧
           (∀ b, (b < a ∨ a + n ≤ b) → Tbl.get 0 (lx t q).code b = Tbl.get 0 (lx s q).code b) ∧
           (∀ p, p ≠ q.val → lx t p = lx s p))) ∧
       (err = false → dDir j.desc = 0 →
         dma t (8 * q.val + e.val) = ⟨some { j with moved := true }, true⟩ ∧ t.out = s.out ∧ t.regs = s.regs ∧
         (0 < n → a % 4096 + n ≤ 4096 → (stack t (stackOf s a)).accs = (stack s (stackOf s a)).accs ++
           [⟨s.accCtr, 4, 0, true, false, 0, a, .write (padTo n hd), .dma (8 * q.val + e.val) j.id 0⟩]))) ∧
   (∀ s (q : Quad) (e : Fin 8) hd err, (dma s (8 * q.val + e.val)).job = none ∨
       (∃ j, (dma s (8 * q.val + e.val)).job = some j ∧ ¬ JobIdle q e j.id s) →
     exec (.dmaDescComplete q e hd err) s = .next s))

/-- R417, R438, R439, R441: KEY takes a word while the slot is EMPTY; ARM with the slot's generation makes an EMPTY slot
PENDING, and RELEASE with it returns any other slot to EMPTY with the next generation; every other ARM or RELEASE is ignored
and counted; in D3hot a write of BAR4 is an Unsupported Request. -/
def Obligations.ResultSlots : Prop :=
  (∀ s (i : RsIx) (word : Fin 4) v, SlotsOpen s → (rslot s i.val).state = .empty → ∃ t, exec (.rsKeyWrite i word v) s = .next t ∧
    SlotSet i.val { rslot s i.val with key := (rslot t i.val).key } s t ∧
    (rslot t i.val).key.getD word 0 =
      (if word.val = 0 then v &&& 0xFFF else if word.val = 1 then v &&& 0xFFFF else v) ∧
    (∀ j, j ≠ word.val → (rslot t i.val).key.getD j 0 = (rslot s i.val).key.getD j 0)) ∧
  (∀ s (i : RsIx) (word : Fin 4) v, SlotsOpen s → (rslot s i.val).state ≠ .empty → exec (.rsKeyWrite i word v) s = .next s) ∧
  (∀ s (i : RsIx) v, SlotsOpen s → (rslot s i.val).state = .empty → flag v 31 = true →
    fld v 15 0 = (rslot s i.val).gen.toNat → ∃ t, exec (.rsArm i v) s = .next t ∧
      SlotSet i.val { rslot s i.val with state := .pending, vecEn := flag v 30, vector := fld v 26 16 } s t) ∧
  (∀ s (i : RsIx) v, SlotsOpen s →
    (rslot s i.val).state ≠ .empty ∨ flag v 31 = false ∨ fld v 15 0 ≠ (rslot s i.val).gen.toNat →
    ∃ t, exec (.rsArm i v) s = .next t ∧ OnlyCounted Ctr.rsArmErr s t) ∧
  (∀ s (i : RsIx) v, SlotsOpen s → (rslot s i.val).state ≠ .empty → fld v 15 0 = (rslot s i.val).gen.toNat →
    ∃ t, exec (.rsRelease i v) s = .next t ∧ (rslot t i.val).state = .empty ∧
      (rslot t i.val).gen = (rslot s i.val).gen + 1 ∧ (rslot t i.val).len = 0 ∧ SlotSet i.val (rslot t i.val) s t) ∧
  (∀ s (i : RsIx) v, SlotsOpen s → (rslot s i.val).state = .empty ∨ fld v 15 0 ≠ (rslot s i.val).gen.toNat →
    ∃ t, exec (.rsRelease i v) s = .next t ∧ OnlyCounted Ctr.rsRelErr s t) ∧
  (∀ s c, (∃ i w v, c = .rsKeyWrite i w v) ∨ (∃ i v, c = .rsArm i v) ∨ (∃ i v, c = .rsRelease i v) ∨
      (∃ off bs, c = .stagingWrite off bs) →
    (perstHigh s = false → exec c s = .next s) ∧
    (perstHigh s = true → s.host.d3hot = true → ∃ t, exec c s = .next t ∧ Unsupported s t))

/-- R475, R476, R478: a sample updates MIN, MAX, COUNT, SUM and one bucket of an enabled level monitor; a snapshot copies
them, and restarts the monitor with CLR_ON_SNAP; a write of its configuration restarts it and keeps what a snapshot took.
R472: RUN starts or stops the eight counters of a unit, GRUN those of the whole device: while either is 0 no event counts. -/
def Obligations.Monitors : Prop :=
  ((∀ s (q : Quad) (m : Fin 16), regGated s (Reg.monSnap q m) = false → ∃ t, exec (.monSnap q m) s = .next t ∧
     MonSet (16 * q.val + m.val) ⟨if rb s (Reg.monCfg q m) 29 then MonVals.init else (mon s (16 * q.val + m.val)).live,
       (mon s (16 * q.val + m.val)).live⟩ s t) ∧
   (∀ s (q : Quad) (m : Fin 16) r v, ∀ a, a = (match r with
         | .cfg => Reg.monCfg q m
         | .base => Reg.monBase q m
         | .width => Reg.monWidth q m) →
     regGated s a = false → ∃ t, exec (.monReconfig q m r v) s = .next t ∧
       mon t (16 * q.val + m.val) = ⟨MonVals.init, (mon s (16 * q.val + m.val)).held⟩ ∧
       (∀ j, j ≠ 16 * q.val + m.val → mon t j = mon s j) ∧
       reg t a = (reg s a &&& ~~~ rwMaskAt a) ||| (v &&& rwMaskAt a) ∧
       t = { s with regs := t.regs, mons := t.mons } ∧ SameRegsBut (fun b => b = a) s t) ∧
   (∀ s (q : Quad) (m : Fin 16) sensed, rb s (Reg.monCfg q m) 31 = true → quadShut s q = false →
     ∀ kind, kind = rf s (Reg.monCfg q m) 23 16 → monLevelOf s q kind (rf s (Reg.monCfg q m) 15 0) = true →
     let v := if kind = 2 then rf s (Reg.scLinkstat q (rf s (Reg.monCfg q m) 7 0)) 21 0 else sensed
     let x := (mon s (16 * q.val + m.val)).live
     v < 2 ^ 32 → ∃ t, exec (.monSample q m sensed) s = .next t ∧
       (mon t (16 * q.val + m.val)).live.count.toNat = min (x.count.toNat + 1) (2 ^ 48 - 1) ∧
       (mon t (16 * q.val + m.val)).live.sum = x.sum + BitVec.ofNat 64 v ∧
       (mon t (16 * q.val + m.val)).live.min.toNat = (if x.count = 0 then v else min x.min.toNat v) ∧
       (mon t (16 * q.val + m.val)).live.max.toNat = max x.max.toNat v ∧
       (∀ b, b < 32 → ((mon t (16 * q.val + m.val)).live.buckets.getD b 0).toNat =
         if b = bucketOf s q m v then min ((x.buckets.getD b 0).toNat + 1) (2 ^ 32 - 1) else (x.buckets.getD b 0).toNat) ∧
       MonSet (16 * q.val + m.val) ⟨(mon t (16 * q.val + m.val)).live, (mon s (16 * q.val + m.val)).held⟩ s t) ∧
   (∀ s (q : Quad) (m : Fin 16) sensed, rb s (Reg.monCfg q m) 31 = false ∨ quadShut s q = true ∨
       monLevelOf s q (rf s (Reg.monCfg q m) 23 16) (rf s (Reg.monCfg q m) 15 0) = false →
     exec (.monSample q m sensed) s = .next s)) ∧
  ((∀ s (q : Quad) (u : Fin 48) run, regGated s (Reg.pmcCtl q u) = false → ∃ t, exec (.pmcRunWrite q u run) s = .next t ∧
     rb t (Reg.pmcCtl q u) 31 = run ∧ (∀ ev inst n, run = false → pmcEvent q u ev inst n t = t) ∧ (∀ b, b < 31 →
       rb t (Reg.pmcCtl q u) b = rb s (Reg.pmcCtl q u) b) ∧
     OnlyRegsChanged (fun a => a = Reg.pmcCtl q u) s t) ∧
   (∀ s run, ∃ t, exec (.pmcGrunWrite run) s = .next t ∧ rb t Reg.pmcGlobal 0 = run ∧
     (∀ b, 0 < b → b < 32 → rb t Reg.pmcGlobal b = rb s Reg.pmcGlobal b) ∧
     (∀ q u ev inst n, run = false → pmcEvent q u ev inst n t = t) ∧
     OnlyRegsChanged (fun a => a = Reg.pmcGlobal) s t) ∧
   (∀ s (q : Quad) (u : Fin 48) run, regGated s (Reg.pmcCtl q u) = true → exec (.pmcRunWrite q u run) s = .next s))

/-- R479 to R485: the next event of the log, the service die's first and the quadrants' in rotation, takes the next index;
where 16,384 entries are claimed the oldest is overwritten, or with STOP the event is counted lost; an entry of class DEVICE
raises source 257; what was lost is told in one LOG_LOST entry once there is room. R479, R482, R483: LOG_CI takes no value
ahead of LOG_PI or more than 16,384 behind it, and the source of the threshold is ready again once the host has brought the
log below it. -/
def Obligations.EmberLog : Prop :=
  ((∀ s o e rest full, NextOrigin s o → s.log.queues.getD o [] = e :: rest → full = decide (16384 ≤ logClaimed s) →
     (full = false ∨ rb s Reg.logCfg 31 = false) → ∃ t, exec .logEntryWrite s = .next t ∧ LogTakes e full s t ∧
       (o < 5 → t.log.queues.getD o [] = rest) ∧ (∀ p, p < 5 → p ≠ o → t.log.queues.getD p [] = s.log.queues.getD p []) ∧
       (o < 4 → t.log.next = (o + 1) % 4) ∧ (o = 4 → t.log.next = s.log.next)) ∧
   (∀ s o e rest, NextOrigin s o → s.log.queues.getD o [] = e :: rest → 16384 ≤ logClaimed s → rb s Reg.logCfg 31 = true →
     ∃ t, exec .logEntryWrite s = .next t ∧ t.log.stopLost = s.log.stopLost + 1 ∧ t.log.ring = s.log.ring ∧
       t = { s with ctr := t.ctr, log := t.log } ∧ Counted Ctr.logLost s t ∧ SameCtrsBut (fun a => a = Ctr.logLost) s t ∧
       t.log.queues.getD o [] = rest) ∧
   (∀ s : State, (∀ o, o < 5 → s.log.queues.getD o [] = []) → exec .logEntryWrite s = .next s) ∧
   (∀ s (o : Fin 5), o.val < 4 → 0 < s.log.lost.getD o 0 → (s.log.queues.getD o []).length < 64 →
     ∃ t, exec (.logLostEntry o) s = .next t ∧ Logged o 0x0F01 0 0 o (dataG (s.log.lost.getD o 0) 0) s t ∧
       t.log.lost.getD o 0 = 0 ∧ t = { s with log := t.log } ∧ t.log.ring = s.log.ring) ∧
   (∀ s : State, 0 < s.log.stopLost → logClaimed s < 16384 → ∃ t, exec (.logLostEntry 4) s = .next t ∧
     LogTakes ⟨BitVec.ofNat 64 (devTicks s), 0x0F01, 4, 0, 0, 0, dataG s.log.stopLost 0⟩ false s t ∧ t.log.stopLost = 0)) ∧
  ((∀ s v, (rf s Reg.logPi 15 0 + 65536 - fld v 15 0) % 65536 ≤ 16384 → ∃ t, exec (.logCiWrite v) s = .next t ∧
     rf t Reg.logCi 15 0 = fld v 15 0 ∧
     rb t Reg.logStatus 0 = ((rf s Reg.logPi 15 0 + 65536 - fld v 15 0) % 65536 == 16384) ∧
     ((rf s Reg.logPi 15 0 + 65536 - fld v 15 0) % 65536 < rf s Reg.logThresh 14 0 → t.log = { s.log with fired := false }) ∧
     (rf s Reg.logThresh 14 0 ≤ (rf s Reg.logPi 15 0 + 65536 - fld v 15 0) % 65536 → t.log = s.log) ∧
     t = { s with regs := t.regs, log := t.log } ∧
     SameRegsBut (fun a => a = Reg.logCi ∨ a = Reg.logStatus) s t) ∧
   (∀ s v, 16384 < (rf s Reg.logPi 15 0 + 65536 - fld v 15 0) % 65536 → exec (.logCiWrite v) s = .next s))

/-- R479, R293, R400, R414: a device that has no power holds every register at its reset value, no log entry, no packet, no
memory, no lock and an empty queue, and waits for its input. Ingot memory is in its canonical form at reset. -/
def Obligations.ResetState : Prop :=
  ((∀ a, reg State.reset a = resetAt a) ∧ (∀ a, ctr State.reset a = 0) ∧ (∀ a, memByte State.reset a = 0) ∧
     State.reset.pending = [] ∧ State.reset.power.on = false ∧ State.reset.log.ring = [] ∧
     (∀ o, State.reset.log.queues.getD o [] = []) ∧
     rf State.reset Reg.logWr 15 0 = 0 ∧ rf State.reset Reg.logPi 15 0 = 0 ∧ rf State.reset Reg.logCi 15 0 = 0 ∧
     (∀ n, rslot State.reset n = RsSlot.init) ∧ (∀ w : WickId, ∀ r, sreg w State.reset r = 0 ∧ vreg w State.reset r = 0)) ∧
  (Memory.wf State.reset.mem = true)

/-- Every command answers a next state: the spec gives each of them an effect or none, and no command stops the device. No
command changes the queue of those that wait. -/
def Obligations.CommandsAnswer : Prop :=
  ((∀ i s, ∃ t, exec i s = .next t) ∧ ∀ s, ∃ t, step s = .next t) ∧
  (∀ i s t, exec i s = .next t → t.pending = s.pending)

/-- Ingot memory stays in its canonical form at every step. -/
def Obligations.MemoryStaysCanonical : Prop :=
  ∀ s t, Memory.wf s.mem = true → step s = .next t → Memory.wf t.mem = true

/-- R363, R389, R460, R467: only an access that a stack performs, a stack that leaves, a unit that goes down, a start of the
device and a write of a register that commands one of these change a byte of Ingot memory; only the fuse commands of SEC_CMD
change a fuse. -/
def Obligations.MemoryAndFuseWriters : Prop :=
  (∀ i s t, exec i s = .next t → ¬ RegisterWrite i → ¬ StartsAgain i → ¬ TakesUnitsDown i →
    (∀ n id errs, i ≠ .stackAccessDone n id errs) → (∀ n, i ≠ .stackOfflineSet n) → t.mem = s.mem) ∧
  (∀ i s t, exec i s = .next t → ¬ RegisterWrite i → i ≠ .svnAdvance → i ≠ .ownerEnroll → i ≠ .ownerRequire →
    t.fuses = s.fuses)

/-- R309, R310: the word of every legal Scehus instruction decodes to it, field for field, and every word that spells an
instruction is that instruction's word. -/
def Obligations.ScehusRoundTrip : Prop :=
  (∀ w cls op f i, scehusOf cls op w f = some i → legal cls op f = true →
    ∃ b, scehusEncode i = some b ∧ scehusDecode w b = i) ∧
  (∀ w b, (∀ b', scehusDecode w b ≠ .reservedInstruction w b') → scehusEncode (scehusDecode w b) = some b)

/-- R309: the words of the spec's worked examples decode to their instructions: VFMA v3 := v1 × v2 + v0 under p2, an Ingot
load of v5, the WAITCNT for it, and CRSU. -/
def Obligations.ScehusExamples : Prop :=
  ∀ w : WickId,
    scehusDecode w 0x10421844000000000000000000000000 = .vfma w ⟨false, 2, 3, 1, 2, 0, 0, 0, 0⟩ ∧
    scehusDecode w 0x202029C0001400000000000000000040 = .ldi w ⟨false, 0, 5, 7, 0, 0, 0x014, 0, 0x40⟩ ∧
    scehusDecode w 0x40000000000200000000000000000000 = .waitcnt w ⟨false, 0, 0, 0, 0, 0, 0x002, 0, 0⟩ ∧
    scehusDecode w 0x30304D00006000000000000000000000 = .crsu w ⟨false, 0, 9, 20, 0, 0, 0x060, 0, 0⟩
end

