-- ==== Sys2Proof/Laws/Bits.lean ====
section
/-!
SUPPORT. Laws of register fields and of little-endian bytes.
-/
namespace Sys2Proof

theorem setFld_testBit (w : Word) {hi lo : Nat} (v i : Nat) (hl : lo ≤ hi) :
    (setFld w hi lo v).toNat.testBit i =
      (decide (i < 32) && if lo ≤ i ∧ i ≤ hi then v.testBit (i - lo) else w.toNat.testBit i) := by
  have e : w.toNat % 2 ^ lo + (v % 2 ^ (hi + 1 - lo)) * 2 ^ lo + (w.toNat >>> (hi + 1)) * 2 ^ (hi + 1)
      = 2 ^ lo * (2 ^ (hi + 1 - lo) * (w.toNat >>> (hi + 1)) + v % 2 ^ (hi + 1 - lo)) + w.toNat % 2 ^ lo := by
    have h : (2 : Nat) ^ (hi + 1) = 2 ^ lo * 2 ^ (hi + 1 - lo) := by rw [← pow_add]; congr 1; omega
    rw [h]; ring
  have h1 : w.toNat % 2 ^ lo < 2 ^ lo := Nat.mod_lt _ (by positivity)
  have h2 : v % 2 ^ (hi + 1 - lo) < 2 ^ (hi + 1 - lo) := Nat.mod_lt _ (by positivity)
  simp only [setFld, BitVec.toNat_ofNat, Nat.testBit_mod_two_pow]
  rw [e, Nat.testBit_two_pow_mul_add _ h1]
  by_cases hi32 : i < 32
  · simp only [hi32, decide_true, Bool.true_and]
    by_cases c1 : i < lo
    · have : ¬ (lo ≤ i ∧ i ≤ hi) := by omega
      simp [c1, this, Nat.testBit_mod_two_pow]
    · simp only [c1, if_false]
      rw [Nat.testBit_two_pow_mul_add _ h2]
      by_cases c2 : i ≤ hi
      · have h3 : i - lo < hi + 1 - lo := by omega
        have h4 : lo ≤ i ∧ i ≤ hi := by omega
        simp [h3, h4, Nat.testBit_mod_two_pow]
      · have h3 : ¬ (i - lo < hi + 1 - lo) := by omega
        have h4 : ¬ (lo ≤ i ∧ i ≤ hi) := by omega
        simp only [h3, h4, if_false, Nat.testBit_shiftRight]
        congr 1; omega
  · simp [hi32]

theorem fld_testBit (w : Word) (hi lo i : Nat) : (fld w hi lo).testBit i = (decide (i < hi + 1 - lo) && w.toNat.testBit (lo + i)) := by
  simp [fld, Nat.testBit_mod_two_pow, Nat.testBit_shiftRight]

/-- A field just written reads as the value written, modulo its width. -/
theorem fld_setFld_same (w : Word) {hi lo : Nat} (v : Nat) (hl : lo ≤ hi) (h : hi < 32) :
    fld (setFld w hi lo v) hi lo = v % 2 ^ (hi + 1 - lo) := by
  apply Nat.eq_of_testBit_eq
  intro i
  rw [fld_testBit, setFld_testBit w v _ hl, Nat.testBit_mod_two_pow]
  by_cases c : i < hi + 1 - lo
  · have h1 : lo + i < 32 := by omega
    have h2 : lo ≤ lo + i ∧ lo + i ≤ hi := by omega
    simp [c, h1, h2]
  · simp [c]

/-- Writing a field leaves every disjoint field alone. -/
theorem fld_setFld_ne (w : Word) {hi lo h l : Nat} (v : Nat) (hl : lo ≤ hi) (hh : h < 32) (d : hi < l ∨ h < lo) :
    fld (setFld w hi lo v) h l = fld w h l := by
  apply Nat.eq_of_testBit_eq
  intro i
  rw [fld_testBit, fld_testBit, setFld_testBit w v _ hl]
  by_cases c : i < h + 1 - l
  · have h1 : l + i < 32 := by omega
    have h2 : ¬ (lo ≤ l + i ∧ l + i ≤ hi) := by omega
    simp [c, h1, h2]
  · simp [c]

theorem flag_setFld_same (w : Word) {b : Nat} (v : Bool) (h : b < 32) : flag (setFld w b b (b2n v)) b = v := by
  have e : b + 1 - b = 1 := by omega
  cases v <;> simp [flag, fld_setFld_same w _ (Nat.le_refl b) h, e, b2n]

theorem flag_setFld_ne (w : Word) {hi lo b : Nat} (v : Nat) (hl : lo ≤ hi) (hb : b < 32) (d : hi < b ∨ b < lo) :
    flag (setFld w hi lo v) b = flag w b := by
  simp [flag, fld_setFld_ne w v hl hb d]

theorem fld_lt (w : Word) (hi lo : Nat) : fld w hi lo < 2 ^ (hi + 1 - lo) := Nat.mod_lt _ (by positivity)

@[simp] theorem leBytes_length (n x : Nat) : (leBytes n x).length = n := by
  induction n generalizing x with
  | zero => rfl
  | succ n ih => simp [leBytes, ih]

/-- The bytes of a number, read back. -/
theorem leNat_leBytes (n x : Nat) : leNat (leBytes n x) = x % 256 ^ n := by
  induction n generalizing x with
  | zero => simp [leBytes, leNat, Nat.mod_one]
  | succ n ih =>
    have h : x % 256 ^ (n + 1) = x % 256 + 256 * (x / 256 % 256 ^ n) := by
      rw [Nat.pow_succ, Nat.mul_comm (256 ^ n) 256, Nat.mod_mul]
    rw [h]
    simp only [leBytes, leNat, BitVec.toNat_ofNat, ih, Nat.reducePow]

/-- A register file after a write: the register written reads the new value, every other one its old value. -/
theorem getD_listPut {α : Type} (n : Nat) (d : α) (xs : List α) (i j : Nat) (y : α) (h : j < n) :
    (listPut n d xs i y).getD j d = if j = i then y else xs.getD j d := by
  simp [listPut, h]

end Sys2Proof
end

