-- ==== Sys2Proof/Laws/Tbl.lean ====
section
/-!
SUPPORT. Laws of sparse tables: a read after a write, and that every operation keeps the canonical form.
-/
namespace Sys2Proof

variable {α : Type}

@[simp] theorem Tbl.get_nil (d : α) (k : Nat) : Tbl.get d [] k = d := rfl

theorem Tbl.get_erase_same (d : α) (t : Tbl α) (k : Nat) : Tbl.get d (Tbl.erase t k) k = d := by
  induction t with
  | nil => rfl
  | cons e t ih =>
    obtain ⟨k', v⟩ := e
    by_cases h : k = k'
    · simp [Tbl.erase, h]; rw [← h]; exact ih
    · simp [Tbl.erase, Tbl.get, h, ih]

theorem Tbl.get_erase_ne (d : α) (t : Tbl α) {j k : Nat} (h : j ≠ k) : Tbl.get d (Tbl.erase t k) j = Tbl.get d t j := by
  induction t with
  | nil => rfl
  | cons e t ih =>
    obtain ⟨k', v⟩ := e
    by_cases hk : k = k'
    · have hj : j ≠ k' := hk ▸ h
      simp [Tbl.erase, Tbl.get, hk, hj]; rw [← hk]; exact ih
    · by_cases hj : j = k' <;> simp [Tbl.erase, Tbl.get, hk, hj, ih]

theorem Tbl.get_insert_same (d : α) (t : Tbl α) (k : Nat) (v : α) : Tbl.get d (Tbl.insert t k v) k = v := by
  induction t with
  | nil => simp [Tbl.insert, Tbl.get]
  | cons e t ih =>
    obtain ⟨k', v'⟩ := e
    by_cases h1 : k < k'
    · simp [Tbl.insert, Tbl.get, h1]
    · by_cases h2 : k = k' <;> simp [Tbl.insert, Tbl.get, h1, h2, ih]

theorem Tbl.get_insert_ne (d : α) (t : Tbl α) {j k : Nat} (v : α) (h : j ≠ k) :
    Tbl.get d (Tbl.insert t k v) j = Tbl.get d t j := by
  induction t with
  | nil => simp [Tbl.insert, Tbl.get, h]
  | cons e t ih =>
    obtain ⟨k', v'⟩ := e
    by_cases h1 : k < k'
    · simp [Tbl.insert, Tbl.get, h1, h]
    · by_cases h2 : k = k'
      · have hj : j ≠ k' := h2 ▸ h
        simp [Tbl.insert, Tbl.get, h2, hj]
      · by_cases hj : j = k' <;> simp [Tbl.insert, Tbl.get, h1, h2, hj, ih]

/-- A read of the key just written gives the value written. -/
@[simp] theorem Tbl.get_set_same [DecidableEq α] (d : α) (t : Tbl α) (k : Nat) (v : α) : Tbl.get d (Tbl.set d t k v) k = v := by
  by_cases h : v = d
  · subst h; simp [Tbl.set, Tbl.get_erase_same]
  · simp [Tbl.set, h, Tbl.get_insert_same]

/-- A write leaves every other key alone. -/
theorem Tbl.get_set_ne [DecidableEq α] (d d' : α) (t : Tbl α) {j k : Nat} (v : α) (h : j ≠ k) :
    Tbl.get d' (Tbl.set d t k v) j = Tbl.get d' t j := by
  by_cases hv : v = d <;> simp [Tbl.set, hv, Tbl.get_erase_ne, Tbl.get_insert_ne, h]

theorem Tbl.get_set [DecidableEq α] (d : α) (t : Tbl α) (j k : Nat) (v : α) :
    Tbl.get d (Tbl.set d t k v) j = if j = k then v else Tbl.get d t j := by
  by_cases h : j = k
  · subst h; simp
  · simp [h, Tbl.get_set_ne]

theorem Tbl.get_keep (d : α) (p : Nat → Bool) (t : Tbl α) (k : Nat) :
    Tbl.get d (Tbl.keep p t) k = if p k then Tbl.get d t k else d := by
  induction t with
  | nil => simp [Tbl.keep, Tbl.get]
  | cons e t ih =>
    obtain ⟨k', v⟩ := e
    by_cases hp : p k' <;> by_cases hk : k = k'
    · subst hk; simp [Tbl.keep, Tbl.get, hp]
    · simp [Tbl.keep, Tbl.get, hp, hk] at ih ⊢; exact ih
    · subst hk; simp [Tbl.keep, hp] at ih ⊢; exact ih
    · simp [Tbl.keep, Tbl.get, hp, hk] at ih ⊢; exact ih

/-! ### The canonical form -/

variable [DecidableEq α]

theorem Tbl.wfFrom_mono (d : Nat → α) {b c : Nat} (h : b ≤ c) (t : Tbl α) (w : Tbl.wfFrom d c t = true) : Tbl.wfFrom d b t = true := by
  cases t with
  | nil => rfl
  | cons e t =>
    obtain ⟨k, v⟩ := e
    simp only [Tbl.wfFrom, Bool.and_eq_true, decide_eq_true_eq] at w ⊢
    exact ⟨⟨by omega, w.1.2⟩, w.2⟩

theorem Tbl.wfFrom_erase (d : Nat → α) (t : Tbl α) (k : Nat) : ∀ b, Tbl.wfFrom d b t = true → Tbl.wfFrom d b (Tbl.erase t k) = true := by
  induction t with
  | nil => intro b _; rfl
  | cons e t ih =>
    obtain ⟨k', v⟩ := e
    intro b w
    simp only [Tbl.wfFrom, Bool.and_eq_true, decide_eq_true_eq] at w
    by_cases hk : k = k'
    · simp only [Tbl.erase, hk, if_true]
      rw [← hk]
      exact ih b (Tbl.wfFrom_mono d (by omega) t w.2)
    · simp only [Tbl.erase, hk, if_false, Tbl.wfFrom, Bool.and_eq_true, decide_eq_true_eq]
      exact ⟨w.1, ih _ w.2⟩

theorem Tbl.wfFrom_insert (d : Nat → α) (t : Tbl α) (k : Nat) (v : α) (hv : v ≠ d k) :
    ∀ b, b ≤ k → Tbl.wfFrom d b t = true → Tbl.wfFrom d b (Tbl.insert t k v) = true := by
  induction t with
  | nil => intro b hb _; simp [Tbl.insert, Tbl.wfFrom, hb, hv]
  | cons e t ih =>
    obtain ⟨k', v'⟩ := e
    intro b hb w
    simp only [Tbl.wfFrom, Bool.and_eq_true, decide_eq_true_eq] at w
    by_cases h1 : k < k'
    · simp only [Tbl.insert, h1, if_true, Tbl.wfFrom, Bool.and_eq_true, decide_eq_true_eq]
      exact ⟨⟨hb, hv⟩, ⟨⟨by omega, w.1.2⟩, w.2⟩⟩
    · by_cases h2 : k = k'
      · subst h2
        simp only [Tbl.insert, lt_irrefl, if_false, if_true, Tbl.wfFrom, Bool.and_eq_true, decide_eq_true_eq]
        exact ⟨⟨hb, hv⟩, w.2⟩
      · simp only [Tbl.insert, h1, h2, if_false, Tbl.wfFrom, Bool.and_eq_true, decide_eq_true_eq]
        exact ⟨w.1, ih _ (by omega) w.2⟩

/-- A write keeps the canonical form. -/
theorem Tbl.wf_set (d : Nat → α) (t : Tbl α) (k : Nat) (v : α) (w : Tbl.wf d t = true) : Tbl.wf d (Tbl.set (d k) t k v) = true := by
  by_cases h : v = d k
  · simp only [Tbl.set, h, if_true]; exact Tbl.wfFrom_erase d t k 0 w
  · simp only [Tbl.set, h, if_false]; exact Tbl.wfFrom_insert d t k v h 0 (Nat.zero_le k) w

theorem Tbl.wfFrom_filter (d : Nat → α) (p : Nat → Bool) (t : Tbl α) :
    ∀ b, Tbl.wfFrom d b t = true → Tbl.wfFrom d b (t.filter (fun e => p e.1)) = true := by
  induction t with
  | nil => intro b _; rfl
  | cons e t ih =>
    obtain ⟨k, v⟩ := e
    intro b w
    simp only [Tbl.wfFrom, Bool.and_eq_true, decide_eq_true_eq] at w
    by_cases hp : p k
    · simp only [List.filter, hp, Tbl.wfFrom, Bool.and_eq_true, decide_eq_true_eq]
      exact ⟨w.1, ih _ w.2⟩
    · simp only [List.filter, hp]
      exact ih b (Tbl.wfFrom_mono d (by omega) t w.2)

/-- Keeping some keys keeps the canonical form. -/
theorem Tbl.wf_keep (d : Nat → α) (p : Nat → Bool) (t : Tbl α) (w : Tbl.wf d t = true) : Tbl.wf d (Tbl.keep p t) = true :=
  Tbl.wfFrom_filter d p t 0 w

end Sys2Proof
end

