-- ==== Sys2Proof/Laws/State.lean ====
section
/-!
SUPPORT. One lemma per field per named update of the state, and what each accessor reads after each update.
-/
namespace Sys2Proof.Machine

variable (s : State)

/-! ### setReg -/

@[simp] theorem setReg_pending (a : Nat) (v : Word) : (setReg a v s).pending = s.pending := (rfl)
@[simp] theorem setReg_staged (a : Nat) (v : Word) : (setReg a v s).staged = s.staged := (rfl)
@[simp] theorem setReg_ctr (a : Nat) (v : Word) : (setReg a v s).ctr = s.ctr := (rfl)
@[simp] theorem setReg_hold (a : Nat) (v : Word) : (setReg a v s).hold = s.hold := (rfl)
@[simp] theorem setReg_time (a : Nat) (v : Word) : (setReg a v s).time = s.time := (rfl)
@[simp] theorem setReg_tq (a : Nat) (v : Word) : (setReg a v s).tq = s.tq := (rfl)
@[simp] theorem setReg_log (a : Nat) (v : Word) : (setReg a v s).log = s.log := (rfl)
@[simp] theorem setReg_mons (a : Nat) (v : Word) : (setReg a v s).mons = s.mons := (rfl)
@[simp] theorem setReg_repairs (a : Nat) (v : Word) : (setReg a v s).repairs = s.repairs := (rfl)
@[simp] theorem setReg_host (a : Nat) (v : Word) : (setReg a v s).host = s.host := (rfl)
@[simp] theorem setReg_fuses (a : Nat) (v : Word) : (setReg a v s).fuses = s.fuses := (rfl)
@[simp] theorem setReg_power (a : Nat) (v : Word) : (setReg a v s).power = s.power := (rfl)
@[simp] theorem setReg_boot (a : Nat) (v : Word) : (setReg a v s).boot = s.boot := (rfl)
@[simp] theorem setReg_sec (a : Nat) (v : Word) : (setReg a v s).sec = s.sec := (rfl)
@[simp] theorem setReg_unit (a : Nat) (v : Word) : (setReg a v s).unit = s.unit := (rfl)
@[simp] theorem setReg_links (a : Nat) (v : Word) : (setReg a v s).links = s.links := (rfl)
@[simp] theorem setReg_fibers (a : Nat) (v : Word) : (setReg a v s).fibers = s.fibers := (rfl)
@[simp] theorem setReg_rings (a : Nat) (v : Word) : (setReg a v s).rings = s.rings := (rfl)
@[simp] theorem setReg_therm (a : Nat) (v : Word) : (setReg a v s).therm = s.therm := (rfl)
@[simp] theorem setReg_lp (a : Nat) (v : Word) : (setReg a v s).lp = s.lp := (rfl)
@[simp] theorem setReg_cal (a : Nat) (v : Word) : (setReg a v s).cal = s.cal := (rfl)
@[simp] theorem setReg_fwd (a : Nat) (v : Word) : (setReg a v s).fwd = s.fwd := (rfl)
@[simp] theorem setReg_sw (a : Nat) (v : Word) : (setReg a v s).sw = s.sw := (rfl)
@[simp] theorem setReg_arbs (a : Nat) (v : Word) : (setReg a v s).arbs = s.arbs := (rfl)
@[simp] theorem setReg_mem (a : Nat) (v : Word) : (setReg a v s).mem = s.mem := (rfl)
@[simp] theorem setReg_igStacks (a : Nat) (v : Word) : (setReg a v s).igStacks = s.igStacks := (rfl)
@[simp] theorem setReg_ms (a : Nat) (v : Word) : (setReg a v s).ms = s.ms := (rfl)
@[simp] theorem setReg_ce (a : Nat) (v : Word) : (setReg a v s).ce = s.ce := (rfl)
@[simp] theorem setReg_fi (a : Nat) (v : Word) : (setReg a v s).fi = s.fi := (rfl)
@[simp] theorem setReg_lx (a : Nat) (v : Word) : (setReg a v s).lx = s.lx := (rfl)
@[simp] theorem setReg_peers (a : Nat) (v : Word) : (setReg a v s).peers = s.peers := (rfl)
@[simp] theorem setReg_descs (a : Nat) (v : Word) : (setReg a v s).descs = s.descs := (rfl)
@[simp] theorem setReg_accCtr (a : Nat) (v : Word) : (setReg a v s).accCtr = s.accCtr := (rfl)
@[simp] theorem setReg_pktCtr (a : Nat) (v : Word) : (setReg a v s).pktCtr = s.pktCtr := (rfl)
@[simp] theorem setReg_out (a : Nat) (v : Word) : (setReg a v s).out = s.out := (rfl)
@[simp] theorem setReg_freeCtr (a : Nat) (v : Word) : (setReg a v s).freeCtr = s.freeCtr := (rfl)
@[simp] theorem ctr_setReg (a : Nat) (v : Word) (j : Nat) : ctr (setReg a v s) j = ctr s j := (rfl)
@[simp] theorem link_setReg (a : Nat) (v : Word) (j : Nat) : link (setReg a v s) j = link s j := (rfl)
@[simp] theorem fiber_setReg (a : Nat) (v : Word) (j : Nat) : fiber (setReg a v s) j = fiber s j := (rfl)
@[simp] theorem ring_setReg (a : Nat) (v : Word) (j : Nat) : ring (setReg a v s) j = ring s j := (rfl)
@[simp] theorem therm_setReg (a : Nat) (v : Word) (j : Nat) : therm (setReg a v s) j = therm s j := (rfl)
@[simp] theorem lp_setReg (a : Nat) (v : Word) (j : Nat) : lp (setReg a v s) j = lp s j := (rfl)
@[simp] theorem fwd_setReg (a : Nat) (v : Word) (j : Nat) : fwd (setReg a v s) j = fwd s j := (rfl)
@[simp] theorem sw_setReg (a : Nat) (v : Word) (j : Nat) : sw (setReg a v s) j = sw s j := (rfl)
@[simp] theorem arb_setReg (a : Nat) (v : Word) (j : Nat) : arb (setReg a v s) j = arb s j := (rfl)
@[simp] theorem mon_setReg (a : Nat) (v : Word) (j : Nat) : mon (setReg a v s) j = mon s j := (rfl)
@[simp] theorem tq_setReg (a : Nat) (v : Word) (j : Nat) : tq (setReg a v s) j = tq s j := (rfl)
@[simp] theorem rslot_setReg (a : Nat) (v : Word) (j : Nat) : rslot (setReg a v s) j = rslot s j := (rfl)
@[simp] theorem dma_setReg (a : Nat) (v : Word) (j : Nat) : dma (setReg a v s) j = dma s j := (rfl)
@[simp] theorem stack_setReg (a : Nat) (v : Word) (j : Nat) : stack (setReg a v s) j = stack s j := (rfl)
@[simp] theorem ms_setReg (a : Nat) (v : Word) (j : Nat) : ms (setReg a v s) j = ms s j := (rfl)
@[simp] theorem ce_setReg (a : Nat) (v : Word) (j : Nat) : ce (setReg a v s) j = ce s j := (rfl)
@[simp] theorem fi_setReg (a : Nat) (v : Word) (j : Nat) : fi (setReg a v s) j = fi s j := (rfl)
@[simp] theorem lx_setReg (a : Nat) (v : Word) (j : Nat) : lx (setReg a v s) j = lx s j := (rfl)
@[simp] theorem peers_setReg (a : Nat) (v : Word) (j : Nat) : peers (setReg a v s) j = peers s j := (rfl)
@[simp] theorem memByte_setReg (a : Nat) (v : Word) (j : Nat) : memByte (setReg a v s) j = memByte s j := (rfl)

/-! ### setRf -/

@[simp] theorem setRf_pending (a hi lo v : Nat) : (setRf a hi lo v s).pending = s.pending := (rfl)
@[simp] theorem setRf_staged (a hi lo v : Nat) : (setRf a hi lo v s).staged = s.staged := (rfl)
@[simp] theorem setRf_ctr (a hi lo v : Nat) : (setRf a hi lo v s).ctr = s.ctr := (rfl)
@[simp] theorem setRf_hold (a hi lo v : Nat) : (setRf a hi lo v s).hold = s.hold := (rfl)
@[simp] theorem setRf_time (a hi lo v : Nat) : (setRf a hi lo v s).time = s.time := (rfl)
@[simp] theorem setRf_tq (a hi lo v : Nat) : (setRf a hi lo v s).tq = s.tq := (rfl)
@[simp] theorem setRf_log (a hi lo v : Nat) : (setRf a hi lo v s).log = s.log := (rfl)
@[simp] theorem setRf_mons (a hi lo v : Nat) : (setRf a hi lo v s).mons = s.mons := (rfl)
@[simp] theorem setRf_repairs (a hi lo v : Nat) : (setRf a hi lo v s).repairs = s.repairs := (rfl)
@[simp] theorem setRf_host (a hi lo v : Nat) : (setRf a hi lo v s).host = s.host := (rfl)
@[simp] theorem setRf_fuses (a hi lo v : Nat) : (setRf a hi lo v s).fuses = s.fuses := (rfl)
@[simp] theorem setRf_power (a hi lo v : Nat) : (setRf a hi lo v s).power = s.power := (rfl)
@[simp] theorem setRf_boot (a hi lo v : Nat) : (setRf a hi lo v s).boot = s.boot := (rfl)
@[simp] theorem setRf_sec (a hi lo v : Nat) : (setRf a hi lo v s).sec = s.sec := (rfl)
@[simp] theorem setRf_unit (a hi lo v : Nat) : (setRf a hi lo v s).unit = s.unit := (rfl)
@[simp] theorem setRf_links (a hi lo v : Nat) : (setRf a hi lo v s).links = s.links := (rfl)
@[simp] theorem setRf_fibers (a hi lo v : Nat) : (setRf a hi lo v s).fibers = s.fibers := (rfl)
@[simp] theorem setRf_rings (a hi lo v : Nat) : (setRf a hi lo v s).rings = s.rings := (rfl)
@[simp] theorem setRf_therm (a hi lo v : Nat) : (setRf a hi lo v s).therm = s.therm := (rfl)
@[simp] theorem setRf_lp (a hi lo v : Nat) : (setRf a hi lo v s).lp = s.lp := (rfl)
@[simp] theorem setRf_cal (a hi lo v : Nat) : (setRf a hi lo v s).cal = s.cal := (rfl)
@[simp] theorem setRf_fwd (a hi lo v : Nat) : (setRf a hi lo v s).fwd = s.fwd := (rfl)
@[simp] theorem setRf_sw (a hi lo v : Nat) : (setRf a hi lo v s).sw = s.sw := (rfl)
@[simp] theorem setRf_arbs (a hi lo v : Nat) : (setRf a hi lo v s).arbs = s.arbs := (rfl)
@[simp] theorem setRf_mem (a hi lo v : Nat) : (setRf a hi lo v s).mem = s.mem := (rfl)
@[simp] theorem setRf_igStacks (a hi lo v : Nat) : (setRf a hi lo v s).igStacks = s.igStacks := (rfl)
@[simp] theorem setRf_ms (a hi lo v : Nat) : (setRf a hi lo v s).ms = s.ms := (rfl)
@[simp] theorem setRf_ce (a hi lo v : Nat) : (setRf a hi lo v s).ce = s.ce := (rfl)
@[simp] theorem setRf_fi (a hi lo v : Nat) : (setRf a hi lo v s).fi = s.fi := (rfl)
@[simp] theorem setRf_lx (a hi lo v : Nat) : (setRf a hi lo v s).lx = s.lx := (rfl)
@[simp] theorem setRf_peers (a hi lo v : Nat) : (setRf a hi lo v s).peers = s.peers := (rfl)
@[simp] theorem setRf_descs (a hi lo v : Nat) : (setRf a hi lo v s).descs = s.descs := (rfl)
@[simp] theorem setRf_accCtr (a hi lo v : Nat) : (setRf a hi lo v s).accCtr = s.accCtr := (rfl)
@[simp] theorem setRf_pktCtr (a hi lo v : Nat) : (setRf a hi lo v s).pktCtr = s.pktCtr := (rfl)
@[simp] theorem setRf_out (a hi lo v : Nat) : (setRf a hi lo v s).out = s.out := (rfl)
@[simp] theorem setRf_freeCtr (a hi lo v : Nat) : (setRf a hi lo v s).freeCtr = s.freeCtr := (rfl)
@[simp] theorem ctr_setRf (a hi lo v : Nat) (j : Nat) : ctr (setRf a hi lo v s) j = ctr s j := (rfl)
@[simp] theorem link_setRf (a hi lo v : Nat) (j : Nat) : link (setRf a hi lo v s) j = link s j := (rfl)
@[simp] theorem fiber_setRf (a hi lo v : Nat) (j : Nat) : fiber (setRf a hi lo v s) j = fiber s j := (rfl)
@[simp] theorem ring_setRf (a hi lo v : Nat) (j : Nat) : ring (setRf a hi lo v s) j = ring s j := (rfl)
@[simp] theorem therm_setRf (a hi lo v : Nat) (j : Nat) : therm (setRf a hi lo v s) j = therm s j := (rfl)
@[simp] theorem lp_setRf (a hi lo v : Nat) (j : Nat) : lp (setRf a hi lo v s) j = lp s j := (rfl)
@[simp] theorem fwd_setRf (a hi lo v : Nat) (j : Nat) : fwd (setRf a hi lo v s) j = fwd s j := (rfl)
@[simp] theorem sw_setRf (a hi lo v : Nat) (j : Nat) : sw (setRf a hi lo v s) j = sw s j := (rfl)
@[simp] theorem arb_setRf (a hi lo v : Nat) (j : Nat) : arb (setRf a hi lo v s) j = arb s j := (rfl)
@[simp] theorem mon_setRf (a hi lo v : Nat) (j : Nat) : mon (setRf a hi lo v s) j = mon s j := (rfl)
@[simp] theorem tq_setRf (a hi lo v : Nat) (j : Nat) : tq (setRf a hi lo v s) j = tq s j := (rfl)
@[simp] theorem rslot_setRf (a hi lo v : Nat) (j : Nat) : rslot (setRf a hi lo v s) j = rslot s j := (rfl)
@[simp] theorem dma_setRf (a hi lo v : Nat) (j : Nat) : dma (setRf a hi lo v s) j = dma s j := (rfl)
@[simp] theorem stack_setRf (a hi lo v : Nat) (j : Nat) : stack (setRf a hi lo v s) j = stack s j := (rfl)
@[simp] theorem ms_setRf (a hi lo v : Nat) (j : Nat) : ms (setRf a hi lo v s) j = ms s j := (rfl)
@[simp] theorem ce_setRf (a hi lo v : Nat) (j : Nat) : ce (setRf a hi lo v s) j = ce s j := (rfl)
@[simp] theorem fi_setRf (a hi lo v : Nat) (j : Nat) : fi (setRf a hi lo v s) j = fi s j := (rfl)
@[simp] theorem lx_setRf (a hi lo v : Nat) (j : Nat) : lx (setRf a hi lo v s) j = lx s j := (rfl)
@[simp] theorem peers_setRf (a hi lo v : Nat) (j : Nat) : peers (setRf a hi lo v s) j = peers s j := (rfl)
@[simp] theorem memByte_setRf (a hi lo v : Nat) (j : Nat) : memByte (setRf a hi lo v s) j = memByte s j := (rfl)

/-! ### setRb -/

@[simp] theorem setRb_pending (a b : Nat) (v : Bool) : (setRb a b v s).pending = s.pending := (rfl)
@[simp] theorem setRb_staged (a b : Nat) (v : Bool) : (setRb a b v s).staged = s.staged := (rfl)
@[simp] theorem setRb_ctr (a b : Nat) (v : Bool) : (setRb a b v s).ctr = s.ctr := (rfl)
@[simp] theorem setRb_hold (a b : Nat) (v : Bool) : (setRb a b v s).hold = s.hold := (rfl)
@[simp] theorem setRb_time (a b : Nat) (v : Bool) : (setRb a b v s).time = s.time := (rfl)
@[simp] theorem setRb_tq (a b : Nat) (v : Bool) : (setRb a b v s).tq = s.tq := (rfl)
@[simp] theorem setRb_log (a b : Nat) (v : Bool) : (setRb a b v s).log = s.log := (rfl)
@[simp] theorem setRb_mons (a b : Nat) (v : Bool) : (setRb a b v s).mons = s.mons := (rfl)
@[simp] theorem setRb_repairs (a b : Nat) (v : Bool) : (setRb a b v s).repairs = s.repairs := (rfl)
@[simp] theorem setRb_host (a b : Nat) (v : Bool) : (setRb a b v s).host = s.host := (rfl)
@[simp] theorem setRb_fuses (a b : Nat) (v : Bool) : (setRb a b v s).fuses = s.fuses := (rfl)
@[simp] theorem setRb_power (a b : Nat) (v : Bool) : (setRb a b v s).power = s.power := (rfl)
@[simp] theorem setRb_boot (a b : Nat) (v : Bool) : (setRb a b v s).boot = s.boot := (rfl)
@[simp] theorem setRb_sec (a b : Nat) (v : Bool) : (setRb a b v s).sec = s.sec := (rfl)
@[simp] theorem setRb_unit (a b : Nat) (v : Bool) : (setRb a b v s).unit = s.unit := (rfl)
@[simp] theorem setRb_links (a b : Nat) (v : Bool) : (setRb a b v s).links = s.links := (rfl)
@[simp] theorem setRb_fibers (a b : Nat) (v : Bool) : (setRb a b v s).fibers = s.fibers := (rfl)
@[simp] theorem setRb_rings (a b : Nat) (v : Bool) : (setRb a b v s).rings = s.rings := (rfl)
@[simp] theorem setRb_therm (a b : Nat) (v : Bool) : (setRb a b v s).therm = s.therm := (rfl)
@[simp] theorem setRb_lp (a b : Nat) (v : Bool) : (setRb a b v s).lp = s.lp := (rfl)
@[simp] theorem setRb_cal (a b : Nat) (v : Bool) : (setRb a b v s).cal = s.cal := (rfl)
@[simp] theorem setRb_fwd (a b : Nat) (v : Bool) : (setRb a b v s).fwd = s.fwd := (rfl)
@[simp] theorem setRb_sw (a b : Nat) (v : Bool) : (setRb a b v s).sw = s.sw := (rfl)
@[simp] theorem setRb_arbs (a b : Nat) (v : Bool) : (setRb a b v s).arbs = s.arbs := (rfl)
@[simp] theorem setRb_mem (a b : Nat) (v : Bool) : (setRb a b v s).mem = s.mem := (rfl)
@[simp] theorem setRb_igStacks (a b : Nat) (v : Bool) : (setRb a b v s).igStacks = s.igStacks := (rfl)
@[simp] theorem setRb_ms (a b : Nat) (v : Bool) : (setRb a b v s).ms = s.ms := (rfl)
@[simp] theorem setRb_ce (a b : Nat) (v : Bool) : (setRb a b v s).ce = s.ce := (rfl)
@[simp] theorem setRb_fi (a b : Nat) (v : Bool) : (setRb a b v s).fi = s.fi := (rfl)
@[simp] theorem setRb_lx (a b : Nat) (v : Bool) : (setRb a b v s).lx = s.lx := (rfl)
@[simp] theorem setRb_peers (a b : Nat) (v : Bool) : (setRb a b v s).peers = s.peers := (rfl)
@[simp] theorem setRb_descs (a b : Nat) (v : Bool) : (setRb a b v s).descs = s.descs := (rfl)
@[simp] theorem setRb_accCtr (a b : Nat) (v : Bool) : (setRb a b v s).accCtr = s.accCtr := (rfl)
@[simp] theorem setRb_pktCtr (a b : Nat) (v : Bool) : (setRb a b v s).pktCtr = s.pktCtr := (rfl)
@[simp] theorem setRb_out (a b : Nat) (v : Bool) : (setRb a b v s).out = s.out := (rfl)
@[simp] theorem setRb_freeCtr (a b : Nat) (v : Bool) : (setRb a b v s).freeCtr = s.freeCtr := (rfl)
@[simp] theorem ctr_setRb (a b : Nat) (v : Bool) (j : Nat) : ctr (setRb a b v s) j = ctr s j := (rfl)
@[simp] theorem link_setRb (a b : Nat) (v : Bool) (j : Nat) : link (setRb a b v s) j = link s j := (rfl)
@[simp] theorem fiber_setRb (a b : Nat) (v : Bool) (j : Nat) : fiber (setRb a b v s) j = fiber s j := (rfl)
@[simp] theorem ring_setRb (a b : Nat) (v : Bool) (j : Nat) : ring (setRb a b v s) j = ring s j := (rfl)
@[simp] theorem therm_setRb (a b : Nat) (v : Bool) (j : Nat) : therm (setRb a b v s) j = therm s j := (rfl)
@[simp] theorem lp_setRb (a b : Nat) (v : Bool) (j : Nat) : lp (setRb a b v s) j = lp s j := (rfl)
@[simp] theorem fwd_setRb (a b : Nat) (v : Bool) (j : Nat) : fwd (setRb a b v s) j = fwd s j := (rfl)
@[simp] theorem sw_setRb (a b : Nat) (v : Bool) (j : Nat) : sw (setRb a b v s) j = sw s j := (rfl)
@[simp] theorem arb_setRb (a b : Nat) (v : Bool) (j : Nat) : arb (setRb a b v s) j = arb s j := (rfl)
@[simp] theorem mon_setRb (a b : Nat) (v : Bool) (j : Nat) : mon (setRb a b v s) j = mon s j := (rfl)
@[simp] theorem tq_setRb (a b : Nat) (v : Bool) (j : Nat) : tq (setRb a b v s) j = tq s j := (rfl)
@[simp] theorem rslot_setRb (a b : Nat) (v : Bool) (j : Nat) : rslot (setRb a b v s) j = rslot s j := (rfl)
@[simp] theorem dma_setRb (a b : Nat) (v : Bool) (j : Nat) : dma (setRb a b v s) j = dma s j := (rfl)
@[simp] theorem stack_setRb (a b : Nat) (v : Bool) (j : Nat) : stack (setRb a b v s) j = stack s j := (rfl)
@[simp] theorem ms_setRb (a b : Nat) (v : Bool) (j : Nat) : ms (setRb a b v s) j = ms s j := (rfl)
@[simp] theorem ce_setRb (a b : Nat) (v : Bool) (j : Nat) : ce (setRb a b v s) j = ce s j := (rfl)
@[simp] theorem fi_setRb (a b : Nat) (v : Bool) (j : Nat) : fi (setRb a b v s) j = fi s j := (rfl)
@[simp] theorem lx_setRb (a b : Nat) (v : Bool) (j : Nat) : lx (setRb a b v s) j = lx s j := (rfl)
@[simp] theorem peers_setRb (a b : Nat) (v : Bool) (j : Nat) : peers (setRb a b v s) j = peers s j := (rfl)
@[simp] theorem memByte_setRb (a b : Nat) (v : Bool) (j : Nat) : memByte (setRb a b v s) j = memByte s j := (rfl)

/-! ### count -/

@[simp] theorem count_pending (a n : Nat) : (count a n s).pending = s.pending := (rfl)
@[simp] theorem count_regs (a n : Nat) : (count a n s).regs = s.regs := (rfl)
@[simp] theorem count_staged (a n : Nat) : (count a n s).staged = s.staged := (rfl)
@[simp] theorem count_hold (a n : Nat) : (count a n s).hold = s.hold := (rfl)
@[simp] theorem count_time (a n : Nat) : (count a n s).time = s.time := (rfl)
@[simp] theorem count_tq (a n : Nat) : (count a n s).tq = s.tq := (rfl)
@[simp] theorem count_log (a n : Nat) : (count a n s).log = s.log := (rfl)
@[simp] theorem count_mons (a n : Nat) : (count a n s).mons = s.mons := (rfl)
@[simp] theorem count_repairs (a n : Nat) : (count a n s).repairs = s.repairs := (rfl)
@[simp] theorem count_host (a n : Nat) : (count a n s).host = s.host := (rfl)
@[simp] theorem count_fuses (a n : Nat) : (count a n s).fuses = s.fuses := (rfl)
@[simp] theorem count_power (a n : Nat) : (count a n s).power = s.power := (rfl)
@[simp] theorem count_boot (a n : Nat) : (count a n s).boot = s.boot := (rfl)
@[simp] theorem count_sec (a n : Nat) : (count a n s).sec = s.sec := (rfl)
@[simp] theorem count_unit (a n : Nat) : (count a n s).unit = s.unit := (rfl)
@[simp] theorem count_links (a n : Nat) : (count a n s).links = s.links := (rfl)
@[simp] theorem count_fibers (a n : Nat) : (count a n s).fibers = s.fibers := (rfl)
@[simp] theorem count_rings (a n : Nat) : (count a n s).rings = s.rings := (rfl)
@[simp] theorem count_therm (a n : Nat) : (count a n s).therm = s.therm := (rfl)
@[simp] theorem count_lp (a n : Nat) : (count a n s).lp = s.lp := (rfl)
@[simp] theorem count_cal (a n : Nat) : (count a n s).cal = s.cal := (rfl)
@[simp] theorem count_fwd (a n : Nat) : (count a n s).fwd = s.fwd := (rfl)
@[simp] theorem count_sw (a n : Nat) : (count a n s).sw = s.sw := (rfl)
@[simp] theorem count_arbs (a n : Nat) : (count a n s).arbs = s.arbs := (rfl)
@[simp] theorem count_mem (a n : Nat) : (count a n s).mem = s.mem := (rfl)
@[simp] theorem count_igStacks (a n : Nat) : (count a n s).igStacks = s.igStacks := (rfl)
@[simp] theorem count_ms (a n : Nat) : (count a n s).ms = s.ms := (rfl)
@[simp] theorem count_ce (a n : Nat) : (count a n s).ce = s.ce := (rfl)
@[simp] theorem count_fi (a n : Nat) : (count a n s).fi = s.fi := (rfl)
@[simp] theorem count_lx (a n : Nat) : (count a n s).lx = s.lx := (rfl)
@[simp] theorem count_peers (a n : Nat) : (count a n s).peers = s.peers := (rfl)
@[simp] theorem count_descs (a n : Nat) : (count a n s).descs = s.descs := (rfl)
@[simp] theorem count_accCtr (a n : Nat) : (count a n s).accCtr = s.accCtr := (rfl)
@[simp] theorem count_pktCtr (a n : Nat) : (count a n s).pktCtr = s.pktCtr := (rfl)
@[simp] theorem count_out (a n : Nat) : (count a n s).out = s.out := (rfl)
@[simp] theorem count_freeCtr (a n : Nat) : (count a n s).freeCtr = s.freeCtr := (rfl)
@[simp] theorem reg_count (a n : Nat) (j : Nat) : reg (count a n s) j = reg s j := (rfl)
@[simp] theorem link_count (a n : Nat) (j : Nat) : link (count a n s) j = link s j := (rfl)
@[simp] theorem fiber_count (a n : Nat) (j : Nat) : fiber (count a n s) j = fiber s j := (rfl)
@[simp] theorem ring_count (a n : Nat) (j : Nat) : ring (count a n s) j = ring s j := (rfl)
@[simp] theorem therm_count (a n : Nat) (j : Nat) : therm (count a n s) j = therm s j := (rfl)
@[simp] theorem lp_count (a n : Nat) (j : Nat) : lp (count a n s) j = lp s j := (rfl)
@[simp] theorem fwd_count (a n : Nat) (j : Nat) : fwd (count a n s) j = fwd s j := (rfl)
@[simp] theorem sw_count (a n : Nat) (j : Nat) : sw (count a n s) j = sw s j := (rfl)
@[simp] theorem arb_count (a n : Nat) (j : Nat) : arb (count a n s) j = arb s j := (rfl)
@[simp] theorem mon_count (a n : Nat) (j : Nat) : mon (count a n s) j = mon s j := (rfl)
@[simp] theorem tq_count (a n : Nat) (j : Nat) : tq (count a n s) j = tq s j := (rfl)
@[simp] theorem rslot_count (a n : Nat) (j : Nat) : rslot (count a n s) j = rslot s j := (rfl)
@[simp] theorem dma_count (a n : Nat) (j : Nat) : dma (count a n s) j = dma s j := (rfl)
@[simp] theorem stack_count (a n : Nat) (j : Nat) : stack (count a n s) j = stack s j := (rfl)
@[simp] theorem ms_count (a n : Nat) (j : Nat) : ms (count a n s) j = ms s j := (rfl)
@[simp] theorem ce_count (a n : Nat) (j : Nat) : ce (count a n s) j = ce s j := (rfl)
@[simp] theorem fi_count (a n : Nat) (j : Nat) : fi (count a n s) j = fi s j := (rfl)
@[simp] theorem lx_count (a n : Nat) (j : Nat) : lx (count a n s) j = lx s j := (rfl)
@[simp] theorem peers_count (a n : Nat) (j : Nat) : peers (count a n s) j = peers s j := (rfl)
@[simp] theorem memByte_count (a n : Nat) (j : Nat) : memByte (count a n s) j = memByte s j := (rfl)

/-! ### count1 -/

@[simp] theorem count1_pending (a : Nat) : (count1 a s).pending = s.pending := (rfl)
@[simp] theorem count1_regs (a : Nat) : (count1 a s).regs = s.regs := (rfl)
@[simp] theorem count1_staged (a : Nat) : (count1 a s).staged = s.staged := (rfl)
@[simp] theorem count1_hold (a : Nat) : (count1 a s).hold = s.hold := (rfl)
@[simp] theorem count1_time (a : Nat) : (count1 a s).time = s.time := (rfl)
@[simp] theorem count1_tq (a : Nat) : (count1 a s).tq = s.tq := (rfl)
@[simp] theorem count1_log (a : Nat) : (count1 a s).log = s.log := (rfl)
@[simp] theorem count1_mons (a : Nat) : (count1 a s).mons = s.mons := (rfl)
@[simp] theorem count1_repairs (a : Nat) : (count1 a s).repairs = s.repairs := (rfl)
@[simp] theorem count1_host (a : Nat) : (count1 a s).host = s.host := (rfl)
@[simp] theorem count1_fuses (a : Nat) : (count1 a s).fuses = s.fuses := (rfl)
@[simp] theorem count1_power (a : Nat) : (count1 a s).power = s.power := (rfl)
@[simp] theorem count1_boot (a : Nat) : (count1 a s).boot = s.boot := (rfl)
@[simp] theorem count1_sec (a : Nat) : (count1 a s).sec = s.sec := (rfl)
@[simp] theorem count1_unit (a : Nat) : (count1 a s).unit = s.unit := (rfl)
@[simp] theorem count1_links (a : Nat) : (count1 a s).links = s.links := (rfl)
@[simp] theorem count1_fibers (a : Nat) : (count1 a s).fibers = s.fibers := (rfl)
@[simp] theorem count1_rings (a : Nat) : (count1 a s).rings = s.rings := (rfl)
@[simp] theorem count1_therm (a : Nat) : (count1 a s).therm = s.therm := (rfl)
@[simp] theorem count1_lp (a : Nat) : (count1 a s).lp = s.lp := (rfl)
@[simp] theorem count1_cal (a : Nat) : (count1 a s).cal = s.cal := (rfl)
@[simp] theorem count1_fwd (a : Nat) : (count1 a s).fwd = s.fwd := (rfl)
@[simp] theorem count1_sw (a : Nat) : (count1 a s).sw = s.sw := (rfl)
@[simp] theorem count1_arbs (a : Nat) : (count1 a s).arbs = s.arbs := (rfl)
@[simp] theorem count1_mem (a : Nat) : (count1 a s).mem = s.mem := (rfl)
@[simp] theorem count1_igStacks (a : Nat) : (count1 a s).igStacks = s.igStacks := (rfl)
@[simp] theorem count1_ms (a : Nat) : (count1 a s).ms = s.ms := (rfl)
@[simp] theorem count1_ce (a : Nat) : (count1 a s).ce = s.ce := (rfl)
@[simp] theorem count1_fi (a : Nat) : (count1 a s).fi = s.fi := (rfl)
@[simp] theorem count1_lx (a : Nat) : (count1 a s).lx = s.lx := (rfl)
@[simp] theorem count1_peers (a : Nat) : (count1 a s).peers = s.peers := (rfl)
@[simp] theorem count1_descs (a : Nat) : (count1 a s).descs = s.descs := (rfl)
@[simp] theorem count1_accCtr (a : Nat) : (count1 a s).accCtr = s.accCtr := (rfl)
@[simp] theorem count1_pktCtr (a : Nat) : (count1 a s).pktCtr = s.pktCtr := (rfl)
@[simp] theorem count1_out (a : Nat) : (count1 a s).out = s.out := (rfl)
@[simp] theorem count1_freeCtr (a : Nat) : (count1 a s).freeCtr = s.freeCtr := (rfl)
@[simp] theorem reg_count1 (a : Nat) (j : Nat) : reg (count1 a s) j = reg s j := (rfl)
@[simp] theorem link_count1 (a : Nat) (j : Nat) : link (count1 a s) j = link s j := (rfl)
@[simp] theorem fiber_count1 (a : Nat) (j : Nat) : fiber (count1 a s) j = fiber s j := (rfl)
@[simp] theorem ring_count1 (a : Nat) (j : Nat) : ring (count1 a s) j = ring s j := (rfl)
@[simp] theorem therm_count1 (a : Nat) (j : Nat) : therm (count1 a s) j = therm s j := (rfl)
@[simp] theorem lp_count1 (a : Nat) (j : Nat) : lp (count1 a s) j = lp s j := (rfl)
@[simp] theorem fwd_count1 (a : Nat) (j : Nat) : fwd (count1 a s) j = fwd s j := (rfl)
@[simp] theorem sw_count1 (a : Nat) (j : Nat) : sw (count1 a s) j = sw s j := (rfl)
@[simp] theorem arb_count1 (a : Nat) (j : Nat) : arb (count1 a s) j = arb s j := (rfl)
@[simp] theorem mon_count1 (a : Nat) (j : Nat) : mon (count1 a s) j = mon s j := (rfl)
@[simp] theorem tq_count1 (a : Nat) (j : Nat) : tq (count1 a s) j = tq s j := (rfl)
@[simp] theorem rslot_count1 (a : Nat) (j : Nat) : rslot (count1 a s) j = rslot s j := (rfl)
@[simp] theorem dma_count1 (a : Nat) (j : Nat) : dma (count1 a s) j = dma s j := (rfl)
@[simp] theorem stack_count1 (a : Nat) (j : Nat) : stack (count1 a s) j = stack s j := (rfl)
@[simp] theorem ms_count1 (a : Nat) (j : Nat) : ms (count1 a s) j = ms s j := (rfl)
@[simp] theorem ce_count1 (a : Nat) (j : Nat) : ce (count1 a s) j = ce s j := (rfl)
@[simp] theorem fi_count1 (a : Nat) (j : Nat) : fi (count1 a s) j = fi s j := (rfl)
@[simp] theorem lx_count1 (a : Nat) (j : Nat) : lx (count1 a s) j = lx s j := (rfl)
@[simp] theorem peers_count1 (a : Nat) (j : Nat) : peers (count1 a s) j = peers s j := (rfl)
@[simp] theorem memByte_count1 (a : Nat) (j : Nat) : memByte (count1 a s) j = memByte s j := (rfl)

/-! ### emit -/

@[simp] theorem emit_pending (e : Emit) : (emit e s).pending = s.pending := (rfl)
@[simp] theorem emit_regs (e : Emit) : (emit e s).regs = s.regs := (rfl)
@[simp] theorem emit_staged (e : Emit) : (emit e s).staged = s.staged := (rfl)
@[simp] theorem emit_ctr (e : Emit) : (emit e s).ctr = s.ctr := (rfl)
@[simp] theorem emit_hold (e : Emit) : (emit e s).hold = s.hold := (rfl)
@[simp] theorem emit_time (e : Emit) : (emit e s).time = s.time := (rfl)
@[simp] theorem emit_tq (e : Emit) : (emit e s).tq = s.tq := (rfl)
@[simp] theorem emit_log (e : Emit) : (emit e s).log = s.log := (rfl)
@[simp] theorem emit_mons (e : Emit) : (emit e s).mons = s.mons := (rfl)
@[simp] theorem emit_repairs (e : Emit) : (emit e s).repairs = s.repairs := (rfl)
@[simp] theorem emit_host (e : Emit) : (emit e s).host = s.host := (rfl)
@[simp] theorem emit_fuses (e : Emit) : (emit e s).fuses = s.fuses := (rfl)
@[simp] theorem emit_power (e : Emit) : (emit e s).power = s.power := (rfl)
@[simp] theorem emit_boot (e : Emit) : (emit e s).boot = s.boot := (rfl)
@[simp] theorem emit_sec (e : Emit) : (emit e s).sec = s.sec := (rfl)
@[simp] theorem emit_unit (e : Emit) : (emit e s).unit = s.unit := (rfl)
@[simp] theorem emit_links (e : Emit) : (emit e s).links = s.links := (rfl)
@[simp] theorem emit_fibers (e : Emit) : (emit e s).fibers = s.fibers := (rfl)
@[simp] theorem emit_rings (e : Emit) : (emit e s).rings = s.rings := (rfl)
@[simp] theorem emit_therm (e : Emit) : (emit e s).therm = s.therm := (rfl)
@[simp] theorem emit_lp (e : Emit) : (emit e s).lp = s.lp := (rfl)
@[simp] theorem emit_cal (e : Emit) : (emit e s).cal = s.cal := (rfl)
@[simp] theorem emit_fwd (e : Emit) : (emit e s).fwd = s.fwd := (rfl)
@[simp] theorem emit_sw (e : Emit) : (emit e s).sw = s.sw := (rfl)
@[simp] theorem emit_arbs (e : Emit) : (emit e s).arbs = s.arbs := (rfl)
@[simp] theorem emit_mem (e : Emit) : (emit e s).mem = s.mem := (rfl)
@[simp] theorem emit_igStacks (e : Emit) : (emit e s).igStacks = s.igStacks := (rfl)
@[simp] theorem emit_ms (e : Emit) : (emit e s).ms = s.ms := (rfl)
@[simp] theorem emit_ce (e : Emit) : (emit e s).ce = s.ce := (rfl)
@[simp] theorem emit_fi (e : Emit) : (emit e s).fi = s.fi := (rfl)
@[simp] theorem emit_lx (e : Emit) : (emit e s).lx = s.lx := (rfl)
@[simp] theorem emit_peers (e : Emit) : (emit e s).peers = s.peers := (rfl)
@[simp] theorem emit_descs (e : Emit) : (emit e s).descs = s.descs := (rfl)
@[simp] theorem emit_accCtr (e : Emit) : (emit e s).accCtr = s.accCtr := (rfl)
@[simp] theorem emit_pktCtr (e : Emit) : (emit e s).pktCtr = s.pktCtr := (rfl)
@[simp] theorem emit_freeCtr (e : Emit) : (emit e s).freeCtr = s.freeCtr := (rfl)
@[simp] theorem reg_emit (e : Emit) (j : Nat) : reg (emit e s) j = reg s j := (rfl)
@[simp] theorem ctr_emit (e : Emit) (j : Nat) : ctr (emit e s) j = ctr s j := (rfl)
@[simp] theorem link_emit (e : Emit) (j : Nat) : link (emit e s) j = link s j := (rfl)
@[simp] theorem fiber_emit (e : Emit) (j : Nat) : fiber (emit e s) j = fiber s j := (rfl)
@[simp] theorem ring_emit (e : Emit) (j : Nat) : ring (emit e s) j = ring s j := (rfl)
@[simp] theorem therm_emit (e : Emit) (j : Nat) : therm (emit e s) j = therm s j := (rfl)
@[simp] theorem lp_emit (e : Emit) (j : Nat) : lp (emit e s) j = lp s j := (rfl)
@[simp] theorem fwd_emit (e : Emit) (j : Nat) : fwd (emit e s) j = fwd s j := (rfl)
@[simp] theorem sw_emit (e : Emit) (j : Nat) : sw (emit e s) j = sw s j := (rfl)
@[simp] theorem arb_emit (e : Emit) (j : Nat) : arb (emit e s) j = arb s j := (rfl)
@[simp] theorem mon_emit (e : Emit) (j : Nat) : mon (emit e s) j = mon s j := (rfl)
@[simp] theorem tq_emit (e : Emit) (j : Nat) : tq (emit e s) j = tq s j := (rfl)
@[simp] theorem rslot_emit (e : Emit) (j : Nat) : rslot (emit e s) j = rslot s j := (rfl)
@[simp] theorem dma_emit (e : Emit) (j : Nat) : dma (emit e s) j = dma s j := (rfl)
@[simp] theorem stack_emit (e : Emit) (j : Nat) : stack (emit e s) j = stack s j := (rfl)
@[simp] theorem ms_emit (e : Emit) (j : Nat) : ms (emit e s) j = ms s j := (rfl)
@[simp] theorem ce_emit (e : Emit) (j : Nat) : ce (emit e s) j = ce s j := (rfl)
@[simp] theorem fi_emit (e : Emit) (j : Nat) : fi (emit e s) j = fi s j := (rfl)
@[simp] theorem lx_emit (e : Emit) (j : Nat) : lx (emit e s) j = lx s j := (rfl)
@[simp] theorem peers_emit (e : Emit) (j : Nat) : peers (emit e s) j = peers s j := (rfl)
@[simp] theorem memByte_emit (e : Emit) (j : Nat) : memByte (emit e s) j = memByte s j := (rfl)

/-! ### setLink -/

@[simp] theorem setLink_pending (k : Nat) (v : LinkSt) : (setLink k v s).pending = s.pending := (rfl)
@[simp] theorem setLink_regs (k : Nat) (v : LinkSt) : (setLink k v s).regs = s.regs := (rfl)
@[simp] theorem setLink_staged (k : Nat) (v : LinkSt) : (setLink k v s).staged = s.staged := (rfl)
@[simp] theorem setLink_ctr (k : Nat) (v : LinkSt) : (setLink k v s).ctr = s.ctr := (rfl)
@[simp] theorem setLink_hold (k : Nat) (v : LinkSt) : (setLink k v s).hold = s.hold := (rfl)
@[simp] theorem setLink_time (k : Nat) (v : LinkSt) : (setLink k v s).time = s.time := (rfl)
@[simp] theorem setLink_tq (k : Nat) (v : LinkSt) : (setLink k v s).tq = s.tq := (rfl)
@[simp] theorem setLink_log (k : Nat) (v : LinkSt) : (setLink k v s).log = s.log := (rfl)
@[simp] theorem setLink_mons (k : Nat) (v : LinkSt) : (setLink k v s).mons = s.mons := (rfl)
@[simp] theorem setLink_repairs (k : Nat) (v : LinkSt) : (setLink k v s).repairs = s.repairs := (rfl)
@[simp] theorem setLink_host (k : Nat) (v : LinkSt) : (setLink k v s).host = s.host := (rfl)
@[simp] theorem setLink_fuses (k : Nat) (v : LinkSt) : (setLink k v s).fuses = s.fuses := (rfl)
@[simp] theorem setLink_power (k : Nat) (v : LinkSt) : (setLink k v s).power = s.power := (rfl)
@[simp] theorem setLink_boot (k : Nat) (v : LinkSt) : (setLink k v s).boot = s.boot := (rfl)
@[simp] theorem setLink_sec (k : Nat) (v : LinkSt) : (setLink k v s).sec = s.sec := (rfl)
@[simp] theorem setLink_unit (k : Nat) (v : LinkSt) : (setLink k v s).unit = s.unit := (rfl)
@[simp] theorem setLink_fibers (k : Nat) (v : LinkSt) : (setLink k v s).fibers = s.fibers := (rfl)
@[simp] theorem setLink_rings (k : Nat) (v : LinkSt) : (setLink k v s).rings = s.rings := (rfl)
@[simp] theorem setLink_therm (k : Nat) (v : LinkSt) : (setLink k v s).therm = s.therm := (rfl)
@[simp] theorem setLink_lp (k : Nat) (v : LinkSt) : (setLink k v s).lp = s.lp := (rfl)
@[simp] theorem setLink_cal (k : Nat) (v : LinkSt) : (setLink k v s).cal = s.cal := (rfl)
@[simp] theorem setLink_fwd (k : Nat) (v : LinkSt) : (setLink k v s).fwd = s.fwd := (rfl)
@[simp] theorem setLink_sw (k : Nat) (v : LinkSt) : (setLink k v s).sw = s.sw := (rfl)
@[simp] theorem setLink_arbs (k : Nat) (v : LinkSt) : (setLink k v s).arbs = s.arbs := (rfl)
@[simp] theorem setLink_mem (k : Nat) (v : LinkSt) : (setLink k v s).mem = s.mem := (rfl)
@[simp] theorem setLink_igStacks (k : Nat) (v : LinkSt) : (setLink k v s).igStacks = s.igStacks := (rfl)
@[simp] theorem setLink_ms (k : Nat) (v : LinkSt) : (setLink k v s).ms = s.ms := (rfl)
@[simp] theorem setLink_ce (k : Nat) (v : LinkSt) : (setLink k v s).ce = s.ce := (rfl)
@[simp] theorem setLink_fi (k : Nat) (v : LinkSt) : (setLink k v s).fi = s.fi := (rfl)
@[simp] theorem setLink_lx (k : Nat) (v : LinkSt) : (setLink k v s).lx = s.lx := (rfl)
@[simp] theorem setLink_peers (k : Nat) (v : LinkSt) : (setLink k v s).peers = s.peers := (rfl)
@[simp] theorem setLink_descs (k : Nat) (v : LinkSt) : (setLink k v s).descs = s.descs := (rfl)
@[simp] theorem setLink_accCtr (k : Nat) (v : LinkSt) : (setLink k v s).accCtr = s.accCtr := (rfl)
@[simp] theorem setLink_pktCtr (k : Nat) (v : LinkSt) : (setLink k v s).pktCtr = s.pktCtr := (rfl)
@[simp] theorem setLink_out (k : Nat) (v : LinkSt) : (setLink k v s).out = s.out := (rfl)
@[simp] theorem setLink_freeCtr (k : Nat) (v : LinkSt) : (setLink k v s).freeCtr = s.freeCtr := (rfl)
@[simp] theorem reg_setLink (k : Nat) (v : LinkSt) (j : Nat) : reg (setLink k v s) j = reg s j := (rfl)
@[simp] theorem ctr_setLink (k : Nat) (v : LinkSt) (j : Nat) : ctr (setLink k v s) j = ctr s j := (rfl)
@[simp] theorem fiber_setLink (k : Nat) (v : LinkSt) (j : Nat) : fiber (setLink k v s) j = fiber s j := (rfl)
@[simp] theorem ring_setLink (k : Nat) (v : LinkSt) (j : Nat) : ring (setLink k v s) j = ring s j := (rfl)
@[simp] theorem therm_setLink (k : Nat) (v : LinkSt) (j : Nat) : therm (setLink k v s) j = therm s j := (rfl)
@[simp] theorem lp_setLink (k : Nat) (v : LinkSt) (j : Nat) : lp (setLink k v s) j = lp s j := (rfl)
@[simp] theorem fwd_setLink (k : Nat) (v : LinkSt) (j : Nat) : fwd (setLink k v s) j = fwd s j := (rfl)
@[simp] theorem sw_setLink (k : Nat) (v : LinkSt) (j : Nat) : sw (setLink k v s) j = sw s j := (rfl)
@[simp] theorem arb_setLink (k : Nat) (v : LinkSt) (j : Nat) : arb (setLink k v s) j = arb s j := (rfl)
@[simp] theorem mon_setLink (k : Nat) (v : LinkSt) (j : Nat) : mon (setLink k v s) j = mon s j := (rfl)
@[simp] theorem tq_setLink (k : Nat) (v : LinkSt) (j : Nat) : tq (setLink k v s) j = tq s j := (rfl)
@[simp] theorem rslot_setLink (k : Nat) (v : LinkSt) (j : Nat) : rslot (setLink k v s) j = rslot s j := (rfl)
@[simp] theorem dma_setLink (k : Nat) (v : LinkSt) (j : Nat) : dma (setLink k v s) j = dma s j := (rfl)
@[simp] theorem stack_setLink (k : Nat) (v : LinkSt) (j : Nat) : stack (setLink k v s) j = stack s j := (rfl)
@[simp] theorem ms_setLink (k : Nat) (v : LinkSt) (j : Nat) : ms (setLink k v s) j = ms s j := (rfl)
@[simp] theorem ce_setLink (k : Nat) (v : LinkSt) (j : Nat) : ce (setLink k v s) j = ce s j := (rfl)
@[simp] theorem fi_setLink (k : Nat) (v : LinkSt) (j : Nat) : fi (setLink k v s) j = fi s j := (rfl)
@[simp] theorem lx_setLink (k : Nat) (v : LinkSt) (j : Nat) : lx (setLink k v s) j = lx s j := (rfl)
@[simp] theorem peers_setLink (k : Nat) (v : LinkSt) (j : Nat) : peers (setLink k v s) j = peers s j := (rfl)
@[simp] theorem memByte_setLink (k : Nat) (v : LinkSt) (j : Nat) : memByte (setLink k v s) j = memByte s j := (rfl)

/-! ### setFiber -/

@[simp] theorem setFiber_pending (k : Nat) (v : FiberSt) : (setFiber k v s).pending = s.pending := (rfl)
@[simp] theorem setFiber_regs (k : Nat) (v : FiberSt) : (setFiber k v s).regs = s.regs := (rfl)
@[simp] theorem setFiber_staged (k : Nat) (v : FiberSt) : (setFiber k v s).staged = s.staged := (rfl)
@[simp] theorem setFiber_ctr (k : Nat) (v : FiberSt) : (setFiber k v s).ctr = s.ctr := (rfl)
@[simp] theorem setFiber_hold (k : Nat) (v : FiberSt) : (setFiber k v s).hold = s.hold := (rfl)
@[simp] theorem setFiber_time (k : Nat) (v : FiberSt) : (setFiber k v s).time = s.time := (rfl)
@[simp] theorem setFiber_tq (k : Nat) (v : FiberSt) : (setFiber k v s).tq = s.tq := (rfl)
@[simp] theorem setFiber_log (k : Nat) (v : FiberSt) : (setFiber k v s).log = s.log := (rfl)
@[simp] theorem setFiber_mons (k : Nat) (v : FiberSt) : (setFiber k v s).mons = s.mons := (rfl)
@[simp] theorem setFiber_repairs (k : Nat) (v : FiberSt) : (setFiber k v s).repairs = s.repairs := (rfl)
@[simp] theorem setFiber_host (k : Nat) (v : FiberSt) : (setFiber k v s).host = s.host := (rfl)
@[simp] theorem setFiber_fuses (k : Nat) (v : FiberSt) : (setFiber k v s).fuses = s.fuses := (rfl)
@[simp] theorem setFiber_power (k : Nat) (v : FiberSt) : (setFiber k v s).power = s.power := (rfl)
@[simp] theorem setFiber_boot (k : Nat) (v : FiberSt) : (setFiber k v s).boot = s.boot := (rfl)
@[simp] theorem setFiber_sec (k : Nat) (v : FiberSt) : (setFiber k v s).sec = s.sec := (rfl)
@[simp] theorem setFiber_unit (k : Nat) (v : FiberSt) : (setFiber k v s).unit = s.unit := (rfl)
@[simp] theorem setFiber_links (k : Nat) (v : FiberSt) : (setFiber k v s).links = s.links := (rfl)
@[simp] theorem setFiber_rings (k : Nat) (v : FiberSt) : (setFiber k v s).rings = s.rings := (rfl)
@[simp] theorem setFiber_therm (k : Nat) (v : FiberSt) : (setFiber k v s).therm = s.therm := (rfl)
@[simp] theorem setFiber_lp (k : Nat) (v : FiberSt) : (setFiber k v s).lp = s.lp := (rfl)
@[simp] theorem setFiber_cal (k : Nat) (v : FiberSt) : (setFiber k v s).cal = s.cal := (rfl)
@[simp] theorem setFiber_fwd (k : Nat) (v : FiberSt) : (setFiber k v s).fwd = s.fwd := (rfl)
@[simp] theorem setFiber_sw (k : Nat) (v : FiberSt) : (setFiber k v s).sw = s.sw := (rfl)
@[simp] theorem setFiber_arbs (k : Nat) (v : FiberSt) : (setFiber k v s).arbs = s.arbs := (rfl)
@[simp] theorem setFiber_mem (k : Nat) (v : FiberSt) : (setFiber k v s).mem = s.mem := (rfl)
@[simp] theorem setFiber_igStacks (k : Nat) (v : FiberSt) : (setFiber k v s).igStacks = s.igStacks := (rfl)
@[simp] theorem setFiber_ms (k : Nat) (v : FiberSt) : (setFiber k v s).ms = s.ms := (rfl)
@[simp] theorem setFiber_ce (k : Nat) (v : FiberSt) : (setFiber k v s).ce = s.ce := (rfl)
@[simp] theorem setFiber_fi (k : Nat) (v : FiberSt) : (setFiber k v s).fi = s.fi := (rfl)
@[simp] theorem setFiber_lx (k : Nat) (v : FiberSt) : (setFiber k v s).lx = s.lx := (rfl)
@[simp] theorem setFiber_peers (k : Nat) (v : FiberSt) : (setFiber k v s).peers = s.peers := (rfl)
@[simp] theorem setFiber_descs (k : Nat) (v : FiberSt) : (setFiber k v s).descs = s.descs := (rfl)
@[simp] theorem setFiber_accCtr (k : Nat) (v : FiberSt) : (setFiber k v s).accCtr = s.accCtr := (rfl)
@[simp] theorem setFiber_pktCtr (k : Nat) (v : FiberSt) : (setFiber k v s).pktCtr = s.pktCtr := (rfl)
@[simp] theorem setFiber_out (k : Nat) (v : FiberSt) : (setFiber k v s).out = s.out := (rfl)
@[simp] theorem setFiber_freeCtr (k : Nat) (v : FiberSt) : (setFiber k v s).freeCtr = s.freeCtr := (rfl)
@[simp] theorem reg_setFiber (k : Nat) (v : FiberSt) (j : Nat) : reg (setFiber k v s) j = reg s j := (rfl)
@[simp] theorem ctr_setFiber (k : Nat) (v : FiberSt) (j : Nat) : ctr (setFiber k v s) j = ctr s j := (rfl)
@[simp] theorem link_setFiber (k : Nat) (v : FiberSt) (j : Nat) : link (setFiber k v s) j = link s j := (rfl)
@[simp] theorem ring_setFiber (k : Nat) (v : FiberSt) (j : Nat) : ring (setFiber k v s) j = ring s j := (rfl)
@[simp] theorem therm_setFiber (k : Nat) (v : FiberSt) (j : Nat) : therm (setFiber k v s) j = therm s j := (rfl)
@[simp] theorem lp_setFiber (k : Nat) (v : FiberSt) (j : Nat) : lp (setFiber k v s) j = lp s j := (rfl)
@[simp] theorem fwd_setFiber (k : Nat) (v : FiberSt) (j : Nat) : fwd (setFiber k v s) j = fwd s j := (rfl)
@[simp] theorem sw_setFiber (k : Nat) (v : FiberSt) (j : Nat) : sw (setFiber k v s) j = sw s j := (rfl)
@[simp] theorem arb_setFiber (k : Nat) (v : FiberSt) (j : Nat) : arb (setFiber k v s) j = arb s j := (rfl)
@[simp] theorem mon_setFiber (k : Nat) (v : FiberSt) (j : Nat) : mon (setFiber k v s) j = mon s j := (rfl)
@[simp] theorem tq_setFiber (k : Nat) (v : FiberSt) (j : Nat) : tq (setFiber k v s) j = tq s j := (rfl)
@[simp] theorem rslot_setFiber (k : Nat) (v : FiberSt) (j : Nat) : rslot (setFiber k v s) j = rslot s j := (rfl)
@[simp] theorem dma_setFiber (k : Nat) (v : FiberSt) (j : Nat) : dma (setFiber k v s) j = dma s j := (rfl)
@[simp] theorem stack_setFiber (k : Nat) (v : FiberSt) (j : Nat) : stack (setFiber k v s) j = stack s j := (rfl)
@[simp] theorem ms_setFiber (k : Nat) (v : FiberSt) (j : Nat) : ms (setFiber k v s) j = ms s j := (rfl)
@[simp] theorem ce_setFiber (k : Nat) (v : FiberSt) (j : Nat) : ce (setFiber k v s) j = ce s j := (rfl)
@[simp] theorem fi_setFiber (k : Nat) (v : FiberSt) (j : Nat) : fi (setFiber k v s) j = fi s j := (rfl)
@[simp] theorem lx_setFiber (k : Nat) (v : FiberSt) (j : Nat) : lx (setFiber k v s) j = lx s j := (rfl)
@[simp] theorem peers_setFiber (k : Nat) (v : FiberSt) (j : Nat) : peers (setFiber k v s) j = peers s j := (rfl)
@[simp] theorem memByte_setFiber (k : Nat) (v : FiberSt) (j : Nat) : memByte (setFiber k v s) j = memByte s j := (rfl)

/-! ### setRing -/

@[simp] theorem setRing_pending (k : Nat) (v : RingSt) : (setRing k v s).pending = s.pending := (rfl)
@[simp] theorem setRing_regs (k : Nat) (v : RingSt) : (setRing k v s).regs = s.regs := (rfl)
@[simp] theorem setRing_staged (k : Nat) (v : RingSt) : (setRing k v s).staged = s.staged := (rfl)
@[simp] theorem setRing_ctr (k : Nat) (v : RingSt) : (setRing k v s).ctr = s.ctr := (rfl)
@[simp] theorem setRing_hold (k : Nat) (v : RingSt) : (setRing k v s).hold = s.hold := (rfl)
@[simp] theorem setRing_time (k : Nat) (v : RingSt) : (setRing k v s).time = s.time := (rfl)
@[simp] theorem setRing_tq (k : Nat) (v : RingSt) : (setRing k v s).tq = s.tq := (rfl)
@[simp] theorem setRing_log (k : Nat) (v : RingSt) : (setRing k v s).log = s.log := (rfl)
@[simp] theorem setRing_mons (k : Nat) (v : RingSt) : (setRing k v s).mons = s.mons := (rfl)
@[simp] theorem setRing_repairs (k : Nat) (v : RingSt) : (setRing k v s).repairs = s.repairs := (rfl)
@[simp] theorem setRing_host (k : Nat) (v : RingSt) : (setRing k v s).host = s.host := (rfl)
@[simp] theorem setRing_fuses (k : Nat) (v : RingSt) : (setRing k v s).fuses = s.fuses := (rfl)
@[simp] theorem setRing_power (k : Nat) (v : RingSt) : (setRing k v s).power = s.power := (rfl)
@[simp] theorem setRing_boot (k : Nat) (v : RingSt) : (setRing k v s).boot = s.boot := (rfl)
@[simp] theorem setRing_sec (k : Nat) (v : RingSt) : (setRing k v s).sec = s.sec := (rfl)
@[simp] theorem setRing_unit (k : Nat) (v : RingSt) : (setRing k v s).unit = s.unit := (rfl)
@[simp] theorem setRing_links (k : Nat) (v : RingSt) : (setRing k v s).links = s.links := (rfl)
@[simp] theorem setRing_fibers (k : Nat) (v : RingSt) : (setRing k v s).fibers = s.fibers := (rfl)
@[simp] theorem setRing_therm (k : Nat) (v : RingSt) : (setRing k v s).therm = s.therm := (rfl)
@[simp] theorem setRing_lp (k : Nat) (v : RingSt) : (setRing k v s).lp = s.lp := (rfl)
@[simp] theorem setRing_cal (k : Nat) (v : RingSt) : (setRing k v s).cal = s.cal := (rfl)
@[simp] theorem setRing_fwd (k : Nat) (v : RingSt) : (setRing k v s).fwd = s.fwd := (rfl)
@[simp] theorem setRing_sw (k : Nat) (v : RingSt) : (setRing k v s).sw = s.sw := (rfl)
@[simp] theorem setRing_arbs (k : Nat) (v : RingSt) : (setRing k v s).arbs = s.arbs := (rfl)
@[simp] theorem setRing_mem (k : Nat) (v : RingSt) : (setRing k v s).mem = s.mem := (rfl)
@[simp] theorem setRing_igStacks (k : Nat) (v : RingSt) : (setRing k v s).igStacks = s.igStacks := (rfl)
@[simp] theorem setRing_ms (k : Nat) (v : RingSt) : (setRing k v s).ms = s.ms := (rfl)
@[simp] theorem setRing_ce (k : Nat) (v : RingSt) : (setRing k v s).ce = s.ce := (rfl)
@[simp] theorem setRing_fi (k : Nat) (v : RingSt) : (setRing k v s).fi = s.fi := (rfl)
@[simp] theorem setRing_lx (k : Nat) (v : RingSt) : (setRing k v s).lx = s.lx := (rfl)
@[simp] theorem setRing_peers (k : Nat) (v : RingSt) : (setRing k v s).peers = s.peers := (rfl)
@[simp] theorem setRing_descs (k : Nat) (v : RingSt) : (setRing k v s).descs = s.descs := (rfl)
@[simp] theorem setRing_accCtr (k : Nat) (v : RingSt) : (setRing k v s).accCtr = s.accCtr := (rfl)
@[simp] theorem setRing_pktCtr (k : Nat) (v : RingSt) : (setRing k v s).pktCtr = s.pktCtr := (rfl)
@[simp] theorem setRing_out (k : Nat) (v : RingSt) : (setRing k v s).out = s.out := (rfl)
@[simp] theorem setRing_freeCtr (k : Nat) (v : RingSt) : (setRing k v s).freeCtr = s.freeCtr := (rfl)
@[simp] theorem reg_setRing (k : Nat) (v : RingSt) (j : Nat) : reg (setRing k v s) j = reg s j := (rfl)
@[simp] theorem ctr_setRing (k : Nat) (v : RingSt) (j : Nat) : ctr (setRing k v s) j = ctr s j := (rfl)
@[simp] theorem link_setRing (k : Nat) (v : RingSt) (j : Nat) : link (setRing k v s) j = link s j := (rfl)
@[simp] theorem fiber_setRing (k : Nat) (v : RingSt) (j : Nat) : fiber (setRing k v s) j = fiber s j := (rfl)
@[simp] theorem therm_setRing (k : Nat) (v : RingSt) (j : Nat) : therm (setRing k v s) j = therm s j := (rfl)
@[simp] theorem lp_setRing (k : Nat) (v : RingSt) (j : Nat) : lp (setRing k v s) j = lp s j := (rfl)
@[simp] theorem fwd_setRing (k : Nat) (v : RingSt) (j : Nat) : fwd (setRing k v s) j = fwd s j := (rfl)
@[simp] theorem sw_setRing (k : Nat) (v : RingSt) (j : Nat) : sw (setRing k v s) j = sw s j := (rfl)
@[simp] theorem arb_setRing (k : Nat) (v : RingSt) (j : Nat) : arb (setRing k v s) j = arb s j := (rfl)
@[simp] theorem mon_setRing (k : Nat) (v : RingSt) (j : Nat) : mon (setRing k v s) j = mon s j := (rfl)
@[simp] theorem tq_setRing (k : Nat) (v : RingSt) (j : Nat) : tq (setRing k v s) j = tq s j := (rfl)
@[simp] theorem rslot_setRing (k : Nat) (v : RingSt) (j : Nat) : rslot (setRing k v s) j = rslot s j := (rfl)
@[simp] theorem dma_setRing (k : Nat) (v : RingSt) (j : Nat) : dma (setRing k v s) j = dma s j := (rfl)
@[simp] theorem stack_setRing (k : Nat) (v : RingSt) (j : Nat) : stack (setRing k v s) j = stack s j := (rfl)
@[simp] theorem ms_setRing (k : Nat) (v : RingSt) (j : Nat) : ms (setRing k v s) j = ms s j := (rfl)
@[simp] theorem ce_setRing (k : Nat) (v : RingSt) (j : Nat) : ce (setRing k v s) j = ce s j := (rfl)
@[simp] theorem fi_setRing (k : Nat) (v : RingSt) (j : Nat) : fi (setRing k v s) j = fi s j := (rfl)
@[simp] theorem lx_setRing (k : Nat) (v : RingSt) (j : Nat) : lx (setRing k v s) j = lx s j := (rfl)
@[simp] theorem peers_setRing (k : Nat) (v : RingSt) (j : Nat) : peers (setRing k v s) j = peers s j := (rfl)
@[simp] theorem memByte_setRing (k : Nat) (v : RingSt) (j : Nat) : memByte (setRing k v s) j = memByte s j := (rfl)

/-! ### setTherm -/

@[simp] theorem setTherm_pending (k : Nat) (v : ThermSt) : (setTherm k v s).pending = s.pending := (rfl)
@[simp] theorem setTherm_regs (k : Nat) (v : ThermSt) : (setTherm k v s).regs = s.regs := (rfl)
@[simp] theorem setTherm_staged (k : Nat) (v : ThermSt) : (setTherm k v s).staged = s.staged := (rfl)
@[simp] theorem setTherm_ctr (k : Nat) (v : ThermSt) : (setTherm k v s).ctr = s.ctr := (rfl)
@[simp] theorem setTherm_hold (k : Nat) (v : ThermSt) : (setTherm k v s).hold = s.hold := (rfl)
@[simp] theorem setTherm_time (k : Nat) (v : ThermSt) : (setTherm k v s).time = s.time := (rfl)
@[simp] theorem setTherm_tq (k : Nat) (v : ThermSt) : (setTherm k v s).tq = s.tq := (rfl)
@[simp] theorem setTherm_log (k : Nat) (v : ThermSt) : (setTherm k v s).log = s.log := (rfl)
@[simp] theorem setTherm_mons (k : Nat) (v : ThermSt) : (setTherm k v s).mons = s.mons := (rfl)
@[simp] theorem setTherm_repairs (k : Nat) (v : ThermSt) : (setTherm k v s).repairs = s.repairs := (rfl)
@[simp] theorem setTherm_host (k : Nat) (v : ThermSt) : (setTherm k v s).host = s.host := (rfl)
@[simp] theorem setTherm_fuses (k : Nat) (v : ThermSt) : (setTherm k v s).fuses = s.fuses := (rfl)
@[simp] theorem setTherm_power (k : Nat) (v : ThermSt) : (setTherm k v s).power = s.power := (rfl)
@[simp] theorem setTherm_boot (k : Nat) (v : ThermSt) : (setTherm k v s).boot = s.boot := (rfl)
@[simp] theorem setTherm_sec (k : Nat) (v : ThermSt) : (setTherm k v s).sec = s.sec := (rfl)
@[simp] theorem setTherm_unit (k : Nat) (v : ThermSt) : (setTherm k v s).unit = s.unit := (rfl)
@[simp] theorem setTherm_links (k : Nat) (v : ThermSt) : (setTherm k v s).links = s.links := (rfl)
@[simp] theorem setTherm_fibers (k : Nat) (v : ThermSt) : (setTherm k v s).fibers = s.fibers := (rfl)
@[simp] theorem setTherm_rings (k : Nat) (v : ThermSt) : (setTherm k v s).rings = s.rings := (rfl)
@[simp] theorem setTherm_lp (k : Nat) (v : ThermSt) : (setTherm k v s).lp = s.lp := (rfl)
@[simp] theorem setTherm_cal (k : Nat) (v : ThermSt) : (setTherm k v s).cal = s.cal := (rfl)
@[simp] theorem setTherm_fwd (k : Nat) (v : ThermSt) : (setTherm k v s).fwd = s.fwd := (rfl)
@[simp] theorem setTherm_sw (k : Nat) (v : ThermSt) : (setTherm k v s).sw = s.sw := (rfl)
@[simp] theorem setTherm_arbs (k : Nat) (v : ThermSt) : (setTherm k v s).arbs = s.arbs := (rfl)
@[simp] theorem setTherm_mem (k : Nat) (v : ThermSt) : (setTherm k v s).mem = s.mem := (rfl)
@[simp] theorem setTherm_igStacks (k : Nat) (v : ThermSt) : (setTherm k v s).igStacks = s.igStacks := (rfl)
@[simp] theorem setTherm_ms (k : Nat) (v : ThermSt) : (setTherm k v s).ms = s.ms := (rfl)
@[simp] theorem setTherm_ce (k : Nat) (v : ThermSt) : (setTherm k v s).ce = s.ce := (rfl)
@[simp] theorem setTherm_fi (k : Nat) (v : ThermSt) : (setTherm k v s).fi = s.fi := (rfl)
@[simp] theorem setTherm_lx (k : Nat) (v : ThermSt) : (setTherm k v s).lx = s.lx := (rfl)
@[simp] theorem setTherm_peers (k : Nat) (v : ThermSt) : (setTherm k v s).peers = s.peers := (rfl)
@[simp] theorem setTherm_descs (k : Nat) (v : ThermSt) : (setTherm k v s).descs = s.descs := (rfl)
@[simp] theorem setTherm_accCtr (k : Nat) (v : ThermSt) : (setTherm k v s).accCtr = s.accCtr := (rfl)
@[simp] theorem setTherm_pktCtr (k : Nat) (v : ThermSt) : (setTherm k v s).pktCtr = s.pktCtr := (rfl)
@[simp] theorem setTherm_out (k : Nat) (v : ThermSt) : (setTherm k v s).out = s.out := (rfl)
@[simp] theorem setTherm_freeCtr (k : Nat) (v : ThermSt) : (setTherm k v s).freeCtr = s.freeCtr := (rfl)
@[simp] theorem reg_setTherm (k : Nat) (v : ThermSt) (j : Nat) : reg (setTherm k v s) j = reg s j := (rfl)
@[simp] theorem ctr_setTherm (k : Nat) (v : ThermSt) (j : Nat) : ctr (setTherm k v s) j = ctr s j := (rfl)
@[simp] theorem link_setTherm (k : Nat) (v : ThermSt) (j : Nat) : link (setTherm k v s) j = link s j := (rfl)
@[simp] theorem fiber_setTherm (k : Nat) (v : ThermSt) (j : Nat) : fiber (setTherm k v s) j = fiber s j := (rfl)
@[simp] theorem ring_setTherm (k : Nat) (v : ThermSt) (j : Nat) : ring (setTherm k v s) j = ring s j := (rfl)
@[simp] theorem lp_setTherm (k : Nat) (v : ThermSt) (j : Nat) : lp (setTherm k v s) j = lp s j := (rfl)
@[simp] theorem fwd_setTherm (k : Nat) (v : ThermSt) (j : Nat) : fwd (setTherm k v s) j = fwd s j := (rfl)
@[simp] theorem sw_setTherm (k : Nat) (v : ThermSt) (j : Nat) : sw (setTherm k v s) j = sw s j := (rfl)
@[simp] theorem arb_setTherm (k : Nat) (v : ThermSt) (j : Nat) : arb (setTherm k v s) j = arb s j := (rfl)
@[simp] theorem mon_setTherm (k : Nat) (v : ThermSt) (j : Nat) : mon (setTherm k v s) j = mon s j := (rfl)
@[simp] theorem tq_setTherm (k : Nat) (v : ThermSt) (j : Nat) : tq (setTherm k v s) j = tq s j := (rfl)
@[simp] theorem rslot_setTherm (k : Nat) (v : ThermSt) (j : Nat) : rslot (setTherm k v s) j = rslot s j := (rfl)
@[simp] theorem dma_setTherm (k : Nat) (v : ThermSt) (j : Nat) : dma (setTherm k v s) j = dma s j := (rfl)
@[simp] theorem stack_setTherm (k : Nat) (v : ThermSt) (j : Nat) : stack (setTherm k v s) j = stack s j := (rfl)
@[simp] theorem ms_setTherm (k : Nat) (v : ThermSt) (j : Nat) : ms (setTherm k v s) j = ms s j := (rfl)
@[simp] theorem ce_setTherm (k : Nat) (v : ThermSt) (j : Nat) : ce (setTherm k v s) j = ce s j := (rfl)
@[simp] theorem fi_setTherm (k : Nat) (v : ThermSt) (j : Nat) : fi (setTherm k v s) j = fi s j := (rfl)
@[simp] theorem lx_setTherm (k : Nat) (v : ThermSt) (j : Nat) : lx (setTherm k v s) j = lx s j := (rfl)
@[simp] theorem peers_setTherm (k : Nat) (v : ThermSt) (j : Nat) : peers (setTherm k v s) j = peers s j := (rfl)
@[simp] theorem memByte_setTherm (k : Nat) (v : ThermSt) (j : Nat) : memByte (setTherm k v s) j = memByte s j := (rfl)

/-! ### setLp -/

@[simp] theorem setLp_pending (k : Nat) (v : LpSt) : (setLp k v s).pending = s.pending := (rfl)
@[simp] theorem setLp_regs (k : Nat) (v : LpSt) : (setLp k v s).regs = s.regs := (rfl)
@[simp] theorem setLp_staged (k : Nat) (v : LpSt) : (setLp k v s).staged = s.staged := (rfl)
@[simp] theorem setLp_ctr (k : Nat) (v : LpSt) : (setLp k v s).ctr = s.ctr := (rfl)
@[simp] theorem setLp_hold (k : Nat) (v : LpSt) : (setLp k v s).hold = s.hold := (rfl)
@[simp] theorem setLp_time (k : Nat) (v : LpSt) : (setLp k v s).time = s.time := (rfl)
@[simp] theorem setLp_tq (k : Nat) (v : LpSt) : (setLp k v s).tq = s.tq := (rfl)
@[simp] theorem setLp_log (k : Nat) (v : LpSt) : (setLp k v s).log = s.log := (rfl)
@[simp] theorem setLp_mons (k : Nat) (v : LpSt) : (setLp k v s).mons = s.mons := (rfl)
@[simp] theorem setLp_repairs (k : Nat) (v : LpSt) : (setLp k v s).repairs = s.repairs := (rfl)
@[simp] theorem setLp_host (k : Nat) (v : LpSt) : (setLp k v s).host = s.host := (rfl)
@[simp] theorem setLp_fuses (k : Nat) (v : LpSt) : (setLp k v s).fuses = s.fuses := (rfl)
@[simp] theorem setLp_power (k : Nat) (v : LpSt) : (setLp k v s).power = s.power := (rfl)
@[simp] theorem setLp_boot (k : Nat) (v : LpSt) : (setLp k v s).boot = s.boot := (rfl)
@[simp] theorem setLp_sec (k : Nat) (v : LpSt) : (setLp k v s).sec = s.sec := (rfl)
@[simp] theorem setLp_unit (k : Nat) (v : LpSt) : (setLp k v s).unit = s.unit := (rfl)
@[simp] theorem setLp_links (k : Nat) (v : LpSt) : (setLp k v s).links = s.links := (rfl)
@[simp] theorem setLp_fibers (k : Nat) (v : LpSt) : (setLp k v s).fibers = s.fibers := (rfl)
@[simp] theorem setLp_rings (k : Nat) (v : LpSt) : (setLp k v s).rings = s.rings := (rfl)
@[simp] theorem setLp_therm (k : Nat) (v : LpSt) : (setLp k v s).therm = s.therm := (rfl)
@[simp] theorem setLp_cal (k : Nat) (v : LpSt) : (setLp k v s).cal = s.cal := (rfl)
@[simp] theorem setLp_fwd (k : Nat) (v : LpSt) : (setLp k v s).fwd = s.fwd := (rfl)
@[simp] theorem setLp_sw (k : Nat) (v : LpSt) : (setLp k v s).sw = s.sw := (rfl)
@[simp] theorem setLp_arbs (k : Nat) (v : LpSt) : (setLp k v s).arbs = s.arbs := (rfl)
@[simp] theorem setLp_mem (k : Nat) (v : LpSt) : (setLp k v s).mem = s.mem := (rfl)
@[simp] theorem setLp_igStacks (k : Nat) (v : LpSt) : (setLp k v s).igStacks = s.igStacks := (rfl)
@[simp] theorem setLp_ms (k : Nat) (v : LpSt) : (setLp k v s).ms = s.ms := (rfl)
@[simp] theorem setLp_ce (k : Nat) (v : LpSt) : (setLp k v s).ce = s.ce := (rfl)
@[simp] theorem setLp_fi (k : Nat) (v : LpSt) : (setLp k v s).fi = s.fi := (rfl)
@[simp] theorem setLp_lx (k : Nat) (v : LpSt) : (setLp k v s).lx = s.lx := (rfl)
@[simp] theorem setLp_peers (k : Nat) (v : LpSt) : (setLp k v s).peers = s.peers := (rfl)
@[simp] theorem setLp_descs (k : Nat) (v : LpSt) : (setLp k v s).descs = s.descs := (rfl)
@[simp] theorem setLp_accCtr (k : Nat) (v : LpSt) : (setLp k v s).accCtr = s.accCtr := (rfl)
@[simp] theorem setLp_pktCtr (k : Nat) (v : LpSt) : (setLp k v s).pktCtr = s.pktCtr := (rfl)
@[simp] theorem setLp_out (k : Nat) (v : LpSt) : (setLp k v s).out = s.out := (rfl)
@[simp] theorem setLp_freeCtr (k : Nat) (v : LpSt) : (setLp k v s).freeCtr = s.freeCtr := (rfl)
@[simp] theorem reg_setLp (k : Nat) (v : LpSt) (j : Nat) : reg (setLp k v s) j = reg s j := (rfl)
@[simp] theorem ctr_setLp (k : Nat) (v : LpSt) (j : Nat) : ctr (setLp k v s) j = ctr s j := (rfl)
@[simp] theorem link_setLp (k : Nat) (v : LpSt) (j : Nat) : link (setLp k v s) j = link s j := (rfl)
@[simp] theorem fiber_setLp (k : Nat) (v : LpSt) (j : Nat) : fiber (setLp k v s) j = fiber s j := (rfl)
@[simp] theorem ring_setLp (k : Nat) (v : LpSt) (j : Nat) : ring (setLp k v s) j = ring s j := (rfl)
@[simp] theorem therm_setLp (k : Nat) (v : LpSt) (j : Nat) : therm (setLp k v s) j = therm s j := (rfl)
@[simp] theorem fwd_setLp (k : Nat) (v : LpSt) (j : Nat) : fwd (setLp k v s) j = fwd s j := (rfl)
@[simp] theorem sw_setLp (k : Nat) (v : LpSt) (j : Nat) : sw (setLp k v s) j = sw s j := (rfl)
@[simp] theorem arb_setLp (k : Nat) (v : LpSt) (j : Nat) : arb (setLp k v s) j = arb s j := (rfl)
@[simp] theorem mon_setLp (k : Nat) (v : LpSt) (j : Nat) : mon (setLp k v s) j = mon s j := (rfl)
@[simp] theorem tq_setLp (k : Nat) (v : LpSt) (j : Nat) : tq (setLp k v s) j = tq s j := (rfl)
@[simp] theorem rslot_setLp (k : Nat) (v : LpSt) (j : Nat) : rslot (setLp k v s) j = rslot s j := (rfl)
@[simp] theorem dma_setLp (k : Nat) (v : LpSt) (j : Nat) : dma (setLp k v s) j = dma s j := (rfl)
@[simp] theorem stack_setLp (k : Nat) (v : LpSt) (j : Nat) : stack (setLp k v s) j = stack s j := (rfl)
@[simp] theorem ms_setLp (k : Nat) (v : LpSt) (j : Nat) : ms (setLp k v s) j = ms s j := (rfl)
@[simp] theorem ce_setLp (k : Nat) (v : LpSt) (j : Nat) : ce (setLp k v s) j = ce s j := (rfl)
@[simp] theorem fi_setLp (k : Nat) (v : LpSt) (j : Nat) : fi (setLp k v s) j = fi s j := (rfl)
@[simp] theorem lx_setLp (k : Nat) (v : LpSt) (j : Nat) : lx (setLp k v s) j = lx s j := (rfl)
@[simp] theorem peers_setLp (k : Nat) (v : LpSt) (j : Nat) : peers (setLp k v s) j = peers s j := (rfl)
@[simp] theorem memByte_setLp (k : Nat) (v : LpSt) (j : Nat) : memByte (setLp k v s) j = memByte s j := (rfl)

/-! ### setFwd -/

@[simp] theorem setFwd_pending (k : Nat) (v : FwdSt) : (setFwd k v s).pending = s.pending := (rfl)
@[simp] theorem setFwd_regs (k : Nat) (v : FwdSt) : (setFwd k v s).regs = s.regs := (rfl)
@[simp] theorem setFwd_staged (k : Nat) (v : FwdSt) : (setFwd k v s).staged = s.staged := (rfl)
@[simp] theorem setFwd_ctr (k : Nat) (v : FwdSt) : (setFwd k v s).ctr = s.ctr := (rfl)
@[simp] theorem setFwd_hold (k : Nat) (v : FwdSt) : (setFwd k v s).hold = s.hold := (rfl)
@[simp] theorem setFwd_time (k : Nat) (v : FwdSt) : (setFwd k v s).time = s.time := (rfl)
@[simp] theorem setFwd_tq (k : Nat) (v : FwdSt) : (setFwd k v s).tq = s.tq := (rfl)
@[simp] theorem setFwd_log (k : Nat) (v : FwdSt) : (setFwd k v s).log = s.log := (rfl)
@[simp] theorem setFwd_mons (k : Nat) (v : FwdSt) : (setFwd k v s).mons = s.mons := (rfl)
@[simp] theorem setFwd_repairs (k : Nat) (v : FwdSt) : (setFwd k v s).repairs = s.repairs := (rfl)
@[simp] theorem setFwd_host (k : Nat) (v : FwdSt) : (setFwd k v s).host = s.host := (rfl)
@[simp] theorem setFwd_fuses (k : Nat) (v : FwdSt) : (setFwd k v s).fuses = s.fuses := (rfl)
@[simp] theorem setFwd_power (k : Nat) (v : FwdSt) : (setFwd k v s).power = s.power := (rfl)
@[simp] theorem setFwd_boot (k : Nat) (v : FwdSt) : (setFwd k v s).boot = s.boot := (rfl)
@[simp] theorem setFwd_sec (k : Nat) (v : FwdSt) : (setFwd k v s).sec = s.sec := (rfl)
@[simp] theorem setFwd_unit (k : Nat) (v : FwdSt) : (setFwd k v s).unit = s.unit := (rfl)
@[simp] theorem setFwd_links (k : Nat) (v : FwdSt) : (setFwd k v s).links = s.links := (rfl)
@[simp] theorem setFwd_fibers (k : Nat) (v : FwdSt) : (setFwd k v s).fibers = s.fibers := (rfl)
@[simp] theorem setFwd_rings (k : Nat) (v : FwdSt) : (setFwd k v s).rings = s.rings := (rfl)
@[simp] theorem setFwd_therm (k : Nat) (v : FwdSt) : (setFwd k v s).therm = s.therm := (rfl)
@[simp] theorem setFwd_lp (k : Nat) (v : FwdSt) : (setFwd k v s).lp = s.lp := (rfl)
@[simp] theorem setFwd_cal (k : Nat) (v : FwdSt) : (setFwd k v s).cal = s.cal := (rfl)
@[simp] theorem setFwd_sw (k : Nat) (v : FwdSt) : (setFwd k v s).sw = s.sw := (rfl)
@[simp] theorem setFwd_arbs (k : Nat) (v : FwdSt) : (setFwd k v s).arbs = s.arbs := (rfl)
@[simp] theorem setFwd_mem (k : Nat) (v : FwdSt) : (setFwd k v s).mem = s.mem := (rfl)
@[simp] theorem setFwd_igStacks (k : Nat) (v : FwdSt) : (setFwd k v s).igStacks = s.igStacks := (rfl)
@[simp] theorem setFwd_ms (k : Nat) (v : FwdSt) : (setFwd k v s).ms = s.ms := (rfl)
@[simp] theorem setFwd_ce (k : Nat) (v : FwdSt) : (setFwd k v s).ce = s.ce := (rfl)
@[simp] theorem setFwd_fi (k : Nat) (v : FwdSt) : (setFwd k v s).fi = s.fi := (rfl)
@[simp] theorem setFwd_lx (k : Nat) (v : FwdSt) : (setFwd k v s).lx = s.lx := (rfl)
@[simp] theorem setFwd_peers (k : Nat) (v : FwdSt) : (setFwd k v s).peers = s.peers := (rfl)
@[simp] theorem setFwd_descs (k : Nat) (v : FwdSt) : (setFwd k v s).descs = s.descs := (rfl)
@[simp] theorem setFwd_accCtr (k : Nat) (v : FwdSt) : (setFwd k v s).accCtr = s.accCtr := (rfl)
@[simp] theorem setFwd_pktCtr (k : Nat) (v : FwdSt) : (setFwd k v s).pktCtr = s.pktCtr := (rfl)
@[simp] theorem setFwd_out (k : Nat) (v : FwdSt) : (setFwd k v s).out = s.out := (rfl)
@[simp] theorem setFwd_freeCtr (k : Nat) (v : FwdSt) : (setFwd k v s).freeCtr = s.freeCtr := (rfl)
@[simp] theorem reg_setFwd (k : Nat) (v : FwdSt) (j : Nat) : reg (setFwd k v s) j = reg s j := (rfl)
@[simp] theorem ctr_setFwd (k : Nat) (v : FwdSt) (j : Nat) : ctr (setFwd k v s) j = ctr s j := (rfl)
@[simp] theorem link_setFwd (k : Nat) (v : FwdSt) (j : Nat) : link (setFwd k v s) j = link s j := (rfl)
@[simp] theorem fiber_setFwd (k : Nat) (v : FwdSt) (j : Nat) : fiber (setFwd k v s) j = fiber s j := (rfl)
@[simp] theorem ring_setFwd (k : Nat) (v : FwdSt) (j : Nat) : ring (setFwd k v s) j = ring s j := (rfl)
@[simp] theorem therm_setFwd (k : Nat) (v : FwdSt) (j : Nat) : therm (setFwd k v s) j = therm s j := (rfl)
@[simp] theorem lp_setFwd (k : Nat) (v : FwdSt) (j : Nat) : lp (setFwd k v s) j = lp s j := (rfl)
@[simp] theorem sw_setFwd (k : Nat) (v : FwdSt) (j : Nat) : sw (setFwd k v s) j = sw s j := (rfl)
@[simp] theorem arb_setFwd (k : Nat) (v : FwdSt) (j : Nat) : arb (setFwd k v s) j = arb s j := (rfl)
@[simp] theorem mon_setFwd (k : Nat) (v : FwdSt) (j : Nat) : mon (setFwd k v s) j = mon s j := (rfl)
@[simp] theorem tq_setFwd (k : Nat) (v : FwdSt) (j : Nat) : tq (setFwd k v s) j = tq s j := (rfl)
@[simp] theorem rslot_setFwd (k : Nat) (v : FwdSt) (j : Nat) : rslot (setFwd k v s) j = rslot s j := (rfl)
@[simp] theorem dma_setFwd (k : Nat) (v : FwdSt) (j : Nat) : dma (setFwd k v s) j = dma s j := (rfl)
@[simp] theorem stack_setFwd (k : Nat) (v : FwdSt) (j : Nat) : stack (setFwd k v s) j = stack s j := (rfl)
@[simp] theorem ms_setFwd (k : Nat) (v : FwdSt) (j : Nat) : ms (setFwd k v s) j = ms s j := (rfl)
@[simp] theorem ce_setFwd (k : Nat) (v : FwdSt) (j : Nat) : ce (setFwd k v s) j = ce s j := (rfl)
@[simp] theorem fi_setFwd (k : Nat) (v : FwdSt) (j : Nat) : fi (setFwd k v s) j = fi s j := (rfl)
@[simp] theorem lx_setFwd (k : Nat) (v : FwdSt) (j : Nat) : lx (setFwd k v s) j = lx s j := (rfl)
@[simp] theorem peers_setFwd (k : Nat) (v : FwdSt) (j : Nat) : peers (setFwd k v s) j = peers s j := (rfl)
@[simp] theorem memByte_setFwd (k : Nat) (v : FwdSt) (j : Nat) : memByte (setFwd k v s) j = memByte s j := (rfl)

/-! ### setSw -/

@[simp] theorem setSw_pending (k : Nat) (v : SwSt) : (setSw k v s).pending = s.pending := (rfl)
@[simp] theorem setSw_regs (k : Nat) (v : SwSt) : (setSw k v s).regs = s.regs := (rfl)
@[simp] theorem setSw_staged (k : Nat) (v : SwSt) : (setSw k v s).staged = s.staged := (rfl)
@[simp] theorem setSw_ctr (k : Nat) (v : SwSt) : (setSw k v s).ctr = s.ctr := (rfl)
@[simp] theorem setSw_hold (k : Nat) (v : SwSt) : (setSw k v s).hold = s.hold := (rfl)
@[simp] theorem setSw_time (k : Nat) (v : SwSt) : (setSw k v s).time = s.time := (rfl)
@[simp] theorem setSw_tq (k : Nat) (v : SwSt) : (setSw k v s).tq = s.tq := (rfl)
@[simp] theorem setSw_log (k : Nat) (v : SwSt) : (setSw k v s).log = s.log := (rfl)
@[simp] theorem setSw_mons (k : Nat) (v : SwSt) : (setSw k v s).mons = s.mons := (rfl)
@[simp] theorem setSw_repairs (k : Nat) (v : SwSt) : (setSw k v s).repairs = s.repairs := (rfl)
@[simp] theorem setSw_host (k : Nat) (v : SwSt) : (setSw k v s).host = s.host := (rfl)
@[simp] theorem setSw_fuses (k : Nat) (v : SwSt) : (setSw k v s).fuses = s.fuses := (rfl)
@[simp] theorem setSw_power (k : Nat) (v : SwSt) : (setSw k v s).power = s.power := (rfl)
@[simp] theorem setSw_boot (k : Nat) (v : SwSt) : (setSw k v s).boot = s.boot := (rfl)
@[simp] theorem setSw_sec (k : Nat) (v : SwSt) : (setSw k v s).sec = s.sec := (rfl)
@[simp] theorem setSw_unit (k : Nat) (v : SwSt) : (setSw k v s).unit = s.unit := (rfl)
@[simp] theorem setSw_links (k : Nat) (v : SwSt) : (setSw k v s).links = s.links := (rfl)
@[simp] theorem setSw_fibers (k : Nat) (v : SwSt) : (setSw k v s).fibers = s.fibers := (rfl)
@[simp] theorem setSw_rings (k : Nat) (v : SwSt) : (setSw k v s).rings = s.rings := (rfl)
@[simp] theorem setSw_therm (k : Nat) (v : SwSt) : (setSw k v s).therm = s.therm := (rfl)
@[simp] theorem setSw_lp (k : Nat) (v : SwSt) : (setSw k v s).lp = s.lp := (rfl)
@[simp] theorem setSw_cal (k : Nat) (v : SwSt) : (setSw k v s).cal = s.cal := (rfl)
@[simp] theorem setSw_fwd (k : Nat) (v : SwSt) : (setSw k v s).fwd = s.fwd := (rfl)
@[simp] theorem setSw_arbs (k : Nat) (v : SwSt) : (setSw k v s).arbs = s.arbs := (rfl)
@[simp] theorem setSw_mem (k : Nat) (v : SwSt) : (setSw k v s).mem = s.mem := (rfl)
@[simp] theorem setSw_igStacks (k : Nat) (v : SwSt) : (setSw k v s).igStacks = s.igStacks := (rfl)
@[simp] theorem setSw_ms (k : Nat) (v : SwSt) : (setSw k v s).ms = s.ms := (rfl)
@[simp] theorem setSw_ce (k : Nat) (v : SwSt) : (setSw k v s).ce = s.ce := (rfl)
@[simp] theorem setSw_fi (k : Nat) (v : SwSt) : (setSw k v s).fi = s.fi := (rfl)
@[simp] theorem setSw_lx (k : Nat) (v : SwSt) : (setSw k v s).lx = s.lx := (rfl)
@[simp] theorem setSw_peers (k : Nat) (v : SwSt) : (setSw k v s).peers = s.peers := (rfl)
@[simp] theorem setSw_descs (k : Nat) (v : SwSt) : (setSw k v s).descs = s.descs := (rfl)
@[simp] theorem setSw_accCtr (k : Nat) (v : SwSt) : (setSw k v s).accCtr = s.accCtr := (rfl)
@[simp] theorem setSw_pktCtr (k : Nat) (v : SwSt) : (setSw k v s).pktCtr = s.pktCtr := (rfl)
@[simp] theorem setSw_out (k : Nat) (v : SwSt) : (setSw k v s).out = s.out := (rfl)
@[simp] theorem setSw_freeCtr (k : Nat) (v : SwSt) : (setSw k v s).freeCtr = s.freeCtr := (rfl)
@[simp] theorem reg_setSw (k : Nat) (v : SwSt) (j : Nat) : reg (setSw k v s) j = reg s j := (rfl)
@[simp] theorem ctr_setSw (k : Nat) (v : SwSt) (j : Nat) : ctr (setSw k v s) j = ctr s j := (rfl)
@[simp] theorem link_setSw (k : Nat) (v : SwSt) (j : Nat) : link (setSw k v s) j = link s j := (rfl)
@[simp] theorem fiber_setSw (k : Nat) (v : SwSt) (j : Nat) : fiber (setSw k v s) j = fiber s j := (rfl)
@[simp] theorem ring_setSw (k : Nat) (v : SwSt) (j : Nat) : ring (setSw k v s) j = ring s j := (rfl)
@[simp] theorem therm_setSw (k : Nat) (v : SwSt) (j : Nat) : therm (setSw k v s) j = therm s j := (rfl)
@[simp] theorem lp_setSw (k : Nat) (v : SwSt) (j : Nat) : lp (setSw k v s) j = lp s j := (rfl)
@[simp] theorem fwd_setSw (k : Nat) (v : SwSt) (j : Nat) : fwd (setSw k v s) j = fwd s j := (rfl)
@[simp] theorem arb_setSw (k : Nat) (v : SwSt) (j : Nat) : arb (setSw k v s) j = arb s j := (rfl)
@[simp] theorem mon_setSw (k : Nat) (v : SwSt) (j : Nat) : mon (setSw k v s) j = mon s j := (rfl)
@[simp] theorem tq_setSw (k : Nat) (v : SwSt) (j : Nat) : tq (setSw k v s) j = tq s j := (rfl)
@[simp] theorem rslot_setSw (k : Nat) (v : SwSt) (j : Nat) : rslot (setSw k v s) j = rslot s j := (rfl)
@[simp] theorem dma_setSw (k : Nat) (v : SwSt) (j : Nat) : dma (setSw k v s) j = dma s j := (rfl)
@[simp] theorem stack_setSw (k : Nat) (v : SwSt) (j : Nat) : stack (setSw k v s) j = stack s j := (rfl)
@[simp] theorem ms_setSw (k : Nat) (v : SwSt) (j : Nat) : ms (setSw k v s) j = ms s j := (rfl)
@[simp] theorem ce_setSw (k : Nat) (v : SwSt) (j : Nat) : ce (setSw k v s) j = ce s j := (rfl)
@[simp] theorem fi_setSw (k : Nat) (v : SwSt) (j : Nat) : fi (setSw k v s) j = fi s j := (rfl)
@[simp] theorem lx_setSw (k : Nat) (v : SwSt) (j : Nat) : lx (setSw k v s) j = lx s j := (rfl)
@[simp] theorem peers_setSw (k : Nat) (v : SwSt) (j : Nat) : peers (setSw k v s) j = peers s j := (rfl)
@[simp] theorem memByte_setSw (k : Nat) (v : SwSt) (j : Nat) : memByte (setSw k v s) j = memByte s j := (rfl)

/-! ### setArb -/

@[simp] theorem setArb_pending (k : Nat) (v : ArbSt) : (setArb k v s).pending = s.pending := (rfl)
@[simp] theorem setArb_regs (k : Nat) (v : ArbSt) : (setArb k v s).regs = s.regs := (rfl)
@[simp] theorem setArb_staged (k : Nat) (v : ArbSt) : (setArb k v s).staged = s.staged := (rfl)
@[simp] theorem setArb_ctr (k : Nat) (v : ArbSt) : (setArb k v s).ctr = s.ctr := (rfl)
@[simp] theorem setArb_hold (k : Nat) (v : ArbSt) : (setArb k v s).hold = s.hold := (rfl)
@[simp] theorem setArb_time (k : Nat) (v : ArbSt) : (setArb k v s).time = s.time := (rfl)
@[simp] theorem setArb_tq (k : Nat) (v : ArbSt) : (setArb k v s).tq = s.tq := (rfl)
@[simp] theorem setArb_log (k : Nat) (v : ArbSt) : (setArb k v s).log = s.log := (rfl)
@[simp] theorem setArb_mons (k : Nat) (v : ArbSt) : (setArb k v s).mons = s.mons := (rfl)
@[simp] theorem setArb_repairs (k : Nat) (v : ArbSt) : (setArb k v s).repairs = s.repairs := (rfl)
@[simp] theorem setArb_host (k : Nat) (v : ArbSt) : (setArb k v s).host = s.host := (rfl)
@[simp] theorem setArb_fuses (k : Nat) (v : ArbSt) : (setArb k v s).fuses = s.fuses := (rfl)
@[simp] theorem setArb_power (k : Nat) (v : ArbSt) : (setArb k v s).power = s.power := (rfl)
@[simp] theorem setArb_boot (k : Nat) (v : ArbSt) : (setArb k v s).boot = s.boot := (rfl)
@[simp] theorem setArb_sec (k : Nat) (v : ArbSt) : (setArb k v s).sec = s.sec := (rfl)
@[simp] theorem setArb_unit (k : Nat) (v : ArbSt) : (setArb k v s).unit = s.unit := (rfl)
@[simp] theorem setArb_links (k : Nat) (v : ArbSt) : (setArb k v s).links = s.links := (rfl)
@[simp] theorem setArb_fibers (k : Nat) (v : ArbSt) : (setArb k v s).fibers = s.fibers := (rfl)
@[simp] theorem setArb_rings (k : Nat) (v : ArbSt) : (setArb k v s).rings = s.rings := (rfl)
@[simp] theorem setArb_therm (k : Nat) (v : ArbSt) : (setArb k v s).therm = s.therm := (rfl)
@[simp] theorem setArb_lp (k : Nat) (v : ArbSt) : (setArb k v s).lp = s.lp := (rfl)
@[simp] theorem setArb_cal (k : Nat) (v : ArbSt) : (setArb k v s).cal = s.cal := (rfl)
@[simp] theorem setArb_fwd (k : Nat) (v : ArbSt) : (setArb k v s).fwd = s.fwd := (rfl)
@[simp] theorem setArb_sw (k : Nat) (v : ArbSt) : (setArb k v s).sw = s.sw := (rfl)
@[simp] theorem setArb_mem (k : Nat) (v : ArbSt) : (setArb k v s).mem = s.mem := (rfl)
@[simp] theorem setArb_igStacks (k : Nat) (v : ArbSt) : (setArb k v s).igStacks = s.igStacks := (rfl)
@[simp] theorem setArb_ms (k : Nat) (v : ArbSt) : (setArb k v s).ms = s.ms := (rfl)
@[simp] theorem setArb_ce (k : Nat) (v : ArbSt) : (setArb k v s).ce = s.ce := (rfl)
@[simp] theorem setArb_fi (k : Nat) (v : ArbSt) : (setArb k v s).fi = s.fi := (rfl)
@[simp] theorem setArb_lx (k : Nat) (v : ArbSt) : (setArb k v s).lx = s.lx := (rfl)
@[simp] theorem setArb_peers (k : Nat) (v : ArbSt) : (setArb k v s).peers = s.peers := (rfl)
@[simp] theorem setArb_descs (k : Nat) (v : ArbSt) : (setArb k v s).descs = s.descs := (rfl)
@[simp] theorem setArb_accCtr (k : Nat) (v : ArbSt) : (setArb k v s).accCtr = s.accCtr := (rfl)
@[simp] theorem setArb_pktCtr (k : Nat) (v : ArbSt) : (setArb k v s).pktCtr = s.pktCtr := (rfl)
@[simp] theorem setArb_out (k : Nat) (v : ArbSt) : (setArb k v s).out = s.out := (rfl)
@[simp] theorem setArb_freeCtr (k : Nat) (v : ArbSt) : (setArb k v s).freeCtr = s.freeCtr := (rfl)
@[simp] theorem reg_setArb (k : Nat) (v : ArbSt) (j : Nat) : reg (setArb k v s) j = reg s j := (rfl)
@[simp] theorem ctr_setArb (k : Nat) (v : ArbSt) (j : Nat) : ctr (setArb k v s) j = ctr s j := (rfl)
@[simp] theorem link_setArb (k : Nat) (v : ArbSt) (j : Nat) : link (setArb k v s) j = link s j := (rfl)
@[simp] theorem fiber_setArb (k : Nat) (v : ArbSt) (j : Nat) : fiber (setArb k v s) j = fiber s j := (rfl)
@[simp] theorem ring_setArb (k : Nat) (v : ArbSt) (j : Nat) : ring (setArb k v s) j = ring s j := (rfl)
@[simp] theorem therm_setArb (k : Nat) (v : ArbSt) (j : Nat) : therm (setArb k v s) j = therm s j := (rfl)
@[simp] theorem lp_setArb (k : Nat) (v : ArbSt) (j : Nat) : lp (setArb k v s) j = lp s j := (rfl)
@[simp] theorem fwd_setArb (k : Nat) (v : ArbSt) (j : Nat) : fwd (setArb k v s) j = fwd s j := (rfl)
@[simp] theorem sw_setArb (k : Nat) (v : ArbSt) (j : Nat) : sw (setArb k v s) j = sw s j := (rfl)
@[simp] theorem mon_setArb (k : Nat) (v : ArbSt) (j : Nat) : mon (setArb k v s) j = mon s j := (rfl)
@[simp] theorem tq_setArb (k : Nat) (v : ArbSt) (j : Nat) : tq (setArb k v s) j = tq s j := (rfl)
@[simp] theorem rslot_setArb (k : Nat) (v : ArbSt) (j : Nat) : rslot (setArb k v s) j = rslot s j := (rfl)
@[simp] theorem dma_setArb (k : Nat) (v : ArbSt) (j : Nat) : dma (setArb k v s) j = dma s j := (rfl)
@[simp] theorem stack_setArb (k : Nat) (v : ArbSt) (j : Nat) : stack (setArb k v s) j = stack s j := (rfl)
@[simp] theorem ms_setArb (k : Nat) (v : ArbSt) (j : Nat) : ms (setArb k v s) j = ms s j := (rfl)
@[simp] theorem ce_setArb (k : Nat) (v : ArbSt) (j : Nat) : ce (setArb k v s) j = ce s j := (rfl)
@[simp] theorem fi_setArb (k : Nat) (v : ArbSt) (j : Nat) : fi (setArb k v s) j = fi s j := (rfl)
@[simp] theorem lx_setArb (k : Nat) (v : ArbSt) (j : Nat) : lx (setArb k v s) j = lx s j := (rfl)
@[simp] theorem peers_setArb (k : Nat) (v : ArbSt) (j : Nat) : peers (setArb k v s) j = peers s j := (rfl)
@[simp] theorem memByte_setArb (k : Nat) (v : ArbSt) (j : Nat) : memByte (setArb k v s) j = memByte s j := (rfl)

/-! ### setMon -/

@[simp] theorem setMon_pending (k : Nat) (v : MonSt) : (setMon k v s).pending = s.pending := (rfl)
@[simp] theorem setMon_regs (k : Nat) (v : MonSt) : (setMon k v s).regs = s.regs := (rfl)
@[simp] theorem setMon_staged (k : Nat) (v : MonSt) : (setMon k v s).staged = s.staged := (rfl)
@[simp] theorem setMon_ctr (k : Nat) (v : MonSt) : (setMon k v s).ctr = s.ctr := (rfl)
@[simp] theorem setMon_hold (k : Nat) (v : MonSt) : (setMon k v s).hold = s.hold := (rfl)
@[simp] theorem setMon_time (k : Nat) (v : MonSt) : (setMon k v s).time = s.time := (rfl)
@[simp] theorem setMon_tq (k : Nat) (v : MonSt) : (setMon k v s).tq = s.tq := (rfl)
@[simp] theorem setMon_log (k : Nat) (v : MonSt) : (setMon k v s).log = s.log := (rfl)
@[simp] theorem setMon_repairs (k : Nat) (v : MonSt) : (setMon k v s).repairs = s.repairs := (rfl)
@[simp] theorem setMon_host (k : Nat) (v : MonSt) : (setMon k v s).host = s.host := (rfl)
@[simp] theorem setMon_fuses (k : Nat) (v : MonSt) : (setMon k v s).fuses = s.fuses := (rfl)
@[simp] theorem setMon_power (k : Nat) (v : MonSt) : (setMon k v s).power = s.power := (rfl)
@[simp] theorem setMon_boot (k : Nat) (v : MonSt) : (setMon k v s).boot = s.boot := (rfl)
@[simp] theorem setMon_sec (k : Nat) (v : MonSt) : (setMon k v s).sec = s.sec := (rfl)
@[simp] theorem setMon_unit (k : Nat) (v : MonSt) : (setMon k v s).unit = s.unit := (rfl)
@[simp] theorem setMon_links (k : Nat) (v : MonSt) : (setMon k v s).links = s.links := (rfl)
@[simp] theorem setMon_fibers (k : Nat) (v : MonSt) : (setMon k v s).fibers = s.fibers := (rfl)
@[simp] theorem setMon_rings (k : Nat) (v : MonSt) : (setMon k v s).rings = s.rings := (rfl)
@[simp] theorem setMon_therm (k : Nat) (v : MonSt) : (setMon k v s).therm = s.therm := (rfl)
@[simp] theorem setMon_lp (k : Nat) (v : MonSt) : (setMon k v s).lp = s.lp := (rfl)
@[simp] theorem setMon_cal (k : Nat) (v : MonSt) : (setMon k v s).cal = s.cal := (rfl)
@[simp] theorem setMon_fwd (k : Nat) (v : MonSt) : (setMon k v s).fwd = s.fwd := (rfl)
@[simp] theorem setMon_sw (k : Nat) (v : MonSt) : (setMon k v s).sw = s.sw := (rfl)
@[simp] theorem setMon_arbs (k : Nat) (v : MonSt) : (setMon k v s).arbs = s.arbs := (rfl)
@[simp] theorem setMon_mem (k : Nat) (v : MonSt) : (setMon k v s).mem = s.mem := (rfl)
@[simp] theorem setMon_igStacks (k : Nat) (v : MonSt) : (setMon k v s).igStacks = s.igStacks := (rfl)
@[simp] theorem setMon_ms (k : Nat) (v : MonSt) : (setMon k v s).ms = s.ms := (rfl)
@[simp] theorem setMon_ce (k : Nat) (v : MonSt) : (setMon k v s).ce = s.ce := (rfl)
@[simp] theorem setMon_fi (k : Nat) (v : MonSt) : (setMon k v s).fi = s.fi := (rfl)
@[simp] theorem setMon_lx (k : Nat) (v : MonSt) : (setMon k v s).lx = s.lx := (rfl)
@[simp] theorem setMon_peers (k : Nat) (v : MonSt) : (setMon k v s).peers = s.peers := (rfl)
@[simp] theorem setMon_descs (k : Nat) (v : MonSt) : (setMon k v s).descs = s.descs := (rfl)
@[simp] theorem setMon_accCtr (k : Nat) (v : MonSt) : (setMon k v s).accCtr = s.accCtr := (rfl)
@[simp] theorem setMon_pktCtr (k : Nat) (v : MonSt) : (setMon k v s).pktCtr = s.pktCtr := (rfl)
@[simp] theorem setMon_out (k : Nat) (v : MonSt) : (setMon k v s).out = s.out := (rfl)
@[simp] theorem setMon_freeCtr (k : Nat) (v : MonSt) : (setMon k v s).freeCtr = s.freeCtr := (rfl)
@[simp] theorem reg_setMon (k : Nat) (v : MonSt) (j : Nat) : reg (setMon k v s) j = reg s j := (rfl)
@[simp] theorem ctr_setMon (k : Nat) (v : MonSt) (j : Nat) : ctr (setMon k v s) j = ctr s j := (rfl)
@[simp] theorem link_setMon (k : Nat) (v : MonSt) (j : Nat) : link (setMon k v s) j = link s j := (rfl)
@[simp] theorem fiber_setMon (k : Nat) (v : MonSt) (j : Nat) : fiber (setMon k v s) j = fiber s j := (rfl)
@[simp] theorem ring_setMon (k : Nat) (v : MonSt) (j : Nat) : ring (setMon k v s) j = ring s j := (rfl)
@[simp] theorem therm_setMon (k : Nat) (v : MonSt) (j : Nat) : therm (setMon k v s) j = therm s j := (rfl)
@[simp] theorem lp_setMon (k : Nat) (v : MonSt) (j : Nat) : lp (setMon k v s) j = lp s j := (rfl)
@[simp] theorem fwd_setMon (k : Nat) (v : MonSt) (j : Nat) : fwd (setMon k v s) j = fwd s j := (rfl)
@[simp] theorem sw_setMon (k : Nat) (v : MonSt) (j : Nat) : sw (setMon k v s) j = sw s j := (rfl)
@[simp] theorem arb_setMon (k : Nat) (v : MonSt) (j : Nat) : arb (setMon k v s) j = arb s j := (rfl)
@[simp] theorem tq_setMon (k : Nat) (v : MonSt) (j : Nat) : tq (setMon k v s) j = tq s j := (rfl)
@[simp] theorem rslot_setMon (k : Nat) (v : MonSt) (j : Nat) : rslot (setMon k v s) j = rslot s j := (rfl)
@[simp] theorem dma_setMon (k : Nat) (v : MonSt) (j : Nat) : dma (setMon k v s) j = dma s j := (rfl)
@[simp] theorem stack_setMon (k : Nat) (v : MonSt) (j : Nat) : stack (setMon k v s) j = stack s j := (rfl)
@[simp] theorem ms_setMon (k : Nat) (v : MonSt) (j : Nat) : ms (setMon k v s) j = ms s j := (rfl)
@[simp] theorem ce_setMon (k : Nat) (v : MonSt) (j : Nat) : ce (setMon k v s) j = ce s j := (rfl)
@[simp] theorem fi_setMon (k : Nat) (v : MonSt) (j : Nat) : fi (setMon k v s) j = fi s j := (rfl)
@[simp] theorem lx_setMon (k : Nat) (v : MonSt) (j : Nat) : lx (setMon k v s) j = lx s j := (rfl)
@[simp] theorem peers_setMon (k : Nat) (v : MonSt) (j : Nat) : peers (setMon k v s) j = peers s j := (rfl)
@[simp] theorem memByte_setMon (k : Nat) (v : MonSt) (j : Nat) : memByte (setMon k v s) j = memByte s j := (rfl)

/-! ### setTq -/

@[simp] theorem setTq_pending (k : Nat) (v : TqSt) : (setTq k v s).pending = s.pending := (rfl)
@[simp] theorem setTq_regs (k : Nat) (v : TqSt) : (setTq k v s).regs = s.regs := (rfl)
@[simp] theorem setTq_staged (k : Nat) (v : TqSt) : (setTq k v s).staged = s.staged := (rfl)
@[simp] theorem setTq_ctr (k : Nat) (v : TqSt) : (setTq k v s).ctr = s.ctr := (rfl)
@[simp] theorem setTq_hold (k : Nat) (v : TqSt) : (setTq k v s).hold = s.hold := (rfl)
@[simp] theorem setTq_time (k : Nat) (v : TqSt) : (setTq k v s).time = s.time := (rfl)
@[simp] theorem setTq_log (k : Nat) (v : TqSt) : (setTq k v s).log = s.log := (rfl)
@[simp] theorem setTq_mons (k : Nat) (v : TqSt) : (setTq k v s).mons = s.mons := (rfl)
@[simp] theorem setTq_repairs (k : Nat) (v : TqSt) : (setTq k v s).repairs = s.repairs := (rfl)
@[simp] theorem setTq_host (k : Nat) (v : TqSt) : (setTq k v s).host = s.host := (rfl)
@[simp] theorem setTq_fuses (k : Nat) (v : TqSt) : (setTq k v s).fuses = s.fuses := (rfl)
@[simp] theorem setTq_power (k : Nat) (v : TqSt) : (setTq k v s).power = s.power := (rfl)
@[simp] theorem setTq_boot (k : Nat) (v : TqSt) : (setTq k v s).boot = s.boot := (rfl)
@[simp] theorem setTq_sec (k : Nat) (v : TqSt) : (setTq k v s).sec = s.sec := (rfl)
@[simp] theorem setTq_unit (k : Nat) (v : TqSt) : (setTq k v s).unit = s.unit := (rfl)
@[simp] theorem setTq_links (k : Nat) (v : TqSt) : (setTq k v s).links = s.links := (rfl)
@[simp] theorem setTq_fibers (k : Nat) (v : TqSt) : (setTq k v s).fibers = s.fibers := (rfl)
@[simp] theorem setTq_rings (k : Nat) (v : TqSt) : (setTq k v s).rings = s.rings := (rfl)
@[simp] theorem setTq_therm (k : Nat) (v : TqSt) : (setTq k v s).therm = s.therm := (rfl)
@[simp] theorem setTq_lp (k : Nat) (v : TqSt) : (setTq k v s).lp = s.lp := (rfl)
@[simp] theorem setTq_cal (k : Nat) (v : TqSt) : (setTq k v s).cal = s.cal := (rfl)
@[simp] theorem setTq_fwd (k : Nat) (v : TqSt) : (setTq k v s).fwd = s.fwd := (rfl)
@[simp] theorem setTq_sw (k : Nat) (v : TqSt) : (setTq k v s).sw = s.sw := (rfl)
@[simp] theorem setTq_arbs (k : Nat) (v : TqSt) : (setTq k v s).arbs = s.arbs := (rfl)
@[simp] theorem setTq_mem (k : Nat) (v : TqSt) : (setTq k v s).mem = s.mem := (rfl)
@[simp] theorem setTq_igStacks (k : Nat) (v : TqSt) : (setTq k v s).igStacks = s.igStacks := (rfl)
@[simp] theorem setTq_ms (k : Nat) (v : TqSt) : (setTq k v s).ms = s.ms := (rfl)
@[simp] theorem setTq_ce (k : Nat) (v : TqSt) : (setTq k v s).ce = s.ce := (rfl)
@[simp] theorem setTq_fi (k : Nat) (v : TqSt) : (setTq k v s).fi = s.fi := (rfl)
@[simp] theorem setTq_lx (k : Nat) (v : TqSt) : (setTq k v s).lx = s.lx := (rfl)
@[simp] theorem setTq_peers (k : Nat) (v : TqSt) : (setTq k v s).peers = s.peers := (rfl)
@[simp] theorem setTq_descs (k : Nat) (v : TqSt) : (setTq k v s).descs = s.descs := (rfl)
@[simp] theorem setTq_accCtr (k : Nat) (v : TqSt) : (setTq k v s).accCtr = s.accCtr := (rfl)
@[simp] theorem setTq_pktCtr (k : Nat) (v : TqSt) : (setTq k v s).pktCtr = s.pktCtr := (rfl)
@[simp] theorem setTq_out (k : Nat) (v : TqSt) : (setTq k v s).out = s.out := (rfl)
@[simp] theorem setTq_freeCtr (k : Nat) (v : TqSt) : (setTq k v s).freeCtr = s.freeCtr := (rfl)
@[simp] theorem reg_setTq (k : Nat) (v : TqSt) (j : Nat) : reg (setTq k v s) j = reg s j := (rfl)
@[simp] theorem ctr_setTq (k : Nat) (v : TqSt) (j : Nat) : ctr (setTq k v s) j = ctr s j := (rfl)
@[simp] theorem link_setTq (k : Nat) (v : TqSt) (j : Nat) : link (setTq k v s) j = link s j := (rfl)
@[simp] theorem fiber_setTq (k : Nat) (v : TqSt) (j : Nat) : fiber (setTq k v s) j = fiber s j := (rfl)
@[simp] theorem ring_setTq (k : Nat) (v : TqSt) (j : Nat) : ring (setTq k v s) j = ring s j := (rfl)
@[simp] theorem therm_setTq (k : Nat) (v : TqSt) (j : Nat) : therm (setTq k v s) j = therm s j := (rfl)
@[simp] theorem lp_setTq (k : Nat) (v : TqSt) (j : Nat) : lp (setTq k v s) j = lp s j := (rfl)
@[simp] theorem fwd_setTq (k : Nat) (v : TqSt) (j : Nat) : fwd (setTq k v s) j = fwd s j := (rfl)
@[simp] theorem sw_setTq (k : Nat) (v : TqSt) (j : Nat) : sw (setTq k v s) j = sw s j := (rfl)
@[simp] theorem arb_setTq (k : Nat) (v : TqSt) (j : Nat) : arb (setTq k v s) j = arb s j := (rfl)
@[simp] theorem mon_setTq (k : Nat) (v : TqSt) (j : Nat) : mon (setTq k v s) j = mon s j := (rfl)
@[simp] theorem rslot_setTq (k : Nat) (v : TqSt) (j : Nat) : rslot (setTq k v s) j = rslot s j := (rfl)
@[simp] theorem dma_setTq (k : Nat) (v : TqSt) (j : Nat) : dma (setTq k v s) j = dma s j := (rfl)
@[simp] theorem stack_setTq (k : Nat) (v : TqSt) (j : Nat) : stack (setTq k v s) j = stack s j := (rfl)
@[simp] theorem ms_setTq (k : Nat) (v : TqSt) (j : Nat) : ms (setTq k v s) j = ms s j := (rfl)
@[simp] theorem ce_setTq (k : Nat) (v : TqSt) (j : Nat) : ce (setTq k v s) j = ce s j := (rfl)
@[simp] theorem fi_setTq (k : Nat) (v : TqSt) (j : Nat) : fi (setTq k v s) j = fi s j := (rfl)
@[simp] theorem lx_setTq (k : Nat) (v : TqSt) (j : Nat) : lx (setTq k v s) j = lx s j := (rfl)
@[simp] theorem peers_setTq (k : Nat) (v : TqSt) (j : Nat) : peers (setTq k v s) j = peers s j := (rfl)
@[simp] theorem memByte_setTq (k : Nat) (v : TqSt) (j : Nat) : memByte (setTq k v s) j = memByte s j := (rfl)

/-! ### setRslot -/

@[simp] theorem setRslot_pending (k : Nat) (v : RsSlot) : (setRslot k v s).pending = s.pending := (rfl)
@[simp] theorem setRslot_regs (k : Nat) (v : RsSlot) : (setRslot k v s).regs = s.regs := (rfl)
@[simp] theorem setRslot_staged (k : Nat) (v : RsSlot) : (setRslot k v s).staged = s.staged := (rfl)
@[simp] theorem setRslot_ctr (k : Nat) (v : RsSlot) : (setRslot k v s).ctr = s.ctr := (rfl)
@[simp] theorem setRslot_hold (k : Nat) (v : RsSlot) : (setRslot k v s).hold = s.hold := (rfl)
@[simp] theorem setRslot_time (k : Nat) (v : RsSlot) : (setRslot k v s).time = s.time := (rfl)
@[simp] theorem setRslot_tq (k : Nat) (v : RsSlot) : (setRslot k v s).tq = s.tq := (rfl)
@[simp] theorem setRslot_log (k : Nat) (v : RsSlot) : (setRslot k v s).log = s.log := (rfl)
@[simp] theorem setRslot_mons (k : Nat) (v : RsSlot) : (setRslot k v s).mons = s.mons := (rfl)
@[simp] theorem setRslot_repairs (k : Nat) (v : RsSlot) : (setRslot k v s).repairs = s.repairs := (rfl)
@[simp] theorem setRslot_fuses (k : Nat) (v : RsSlot) : (setRslot k v s).fuses = s.fuses := (rfl)
@[simp] theorem setRslot_power (k : Nat) (v : RsSlot) : (setRslot k v s).power = s.power := (rfl)
@[simp] theorem setRslot_boot (k : Nat) (v : RsSlot) : (setRslot k v s).boot = s.boot := (rfl)
@[simp] theorem setRslot_sec (k : Nat) (v : RsSlot) : (setRslot k v s).sec = s.sec := (rfl)
@[simp] theorem setRslot_unit (k : Nat) (v : RsSlot) : (setRslot k v s).unit = s.unit := (rfl)
@[simp] theorem setRslot_links (k : Nat) (v : RsSlot) : (setRslot k v s).links = s.links := (rfl)
@[simp] theorem setRslot_fibers (k : Nat) (v : RsSlot) : (setRslot k v s).fibers = s.fibers := (rfl)
@[simp] theorem setRslot_rings (k : Nat) (v : RsSlot) : (setRslot k v s).rings = s.rings := (rfl)
@[simp] theorem setRslot_therm (k : Nat) (v : RsSlot) : (setRslot k v s).therm = s.therm := (rfl)
@[simp] theorem setRslot_lp (k : Nat) (v : RsSlot) : (setRslot k v s).lp = s.lp := (rfl)
@[simp] theorem setRslot_cal (k : Nat) (v : RsSlot) : (setRslot k v s).cal = s.cal := (rfl)
@[simp] theorem setRslot_fwd (k : Nat) (v : RsSlot) : (setRslot k v s).fwd = s.fwd := (rfl)
@[simp] theorem setRslot_sw (k : Nat) (v : RsSlot) : (setRslot k v s).sw = s.sw := (rfl)
@[simp] theorem setRslot_arbs (k : Nat) (v : RsSlot) : (setRslot k v s).arbs = s.arbs := (rfl)
@[simp] theorem setRslot_mem (k : Nat) (v : RsSlot) : (setRslot k v s).mem = s.mem := (rfl)
@[simp] theorem setRslot_igStacks (k : Nat) (v : RsSlot) : (setRslot k v s).igStacks = s.igStacks := (rfl)
@[simp] theorem setRslot_ms (k : Nat) (v : RsSlot) : (setRslot k v s).ms = s.ms := (rfl)
@[simp] theorem setRslot_ce (k : Nat) (v : RsSlot) : (setRslot k v s).ce = s.ce := (rfl)
@[simp] theorem setRslot_fi (k : Nat) (v : RsSlot) : (setRslot k v s).fi = s.fi := (rfl)
@[simp] theorem setRslot_lx (k : Nat) (v : RsSlot) : (setRslot k v s).lx = s.lx := (rfl)
@[simp] theorem setRslot_peers (k : Nat) (v : RsSlot) : (setRslot k v s).peers = s.peers := (rfl)
@[simp] theorem setRslot_descs (k : Nat) (v : RsSlot) : (setRslot k v s).descs = s.descs := (rfl)
@[simp] theorem setRslot_accCtr (k : Nat) (v : RsSlot) : (setRslot k v s).accCtr = s.accCtr := (rfl)
@[simp] theorem setRslot_pktCtr (k : Nat) (v : RsSlot) : (setRslot k v s).pktCtr = s.pktCtr := (rfl)
@[simp] theorem setRslot_out (k : Nat) (v : RsSlot) : (setRslot k v s).out = s.out := (rfl)
@[simp] theorem setRslot_freeCtr (k : Nat) (v : RsSlot) : (setRslot k v s).freeCtr = s.freeCtr := (rfl)
@[simp] theorem reg_setRslot (k : Nat) (v : RsSlot) (j : Nat) : reg (setRslot k v s) j = reg s j := (rfl)
@[simp] theorem ctr_setRslot (k : Nat) (v : RsSlot) (j : Nat) : ctr (setRslot k v s) j = ctr s j := (rfl)
@[simp] theorem link_setRslot (k : Nat) (v : RsSlot) (j : Nat) : link (setRslot k v s) j = link s j := (rfl)
@[simp] theorem fiber_setRslot (k : Nat) (v : RsSlot) (j : Nat) : fiber (setRslot k v s) j = fiber s j := (rfl)
@[simp] theorem ring_setRslot (k : Nat) (v : RsSlot) (j : Nat) : ring (setRslot k v s) j = ring s j := (rfl)
@[simp] theorem therm_setRslot (k : Nat) (v : RsSlot) (j : Nat) : therm (setRslot k v s) j = therm s j := (rfl)
@[simp] theorem lp_setRslot (k : Nat) (v : RsSlot) (j : Nat) : lp (setRslot k v s) j = lp s j := (rfl)
@[simp] theorem fwd_setRslot (k : Nat) (v : RsSlot) (j : Nat) : fwd (setRslot k v s) j = fwd s j := (rfl)
@[simp] theorem sw_setRslot (k : Nat) (v : RsSlot) (j : Nat) : sw (setRslot k v s) j = sw s j := (rfl)
@[simp] theorem arb_setRslot (k : Nat) (v : RsSlot) (j : Nat) : arb (setRslot k v s) j = arb s j := (rfl)
@[simp] theorem mon_setRslot (k : Nat) (v : RsSlot) (j : Nat) : mon (setRslot k v s) j = mon s j := (rfl)
@[simp] theorem tq_setRslot (k : Nat) (v : RsSlot) (j : Nat) : tq (setRslot k v s) j = tq s j := (rfl)
@[simp] theorem stack_setRslot (k : Nat) (v : RsSlot) (j : Nat) : stack (setRslot k v s) j = stack s j := (rfl)
@[simp] theorem ms_setRslot (k : Nat) (v : RsSlot) (j : Nat) : ms (setRslot k v s) j = ms s j := (rfl)
@[simp] theorem ce_setRslot (k : Nat) (v : RsSlot) (j : Nat) : ce (setRslot k v s) j = ce s j := (rfl)
@[simp] theorem fi_setRslot (k : Nat) (v : RsSlot) (j : Nat) : fi (setRslot k v s) j = fi s j := (rfl)
@[simp] theorem lx_setRslot (k : Nat) (v : RsSlot) (j : Nat) : lx (setRslot k v s) j = lx s j := (rfl)
@[simp] theorem peers_setRslot (k : Nat) (v : RsSlot) (j : Nat) : peers (setRslot k v s) j = peers s j := (rfl)
@[simp] theorem memByte_setRslot (k : Nat) (v : RsSlot) (j : Nat) : memByte (setRslot k v s) j = memByte s j := (rfl)

/-! ### setDma -/

@[simp] theorem setDma_pending (k : Nat) (v : DmaSt) : (setDma k v s).pending = s.pending := (rfl)
@[simp] theorem setDma_regs (k : Nat) (v : DmaSt) : (setDma k v s).regs = s.regs := (rfl)
@[simp] theorem setDma_staged (k : Nat) (v : DmaSt) : (setDma k v s).staged = s.staged := (rfl)
@[simp] theorem setDma_ctr (k : Nat) (v : DmaSt) : (setDma k v s).ctr = s.ctr := (rfl)
@[simp] theorem setDma_hold (k : Nat) (v : DmaSt) : (setDma k v s).hold = s.hold := (rfl)
@[simp] theorem setDma_time (k : Nat) (v : DmaSt) : (setDma k v s).time = s.time := (rfl)
@[simp] theorem setDma_tq (k : Nat) (v : DmaSt) : (setDma k v s).tq = s.tq := (rfl)
@[simp] theorem setDma_log (k : Nat) (v : DmaSt) : (setDma k v s).log = s.log := (rfl)
@[simp] theorem setDma_mons (k : Nat) (v : DmaSt) : (setDma k v s).mons = s.mons := (rfl)
@[simp] theorem setDma_repairs (k : Nat) (v : DmaSt) : (setDma k v s).repairs = s.repairs := (rfl)
@[simp] theorem setDma_fuses (k : Nat) (v : DmaSt) : (setDma k v s).fuses = s.fuses := (rfl)
@[simp] theorem setDma_power (k : Nat) (v : DmaSt) : (setDma k v s).power = s.power := (rfl)
@[simp] theorem setDma_boot (k : Nat) (v : DmaSt) : (setDma k v s).boot = s.boot := (rfl)
@[simp] theorem setDma_sec (k : Nat) (v : DmaSt) : (setDma k v s).sec = s.sec := (rfl)
@[simp] theorem setDma_unit (k : Nat) (v : DmaSt) : (setDma k v s).unit = s.unit := (rfl)
@[simp] theorem setDma_links (k : Nat) (v : DmaSt) : (setDma k v s).links = s.links := (rfl)
@[simp] theorem setDma_fibers (k : Nat) (v : DmaSt) : (setDma k v s).fibers = s.fibers := (rfl)
@[simp] theorem setDma_rings (k : Nat) (v : DmaSt) : (setDma k v s).rings = s.rings := (rfl)
@[simp] theorem setDma_therm (k : Nat) (v : DmaSt) : (setDma k v s).therm = s.therm := (rfl)
@[simp] theorem setDma_lp (k : Nat) (v : DmaSt) : (setDma k v s).lp = s.lp := (rfl)
@[simp] theorem setDma_cal (k : Nat) (v : DmaSt) : (setDma k v s).cal = s.cal := (rfl)
@[simp] theorem setDma_fwd (k : Nat) (v : DmaSt) : (setDma k v s).fwd = s.fwd := (rfl)
@[simp] theorem setDma_sw (k : Nat) (v : DmaSt) : (setDma k v s).sw = s.sw := (rfl)
@[simp] theorem setDma_arbs (k : Nat) (v : DmaSt) : (setDma k v s).arbs = s.arbs := (rfl)
@[simp] theorem setDma_mem (k : Nat) (v : DmaSt) : (setDma k v s).mem = s.mem := (rfl)
@[simp] theorem setDma_igStacks (k : Nat) (v : DmaSt) : (setDma k v s).igStacks = s.igStacks := (rfl)
@[simp] theorem setDma_ms (k : Nat) (v : DmaSt) : (setDma k v s).ms = s.ms := (rfl)
@[simp] theorem setDma_ce (k : Nat) (v : DmaSt) : (setDma k v s).ce = s.ce := (rfl)
@[simp] theorem setDma_fi (k : Nat) (v : DmaSt) : (setDma k v s).fi = s.fi := (rfl)
@[simp] theorem setDma_lx (k : Nat) (v : DmaSt) : (setDma k v s).lx = s.lx := (rfl)
@[simp] theorem setDma_peers (k : Nat) (v : DmaSt) : (setDma k v s).peers = s.peers := (rfl)
@[simp] theorem setDma_descs (k : Nat) (v : DmaSt) : (setDma k v s).descs = s.descs := (rfl)
@[simp] theorem setDma_accCtr (k : Nat) (v : DmaSt) : (setDma k v s).accCtr = s.accCtr := (rfl)
@[simp] theorem setDma_pktCtr (k : Nat) (v : DmaSt) : (setDma k v s).pktCtr = s.pktCtr := (rfl)
@[simp] theorem setDma_out (k : Nat) (v : DmaSt) : (setDma k v s).out = s.out := (rfl)
@[simp] theorem setDma_freeCtr (k : Nat) (v : DmaSt) : (setDma k v s).freeCtr = s.freeCtr := (rfl)
@[simp] theorem reg_setDma (k : Nat) (v : DmaSt) (j : Nat) : reg (setDma k v s) j = reg s j := (rfl)
@[simp] theorem ctr_setDma (k : Nat) (v : DmaSt) (j : Nat) : ctr (setDma k v s) j = ctr s j := (rfl)
@[simp] theorem link_setDma (k : Nat) (v : DmaSt) (j : Nat) : link (setDma k v s) j = link s j := (rfl)
@[simp] theorem fiber_setDma (k : Nat) (v : DmaSt) (j : Nat) : fiber (setDma k v s) j = fiber s j := (rfl)
@[simp] theorem ring_setDma (k : Nat) (v : DmaSt) (j : Nat) : ring (setDma k v s) j = ring s j := (rfl)
@[simp] theorem therm_setDma (k : Nat) (v : DmaSt) (j : Nat) : therm (setDma k v s) j = therm s j := (rfl)
@[simp] theorem lp_setDma (k : Nat) (v : DmaSt) (j : Nat) : lp (setDma k v s) j = lp s j := (rfl)
@[simp] theorem fwd_setDma (k : Nat) (v : DmaSt) (j : Nat) : fwd (setDma k v s) j = fwd s j := (rfl)
@[simp] theorem sw_setDma (k : Nat) (v : DmaSt) (j : Nat) : sw (setDma k v s) j = sw s j := (rfl)
@[simp] theorem arb_setDma (k : Nat) (v : DmaSt) (j : Nat) : arb (setDma k v s) j = arb s j := (rfl)
@[simp] theorem mon_setDma (k : Nat) (v : DmaSt) (j : Nat) : mon (setDma k v s) j = mon s j := (rfl)
@[simp] theorem tq_setDma (k : Nat) (v : DmaSt) (j : Nat) : tq (setDma k v s) j = tq s j := (rfl)
@[simp] theorem stack_setDma (k : Nat) (v : DmaSt) (j : Nat) : stack (setDma k v s) j = stack s j := (rfl)
@[simp] theorem ms_setDma (k : Nat) (v : DmaSt) (j : Nat) : ms (setDma k v s) j = ms s j := (rfl)
@[simp] theorem ce_setDma (k : Nat) (v : DmaSt) (j : Nat) : ce (setDma k v s) j = ce s j := (rfl)
@[simp] theorem fi_setDma (k : Nat) (v : DmaSt) (j : Nat) : fi (setDma k v s) j = fi s j := (rfl)
@[simp] theorem lx_setDma (k : Nat) (v : DmaSt) (j : Nat) : lx (setDma k v s) j = lx s j := (rfl)
@[simp] theorem peers_setDma (k : Nat) (v : DmaSt) (j : Nat) : peers (setDma k v s) j = peers s j := (rfl)
@[simp] theorem memByte_setDma (k : Nat) (v : DmaSt) (j : Nat) : memByte (setDma k v s) j = memByte s j := (rfl)

/-! ### setStack -/

@[simp] theorem setStack_pending (k : Nat) (v : StackSt) : (setStack k v s).pending = s.pending := (rfl)
@[simp] theorem setStack_regs (k : Nat) (v : StackSt) : (setStack k v s).regs = s.regs := (rfl)
@[simp] theorem setStack_staged (k : Nat) (v : StackSt) : (setStack k v s).staged = s.staged := (rfl)
@[simp] theorem setStack_ctr (k : Nat) (v : StackSt) : (setStack k v s).ctr = s.ctr := (rfl)
@[simp] theorem setStack_hold (k : Nat) (v : StackSt) : (setStack k v s).hold = s.hold := (rfl)
@[simp] theorem setStack_time (k : Nat) (v : StackSt) : (setStack k v s).time = s.time := (rfl)
@[simp] theorem setStack_tq (k : Nat) (v : StackSt) : (setStack k v s).tq = s.tq := (rfl)
@[simp] theorem setStack_log (k : Nat) (v : StackSt) : (setStack k v s).log = s.log := (rfl)
@[simp] theorem setStack_mons (k : Nat) (v : StackSt) : (setStack k v s).mons = s.mons := (rfl)
@[simp] theorem setStack_repairs (k : Nat) (v : StackSt) : (setStack k v s).repairs = s.repairs := (rfl)
@[simp] theorem setStack_host (k : Nat) (v : StackSt) : (setStack k v s).host = s.host := (rfl)
@[simp] theorem setStack_fuses (k : Nat) (v : StackSt) : (setStack k v s).fuses = s.fuses := (rfl)
@[simp] theorem setStack_power (k : Nat) (v : StackSt) : (setStack k v s).power = s.power := (rfl)
@[simp] theorem setStack_boot (k : Nat) (v : StackSt) : (setStack k v s).boot = s.boot := (rfl)
@[simp] theorem setStack_sec (k : Nat) (v : StackSt) : (setStack k v s).sec = s.sec := (rfl)
@[simp] theorem setStack_unit (k : Nat) (v : StackSt) : (setStack k v s).unit = s.unit := (rfl)
@[simp] theorem setStack_links (k : Nat) (v : StackSt) : (setStack k v s).links = s.links := (rfl)
@[simp] theorem setStack_fibers (k : Nat) (v : StackSt) : (setStack k v s).fibers = s.fibers := (rfl)
@[simp] theorem setStack_rings (k : Nat) (v : StackSt) : (setStack k v s).rings = s.rings := (rfl)
@[simp] theorem setStack_therm (k : Nat) (v : StackSt) : (setStack k v s).therm = s.therm := (rfl)
@[simp] theorem setStack_lp (k : Nat) (v : StackSt) : (setStack k v s).lp = s.lp := (rfl)
@[simp] theorem setStack_cal (k : Nat) (v : StackSt) : (setStack k v s).cal = s.cal := (rfl)
@[simp] theorem setStack_fwd (k : Nat) (v : StackSt) : (setStack k v s).fwd = s.fwd := (rfl)
@[simp] theorem setStack_sw (k : Nat) (v : StackSt) : (setStack k v s).sw = s.sw := (rfl)
@[simp] theorem setStack_arbs (k : Nat) (v : StackSt) : (setStack k v s).arbs = s.arbs := (rfl)
@[simp] theorem setStack_mem (k : Nat) (v : StackSt) : (setStack k v s).mem = s.mem := (rfl)
@[simp] theorem setStack_ms (k : Nat) (v : StackSt) : (setStack k v s).ms = s.ms := (rfl)
@[simp] theorem setStack_ce (k : Nat) (v : StackSt) : (setStack k v s).ce = s.ce := (rfl)
@[simp] theorem setStack_fi (k : Nat) (v : StackSt) : (setStack k v s).fi = s.fi := (rfl)
@[simp] theorem setStack_lx (k : Nat) (v : StackSt) : (setStack k v s).lx = s.lx := (rfl)
@[simp] theorem setStack_peers (k : Nat) (v : StackSt) : (setStack k v s).peers = s.peers := (rfl)
@[simp] theorem setStack_descs (k : Nat) (v : StackSt) : (setStack k v s).descs = s.descs := (rfl)
@[simp] theorem setStack_accCtr (k : Nat) (v : StackSt) : (setStack k v s).accCtr = s.accCtr := (rfl)
@[simp] theorem setStack_pktCtr (k : Nat) (v : StackSt) : (setStack k v s).pktCtr = s.pktCtr := (rfl)
@[simp] theorem setStack_out (k : Nat) (v : StackSt) : (setStack k v s).out = s.out := (rfl)
@[simp] theorem setStack_freeCtr (k : Nat) (v : StackSt) : (setStack k v s).freeCtr = s.freeCtr := (rfl)
@[simp] theorem reg_setStack (k : Nat) (v : StackSt) (j : Nat) : reg (setStack k v s) j = reg s j := (rfl)
@[simp] theorem ctr_setStack (k : Nat) (v : StackSt) (j : Nat) : ctr (setStack k v s) j = ctr s j := (rfl)
@[simp] theorem link_setStack (k : Nat) (v : StackSt) (j : Nat) : link (setStack k v s) j = link s j := (rfl)
@[simp] theorem fiber_setStack (k : Nat) (v : StackSt) (j : Nat) : fiber (setStack k v s) j = fiber s j := (rfl)
@[simp] theorem ring_setStack (k : Nat) (v : StackSt) (j : Nat) : ring (setStack k v s) j = ring s j := (rfl)
@[simp] theorem therm_setStack (k : Nat) (v : StackSt) (j : Nat) : therm (setStack k v s) j = therm s j := (rfl)
@[simp] theorem lp_setStack (k : Nat) (v : StackSt) (j : Nat) : lp (setStack k v s) j = lp s j := (rfl)
@[simp] theorem fwd_setStack (k : Nat) (v : StackSt) (j : Nat) : fwd (setStack k v s) j = fwd s j := (rfl)
@[simp] theorem sw_setStack (k : Nat) (v : StackSt) (j : Nat) : sw (setStack k v s) j = sw s j := (rfl)
@[simp] theorem arb_setStack (k : Nat) (v : StackSt) (j : Nat) : arb (setStack k v s) j = arb s j := (rfl)
@[simp] theorem mon_setStack (k : Nat) (v : StackSt) (j : Nat) : mon (setStack k v s) j = mon s j := (rfl)
@[simp] theorem tq_setStack (k : Nat) (v : StackSt) (j : Nat) : tq (setStack k v s) j = tq s j := (rfl)
@[simp] theorem rslot_setStack (k : Nat) (v : StackSt) (j : Nat) : rslot (setStack k v s) j = rslot s j := (rfl)
@[simp] theorem dma_setStack (k : Nat) (v : StackSt) (j : Nat) : dma (setStack k v s) j = dma s j := (rfl)
@[simp] theorem ms_setStack (k : Nat) (v : StackSt) (j : Nat) : ms (setStack k v s) j = ms s j := (rfl)
@[simp] theorem ce_setStack (k : Nat) (v : StackSt) (j : Nat) : ce (setStack k v s) j = ce s j := (rfl)
@[simp] theorem fi_setStack (k : Nat) (v : StackSt) (j : Nat) : fi (setStack k v s) j = fi s j := (rfl)
@[simp] theorem lx_setStack (k : Nat) (v : StackSt) (j : Nat) : lx (setStack k v s) j = lx s j := (rfl)
@[simp] theorem peers_setStack (k : Nat) (v : StackSt) (j : Nat) : peers (setStack k v s) j = peers s j := (rfl)
@[simp] theorem memByte_setStack (k : Nat) (v : StackSt) (j : Nat) : memByte (setStack k v s) j = memByte s j := (rfl)

/-! ### setMs -/

@[simp] theorem setMs_pending (k : Nat) (v : MemSt) : (setMs k v s).pending = s.pending := (rfl)
@[simp] theorem setMs_regs (k : Nat) (v : MemSt) : (setMs k v s).regs = s.regs := (rfl)
@[simp] theorem setMs_staged (k : Nat) (v : MemSt) : (setMs k v s).staged = s.staged := (rfl)
@[simp] theorem setMs_ctr (k : Nat) (v : MemSt) : (setMs k v s).ctr = s.ctr := (rfl)
@[simp] theorem setMs_hold (k : Nat) (v : MemSt) : (setMs k v s).hold = s.hold := (rfl)
@[simp] theorem setMs_time (k : Nat) (v : MemSt) : (setMs k v s).time = s.time := (rfl)
@[simp] theorem setMs_tq (k : Nat) (v : MemSt) : (setMs k v s).tq = s.tq := (rfl)
@[simp] theorem setMs_log (k : Nat) (v : MemSt) : (setMs k v s).log = s.log := (rfl)
@[simp] theorem setMs_mons (k : Nat) (v : MemSt) : (setMs k v s).mons = s.mons := (rfl)
@[simp] theorem setMs_repairs (k : Nat) (v : MemSt) : (setMs k v s).repairs = s.repairs := (rfl)
@[simp] theorem setMs_host (k : Nat) (v : MemSt) : (setMs k v s).host = s.host := (rfl)
@[simp] theorem setMs_fuses (k : Nat) (v : MemSt) : (setMs k v s).fuses = s.fuses := (rfl)
@[simp] theorem setMs_power (k : Nat) (v : MemSt) : (setMs k v s).power = s.power := (rfl)
@[simp] theorem setMs_boot (k : Nat) (v : MemSt) : (setMs k v s).boot = s.boot := (rfl)
@[simp] theorem setMs_sec (k : Nat) (v : MemSt) : (setMs k v s).sec = s.sec := (rfl)
@[simp] theorem setMs_unit (k : Nat) (v : MemSt) : (setMs k v s).unit = s.unit := (rfl)
@[simp] theorem setMs_links (k : Nat) (v : MemSt) : (setMs k v s).links = s.links := (rfl)
@[simp] theorem setMs_fibers (k : Nat) (v : MemSt) : (setMs k v s).fibers = s.fibers := (rfl)
@[simp] theorem setMs_rings (k : Nat) (v : MemSt) : (setMs k v s).rings = s.rings := (rfl)
@[simp] theorem setMs_therm (k : Nat) (v : MemSt) : (setMs k v s).therm = s.therm := (rfl)
@[simp] theorem setMs_lp (k : Nat) (v : MemSt) : (setMs k v s).lp = s.lp := (rfl)
@[simp] theorem setMs_cal (k : Nat) (v : MemSt) : (setMs k v s).cal = s.cal := (rfl)
@[simp] theorem setMs_fwd (k : Nat) (v : MemSt) : (setMs k v s).fwd = s.fwd := (rfl)
@[simp] theorem setMs_sw (k : Nat) (v : MemSt) : (setMs k v s).sw = s.sw := (rfl)
@[simp] theorem setMs_arbs (k : Nat) (v : MemSt) : (setMs k v s).arbs = s.arbs := (rfl)
@[simp] theorem setMs_mem (k : Nat) (v : MemSt) : (setMs k v s).mem = s.mem := (rfl)
@[simp] theorem setMs_igStacks (k : Nat) (v : MemSt) : (setMs k v s).igStacks = s.igStacks := (rfl)
@[simp] theorem setMs_ce (k : Nat) (v : MemSt) : (setMs k v s).ce = s.ce := (rfl)
@[simp] theorem setMs_fi (k : Nat) (v : MemSt) : (setMs k v s).fi = s.fi := (rfl)
@[simp] theorem setMs_lx (k : Nat) (v : MemSt) : (setMs k v s).lx = s.lx := (rfl)
@[simp] theorem setMs_peers (k : Nat) (v : MemSt) : (setMs k v s).peers = s.peers := (rfl)
@[simp] theorem setMs_descs (k : Nat) (v : MemSt) : (setMs k v s).descs = s.descs := (rfl)
@[simp] theorem setMs_accCtr (k : Nat) (v : MemSt) : (setMs k v s).accCtr = s.accCtr := (rfl)
@[simp] theorem setMs_pktCtr (k : Nat) (v : MemSt) : (setMs k v s).pktCtr = s.pktCtr := (rfl)
@[simp] theorem setMs_out (k : Nat) (v : MemSt) : (setMs k v s).out = s.out := (rfl)
@[simp] theorem setMs_freeCtr (k : Nat) (v : MemSt) : (setMs k v s).freeCtr = s.freeCtr := (rfl)
@[simp] theorem reg_setMs (k : Nat) (v : MemSt) (j : Nat) : reg (setMs k v s) j = reg s j := (rfl)
@[simp] theorem ctr_setMs (k : Nat) (v : MemSt) (j : Nat) : ctr (setMs k v s) j = ctr s j := (rfl)
@[simp] theorem link_setMs (k : Nat) (v : MemSt) (j : Nat) : link (setMs k v s) j = link s j := (rfl)
@[simp] theorem fiber_setMs (k : Nat) (v : MemSt) (j : Nat) : fiber (setMs k v s) j = fiber s j := (rfl)
@[simp] theorem ring_setMs (k : Nat) (v : MemSt) (j : Nat) : ring (setMs k v s) j = ring s j := (rfl)
@[simp] theorem therm_setMs (k : Nat) (v : MemSt) (j : Nat) : therm (setMs k v s) j = therm s j := (rfl)
@[simp] theorem lp_setMs (k : Nat) (v : MemSt) (j : Nat) : lp (setMs k v s) j = lp s j := (rfl)
@[simp] theorem fwd_setMs (k : Nat) (v : MemSt) (j : Nat) : fwd (setMs k v s) j = fwd s j := (rfl)
@[simp] theorem sw_setMs (k : Nat) (v : MemSt) (j : Nat) : sw (setMs k v s) j = sw s j := (rfl)
@[simp] theorem arb_setMs (k : Nat) (v : MemSt) (j : Nat) : arb (setMs k v s) j = arb s j := (rfl)
@[simp] theorem mon_setMs (k : Nat) (v : MemSt) (j : Nat) : mon (setMs k v s) j = mon s j := (rfl)
@[simp] theorem tq_setMs (k : Nat) (v : MemSt) (j : Nat) : tq (setMs k v s) j = tq s j := (rfl)
@[simp] theorem rslot_setMs (k : Nat) (v : MemSt) (j : Nat) : rslot (setMs k v s) j = rslot s j := (rfl)
@[simp] theorem dma_setMs (k : Nat) (v : MemSt) (j : Nat) : dma (setMs k v s) j = dma s j := (rfl)
@[simp] theorem stack_setMs (k : Nat) (v : MemSt) (j : Nat) : stack (setMs k v s) j = stack s j := (rfl)
@[simp] theorem ce_setMs (k : Nat) (v : MemSt) (j : Nat) : ce (setMs k v s) j = ce s j := (rfl)
@[simp] theorem fi_setMs (k : Nat) (v : MemSt) (j : Nat) : fi (setMs k v s) j = fi s j := (rfl)
@[simp] theorem lx_setMs (k : Nat) (v : MemSt) (j : Nat) : lx (setMs k v s) j = lx s j := (rfl)
@[simp] theorem peers_setMs (k : Nat) (v : MemSt) (j : Nat) : peers (setMs k v s) j = peers s j := (rfl)
@[simp] theorem memByte_setMs (k : Nat) (v : MemSt) (j : Nat) : memByte (setMs k v s) j = memByte s j := (rfl)

/-! ### setCe -/

@[simp] theorem setCe_pending (k : Nat) (v : CeSt) : (setCe k v s).pending = s.pending := (rfl)
@[simp] theorem setCe_regs (k : Nat) (v : CeSt) : (setCe k v s).regs = s.regs := (rfl)
@[simp] theorem setCe_staged (k : Nat) (v : CeSt) : (setCe k v s).staged = s.staged := (rfl)
@[simp] theorem setCe_ctr (k : Nat) (v : CeSt) : (setCe k v s).ctr = s.ctr := (rfl)
@[simp] theorem setCe_hold (k : Nat) (v : CeSt) : (setCe k v s).hold = s.hold := (rfl)
@[simp] theorem setCe_time (k : Nat) (v : CeSt) : (setCe k v s).time = s.time := (rfl)
@[simp] theorem setCe_tq (k : Nat) (v : CeSt) : (setCe k v s).tq = s.tq := (rfl)
@[simp] theorem setCe_log (k : Nat) (v : CeSt) : (setCe k v s).log = s.log := (rfl)
@[simp] theorem setCe_mons (k : Nat) (v : CeSt) : (setCe k v s).mons = s.mons := (rfl)
@[simp] theorem setCe_repairs (k : Nat) (v : CeSt) : (setCe k v s).repairs = s.repairs := (rfl)
@[simp] theorem setCe_host (k : Nat) (v : CeSt) : (setCe k v s).host = s.host := (rfl)
@[simp] theorem setCe_fuses (k : Nat) (v : CeSt) : (setCe k v s).fuses = s.fuses := (rfl)
@[simp] theorem setCe_power (k : Nat) (v : CeSt) : (setCe k v s).power = s.power := (rfl)
@[simp] theorem setCe_boot (k : Nat) (v : CeSt) : (setCe k v s).boot = s.boot := (rfl)
@[simp] theorem setCe_sec (k : Nat) (v : CeSt) : (setCe k v s).sec = s.sec := (rfl)
@[simp] theorem setCe_unit (k : Nat) (v : CeSt) : (setCe k v s).unit = s.unit := (rfl)
@[simp] theorem setCe_links (k : Nat) (v : CeSt) : (setCe k v s).links = s.links := (rfl)
@[simp] theorem setCe_fibers (k : Nat) (v : CeSt) : (setCe k v s).fibers = s.fibers := (rfl)
@[simp] theorem setCe_rings (k : Nat) (v : CeSt) : (setCe k v s).rings = s.rings := (rfl)
@[simp] theorem setCe_therm (k : Nat) (v : CeSt) : (setCe k v s).therm = s.therm := (rfl)
@[simp] theorem setCe_lp (k : Nat) (v : CeSt) : (setCe k v s).lp = s.lp := (rfl)
@[simp] theorem setCe_cal (k : Nat) (v : CeSt) : (setCe k v s).cal = s.cal := (rfl)
@[simp] theorem setCe_fwd (k : Nat) (v : CeSt) : (setCe k v s).fwd = s.fwd := (rfl)
@[simp] theorem setCe_sw (k : Nat) (v : CeSt) : (setCe k v s).sw = s.sw := (rfl)
@[simp] theorem setCe_arbs (k : Nat) (v : CeSt) : (setCe k v s).arbs = s.arbs := (rfl)
@[simp] theorem setCe_mem (k : Nat) (v : CeSt) : (setCe k v s).mem = s.mem := (rfl)
@[simp] theorem setCe_igStacks (k : Nat) (v : CeSt) : (setCe k v s).igStacks = s.igStacks := (rfl)
@[simp] theorem setCe_ms (k : Nat) (v : CeSt) : (setCe k v s).ms = s.ms := (rfl)
@[simp] theorem setCe_fi (k : Nat) (v : CeSt) : (setCe k v s).fi = s.fi := (rfl)
@[simp] theorem setCe_lx (k : Nat) (v : CeSt) : (setCe k v s).lx = s.lx := (rfl)
@[simp] theorem setCe_peers (k : Nat) (v : CeSt) : (setCe k v s).peers = s.peers := (rfl)
@[simp] theorem setCe_descs (k : Nat) (v : CeSt) : (setCe k v s).descs = s.descs := (rfl)
@[simp] theorem setCe_accCtr (k : Nat) (v : CeSt) : (setCe k v s).accCtr = s.accCtr := (rfl)
@[simp] theorem setCe_pktCtr (k : Nat) (v : CeSt) : (setCe k v s).pktCtr = s.pktCtr := (rfl)
@[simp] theorem setCe_out (k : Nat) (v : CeSt) : (setCe k v s).out = s.out := (rfl)
@[simp] theorem setCe_freeCtr (k : Nat) (v : CeSt) : (setCe k v s).freeCtr = s.freeCtr := (rfl)
@[simp] theorem reg_setCe (k : Nat) (v : CeSt) (j : Nat) : reg (setCe k v s) j = reg s j := (rfl)
@[simp] theorem ctr_setCe (k : Nat) (v : CeSt) (j : Nat) : ctr (setCe k v s) j = ctr s j := (rfl)
@[simp] theorem link_setCe (k : Nat) (v : CeSt) (j : Nat) : link (setCe k v s) j = link s j := (rfl)
@[simp] theorem fiber_setCe (k : Nat) (v : CeSt) (j : Nat) : fiber (setCe k v s) j = fiber s j := (rfl)
@[simp] theorem ring_setCe (k : Nat) (v : CeSt) (j : Nat) : ring (setCe k v s) j = ring s j := (rfl)
@[simp] theorem therm_setCe (k : Nat) (v : CeSt) (j : Nat) : therm (setCe k v s) j = therm s j := (rfl)
@[simp] theorem lp_setCe (k : Nat) (v : CeSt) (j : Nat) : lp (setCe k v s) j = lp s j := (rfl)
@[simp] theorem fwd_setCe (k : Nat) (v : CeSt) (j : Nat) : fwd (setCe k v s) j = fwd s j := (rfl)
@[simp] theorem sw_setCe (k : Nat) (v : CeSt) (j : Nat) : sw (setCe k v s) j = sw s j := (rfl)
@[simp] theorem arb_setCe (k : Nat) (v : CeSt) (j : Nat) : arb (setCe k v s) j = arb s j := (rfl)
@[simp] theorem mon_setCe (k : Nat) (v : CeSt) (j : Nat) : mon (setCe k v s) j = mon s j := (rfl)
@[simp] theorem tq_setCe (k : Nat) (v : CeSt) (j : Nat) : tq (setCe k v s) j = tq s j := (rfl)
@[simp] theorem rslot_setCe (k : Nat) (v : CeSt) (j : Nat) : rslot (setCe k v s) j = rslot s j := (rfl)
@[simp] theorem dma_setCe (k : Nat) (v : CeSt) (j : Nat) : dma (setCe k v s) j = dma s j := (rfl)
@[simp] theorem stack_setCe (k : Nat) (v : CeSt) (j : Nat) : stack (setCe k v s) j = stack s j := (rfl)
@[simp] theorem ms_setCe (k : Nat) (v : CeSt) (j : Nat) : ms (setCe k v s) j = ms s j := (rfl)
@[simp] theorem fi_setCe (k : Nat) (v : CeSt) (j : Nat) : fi (setCe k v s) j = fi s j := (rfl)
@[simp] theorem lx_setCe (k : Nat) (v : CeSt) (j : Nat) : lx (setCe k v s) j = lx s j := (rfl)
@[simp] theorem peers_setCe (k : Nat) (v : CeSt) (j : Nat) : peers (setCe k v s) j = peers s j := (rfl)
@[simp] theorem memByte_setCe (k : Nat) (v : CeSt) (j : Nat) : memByte (setCe k v s) j = memByte s j := (rfl)

/-! ### setFi -/

@[simp] theorem setFi_pending (k : Nat) (v : FiSt) : (setFi k v s).pending = s.pending := (rfl)
@[simp] theorem setFi_regs (k : Nat) (v : FiSt) : (setFi k v s).regs = s.regs := (rfl)
@[simp] theorem setFi_staged (k : Nat) (v : FiSt) : (setFi k v s).staged = s.staged := (rfl)
@[simp] theorem setFi_ctr (k : Nat) (v : FiSt) : (setFi k v s).ctr = s.ctr := (rfl)
@[simp] theorem setFi_hold (k : Nat) (v : FiSt) : (setFi k v s).hold = s.hold := (rfl)
@[simp] theorem setFi_time (k : Nat) (v : FiSt) : (setFi k v s).time = s.time := (rfl)
@[simp] theorem setFi_tq (k : Nat) (v : FiSt) : (setFi k v s).tq = s.tq := (rfl)
@[simp] theorem setFi_log (k : Nat) (v : FiSt) : (setFi k v s).log = s.log := (rfl)
@[simp] theorem setFi_mons (k : Nat) (v : FiSt) : (setFi k v s).mons = s.mons := (rfl)
@[simp] theorem setFi_repairs (k : Nat) (v : FiSt) : (setFi k v s).repairs = s.repairs := (rfl)
@[simp] theorem setFi_host (k : Nat) (v : FiSt) : (setFi k v s).host = s.host := (rfl)
@[simp] theorem setFi_fuses (k : Nat) (v : FiSt) : (setFi k v s).fuses = s.fuses := (rfl)
@[simp] theorem setFi_power (k : Nat) (v : FiSt) : (setFi k v s).power = s.power := (rfl)
@[simp] theorem setFi_boot (k : Nat) (v : FiSt) : (setFi k v s).boot = s.boot := (rfl)
@[simp] theorem setFi_sec (k : Nat) (v : FiSt) : (setFi k v s).sec = s.sec := (rfl)
@[simp] theorem setFi_unit (k : Nat) (v : FiSt) : (setFi k v s).unit = s.unit := (rfl)
@[simp] theorem setFi_links (k : Nat) (v : FiSt) : (setFi k v s).links = s.links := (rfl)
@[simp] theorem setFi_fibers (k : Nat) (v : FiSt) : (setFi k v s).fibers = s.fibers := (rfl)
@[simp] theorem setFi_rings (k : Nat) (v : FiSt) : (setFi k v s).rings = s.rings := (rfl)
@[simp] theorem setFi_therm (k : Nat) (v : FiSt) : (setFi k v s).therm = s.therm := (rfl)
@[simp] theorem setFi_lp (k : Nat) (v : FiSt) : (setFi k v s).lp = s.lp := (rfl)
@[simp] theorem setFi_cal (k : Nat) (v : FiSt) : (setFi k v s).cal = s.cal := (rfl)
@[simp] theorem setFi_fwd (k : Nat) (v : FiSt) : (setFi k v s).fwd = s.fwd := (rfl)
@[simp] theorem setFi_sw (k : Nat) (v : FiSt) : (setFi k v s).sw = s.sw := (rfl)
@[simp] theorem setFi_arbs (k : Nat) (v : FiSt) : (setFi k v s).arbs = s.arbs := (rfl)
@[simp] theorem setFi_mem (k : Nat) (v : FiSt) : (setFi k v s).mem = s.mem := (rfl)
@[simp] theorem setFi_igStacks (k : Nat) (v : FiSt) : (setFi k v s).igStacks = s.igStacks := (rfl)
@[simp] theorem setFi_ms (k : Nat) (v : FiSt) : (setFi k v s).ms = s.ms := (rfl)
@[simp] theorem setFi_ce (k : Nat) (v : FiSt) : (setFi k v s).ce = s.ce := (rfl)
@[simp] theorem setFi_lx (k : Nat) (v : FiSt) : (setFi k v s).lx = s.lx := (rfl)
@[simp] theorem setFi_peers (k : Nat) (v : FiSt) : (setFi k v s).peers = s.peers := (rfl)
@[simp] theorem setFi_descs (k : Nat) (v : FiSt) : (setFi k v s).descs = s.descs := (rfl)
@[simp] theorem setFi_accCtr (k : Nat) (v : FiSt) : (setFi k v s).accCtr = s.accCtr := (rfl)
@[simp] theorem setFi_pktCtr (k : Nat) (v : FiSt) : (setFi k v s).pktCtr = s.pktCtr := (rfl)
@[simp] theorem setFi_out (k : Nat) (v : FiSt) : (setFi k v s).out = s.out := (rfl)
@[simp] theorem setFi_freeCtr (k : Nat) (v : FiSt) : (setFi k v s).freeCtr = s.freeCtr := (rfl)
@[simp] theorem reg_setFi (k : Nat) (v : FiSt) (j : Nat) : reg (setFi k v s) j = reg s j := (rfl)
@[simp] theorem ctr_setFi (k : Nat) (v : FiSt) (j : Nat) : ctr (setFi k v s) j = ctr s j := (rfl)
@[simp] theorem link_setFi (k : Nat) (v : FiSt) (j : Nat) : link (setFi k v s) j = link s j := (rfl)
@[simp] theorem fiber_setFi (k : Nat) (v : FiSt) (j : Nat) : fiber (setFi k v s) j = fiber s j := (rfl)
@[simp] theorem ring_setFi (k : Nat) (v : FiSt) (j : Nat) : ring (setFi k v s) j = ring s j := (rfl)
@[simp] theorem therm_setFi (k : Nat) (v : FiSt) (j : Nat) : therm (setFi k v s) j = therm s j := (rfl)
@[simp] theorem lp_setFi (k : Nat) (v : FiSt) (j : Nat) : lp (setFi k v s) j = lp s j := (rfl)
@[simp] theorem fwd_setFi (k : Nat) (v : FiSt) (j : Nat) : fwd (setFi k v s) j = fwd s j := (rfl)
@[simp] theorem sw_setFi (k : Nat) (v : FiSt) (j : Nat) : sw (setFi k v s) j = sw s j := (rfl)
@[simp] theorem arb_setFi (k : Nat) (v : FiSt) (j : Nat) : arb (setFi k v s) j = arb s j := (rfl)
@[simp] theorem mon_setFi (k : Nat) (v : FiSt) (j : Nat) : mon (setFi k v s) j = mon s j := (rfl)
@[simp] theorem tq_setFi (k : Nat) (v : FiSt) (j : Nat) : tq (setFi k v s) j = tq s j := (rfl)
@[simp] theorem rslot_setFi (k : Nat) (v : FiSt) (j : Nat) : rslot (setFi k v s) j = rslot s j := (rfl)
@[simp] theorem dma_setFi (k : Nat) (v : FiSt) (j : Nat) : dma (setFi k v s) j = dma s j := (rfl)
@[simp] theorem stack_setFi (k : Nat) (v : FiSt) (j : Nat) : stack (setFi k v s) j = stack s j := (rfl)
@[simp] theorem ms_setFi (k : Nat) (v : FiSt) (j : Nat) : ms (setFi k v s) j = ms s j := (rfl)
@[simp] theorem ce_setFi (k : Nat) (v : FiSt) (j : Nat) : ce (setFi k v s) j = ce s j := (rfl)
@[simp] theorem lx_setFi (k : Nat) (v : FiSt) (j : Nat) : lx (setFi k v s) j = lx s j := (rfl)
@[simp] theorem peers_setFi (k : Nat) (v : FiSt) (j : Nat) : peers (setFi k v s) j = peers s j := (rfl)
@[simp] theorem memByte_setFi (k : Nat) (v : FiSt) (j : Nat) : memByte (setFi k v s) j = memByte s j := (rfl)

/-! ### setLx -/

@[simp] theorem setLx_pending (k : Nat) (v : LxSt) : (setLx k v s).pending = s.pending := (rfl)
@[simp] theorem setLx_regs (k : Nat) (v : LxSt) : (setLx k v s).regs = s.regs := (rfl)
@[simp] theorem setLx_staged (k : Nat) (v : LxSt) : (setLx k v s).staged = s.staged := (rfl)
@[simp] theorem setLx_ctr (k : Nat) (v : LxSt) : (setLx k v s).ctr = s.ctr := (rfl)
@[simp] theorem setLx_hold (k : Nat) (v : LxSt) : (setLx k v s).hold = s.hold := (rfl)
@[simp] theorem setLx_time (k : Nat) (v : LxSt) : (setLx k v s).time = s.time := (rfl)
@[simp] theorem setLx_tq (k : Nat) (v : LxSt) : (setLx k v s).tq = s.tq := (rfl)
@[simp] theorem setLx_log (k : Nat) (v : LxSt) : (setLx k v s).log = s.log := (rfl)
@[simp] theorem setLx_mons (k : Nat) (v : LxSt) : (setLx k v s).mons = s.mons := (rfl)
@[simp] theorem setLx_repairs (k : Nat) (v : LxSt) : (setLx k v s).repairs = s.repairs := (rfl)
@[simp] theorem setLx_host (k : Nat) (v : LxSt) : (setLx k v s).host = s.host := (rfl)
@[simp] theorem setLx_fuses (k : Nat) (v : LxSt) : (setLx k v s).fuses = s.fuses := (rfl)
@[simp] theorem setLx_power (k : Nat) (v : LxSt) : (setLx k v s).power = s.power := (rfl)
@[simp] theorem setLx_boot (k : Nat) (v : LxSt) : (setLx k v s).boot = s.boot := (rfl)
@[simp] theorem setLx_sec (k : Nat) (v : LxSt) : (setLx k v s).sec = s.sec := (rfl)
@[simp] theorem setLx_unit (k : Nat) (v : LxSt) : (setLx k v s).unit = s.unit := (rfl)
@[simp] theorem setLx_links (k : Nat) (v : LxSt) : (setLx k v s).links = s.links := (rfl)
@[simp] theorem setLx_fibers (k : Nat) (v : LxSt) : (setLx k v s).fibers = s.fibers := (rfl)
@[simp] theorem setLx_rings (k : Nat) (v : LxSt) : (setLx k v s).rings = s.rings := (rfl)
@[simp] theorem setLx_therm (k : Nat) (v : LxSt) : (setLx k v s).therm = s.therm := (rfl)
@[simp] theorem setLx_lp (k : Nat) (v : LxSt) : (setLx k v s).lp = s.lp := (rfl)
@[simp] theorem setLx_cal (k : Nat) (v : LxSt) : (setLx k v s).cal = s.cal := (rfl)
@[simp] theorem setLx_fwd (k : Nat) (v : LxSt) : (setLx k v s).fwd = s.fwd := (rfl)
@[simp] theorem setLx_sw (k : Nat) (v : LxSt) : (setLx k v s).sw = s.sw := (rfl)
@[simp] theorem setLx_arbs (k : Nat) (v : LxSt) : (setLx k v s).arbs = s.arbs := (rfl)
@[simp] theorem setLx_mem (k : Nat) (v : LxSt) : (setLx k v s).mem = s.mem := (rfl)
@[simp] theorem setLx_igStacks (k : Nat) (v : LxSt) : (setLx k v s).igStacks = s.igStacks := (rfl)
@[simp] theorem setLx_ms (k : Nat) (v : LxSt) : (setLx k v s).ms = s.ms := (rfl)
@[simp] theorem setLx_ce (k : Nat) (v : LxSt) : (setLx k v s).ce = s.ce := (rfl)
@[simp] theorem setLx_fi (k : Nat) (v : LxSt) : (setLx k v s).fi = s.fi := (rfl)
@[simp] theorem setLx_peers (k : Nat) (v : LxSt) : (setLx k v s).peers = s.peers := (rfl)
@[simp] theorem setLx_descs (k : Nat) (v : LxSt) : (setLx k v s).descs = s.descs := (rfl)
@[simp] theorem setLx_accCtr (k : Nat) (v : LxSt) : (setLx k v s).accCtr = s.accCtr := (rfl)
@[simp] theorem setLx_pktCtr (k : Nat) (v : LxSt) : (setLx k v s).pktCtr = s.pktCtr := (rfl)
@[simp] theorem setLx_out (k : Nat) (v : LxSt) : (setLx k v s).out = s.out := (rfl)
@[simp] theorem setLx_freeCtr (k : Nat) (v : LxSt) : (setLx k v s).freeCtr = s.freeCtr := (rfl)
@[simp] theorem reg_setLx (k : Nat) (v : LxSt) (j : Nat) : reg (setLx k v s) j = reg s j := (rfl)
@[simp] theorem ctr_setLx (k : Nat) (v : LxSt) (j : Nat) : ctr (setLx k v s) j = ctr s j := (rfl)
@[simp] theorem link_setLx (k : Nat) (v : LxSt) (j : Nat) : link (setLx k v s) j = link s j := (rfl)
@[simp] theorem fiber_setLx (k : Nat) (v : LxSt) (j : Nat) : fiber (setLx k v s) j = fiber s j := (rfl)
@[simp] theorem ring_setLx (k : Nat) (v : LxSt) (j : Nat) : ring (setLx k v s) j = ring s j := (rfl)
@[simp] theorem therm_setLx (k : Nat) (v : LxSt) (j : Nat) : therm (setLx k v s) j = therm s j := (rfl)
@[simp] theorem lp_setLx (k : Nat) (v : LxSt) (j : Nat) : lp (setLx k v s) j = lp s j := (rfl)
@[simp] theorem fwd_setLx (k : Nat) (v : LxSt) (j : Nat) : fwd (setLx k v s) j = fwd s j := (rfl)
@[simp] theorem sw_setLx (k : Nat) (v : LxSt) (j : Nat) : sw (setLx k v s) j = sw s j := (rfl)
@[simp] theorem arb_setLx (k : Nat) (v : LxSt) (j : Nat) : arb (setLx k v s) j = arb s j := (rfl)
@[simp] theorem mon_setLx (k : Nat) (v : LxSt) (j : Nat) : mon (setLx k v s) j = mon s j := (rfl)
@[simp] theorem tq_setLx (k : Nat) (v : LxSt) (j : Nat) : tq (setLx k v s) j = tq s j := (rfl)
@[simp] theorem rslot_setLx (k : Nat) (v : LxSt) (j : Nat) : rslot (setLx k v s) j = rslot s j := (rfl)
@[simp] theorem dma_setLx (k : Nat) (v : LxSt) (j : Nat) : dma (setLx k v s) j = dma s j := (rfl)
@[simp] theorem stack_setLx (k : Nat) (v : LxSt) (j : Nat) : stack (setLx k v s) j = stack s j := (rfl)
@[simp] theorem ms_setLx (k : Nat) (v : LxSt) (j : Nat) : ms (setLx k v s) j = ms s j := (rfl)
@[simp] theorem ce_setLx (k : Nat) (v : LxSt) (j : Nat) : ce (setLx k v s) j = ce s j := (rfl)
@[simp] theorem fi_setLx (k : Nat) (v : LxSt) (j : Nat) : fi (setLx k v s) j = fi s j := (rfl)
@[simp] theorem peers_setLx (k : Nat) (v : LxSt) (j : Nat) : peers (setLx k v s) j = peers s j := (rfl)
@[simp] theorem memByte_setLx (k : Nat) (v : LxSt) (j : Nat) : memByte (setLx k v s) j = memByte s j := (rfl)

/-! ### setPeers -/

@[simp] theorem setPeers_pending (k : Nat) (v : PeerSt) : (setPeers k v s).pending = s.pending := (rfl)
@[simp] theorem setPeers_regs (k : Nat) (v : PeerSt) : (setPeers k v s).regs = s.regs := (rfl)
@[simp] theorem setPeers_staged (k : Nat) (v : PeerSt) : (setPeers k v s).staged = s.staged := (rfl)
@[simp] theorem setPeers_ctr (k : Nat) (v : PeerSt) : (setPeers k v s).ctr = s.ctr := (rfl)
@[simp] theorem setPeers_hold (k : Nat) (v : PeerSt) : (setPeers k v s).hold = s.hold := (rfl)
@[simp] theorem setPeers_time (k : Nat) (v : PeerSt) : (setPeers k v s).time = s.time := (rfl)
@[simp] theorem setPeers_tq (k : Nat) (v : PeerSt) : (setPeers k v s).tq = s.tq := (rfl)
@[simp] theorem setPeers_log (k : Nat) (v : PeerSt) : (setPeers k v s).log = s.log := (rfl)
@[simp] theorem setPeers_mons (k : Nat) (v : PeerSt) : (setPeers k v s).mons = s.mons := (rfl)
@[simp] theorem setPeers_repairs (k : Nat) (v : PeerSt) : (setPeers k v s).repairs = s.repairs := (rfl)
@[simp] theorem setPeers_host (k : Nat) (v : PeerSt) : (setPeers k v s).host = s.host := (rfl)
@[simp] theorem setPeers_fuses (k : Nat) (v : PeerSt) : (setPeers k v s).fuses = s.fuses := (rfl)
@[simp] theorem setPeers_power (k : Nat) (v : PeerSt) : (setPeers k v s).power = s.power := (rfl)
@[simp] theorem setPeers_boot (k : Nat) (v : PeerSt) : (setPeers k v s).boot = s.boot := (rfl)
@[simp] theorem setPeers_sec (k : Nat) (v : PeerSt) : (setPeers k v s).sec = s.sec := (rfl)
@[simp] theorem setPeers_unit (k : Nat) (v : PeerSt) : (setPeers k v s).unit = s.unit := (rfl)
@[simp] theorem setPeers_links (k : Nat) (v : PeerSt) : (setPeers k v s).links = s.links := (rfl)
@[simp] theorem setPeers_fibers (k : Nat) (v : PeerSt) : (setPeers k v s).fibers = s.fibers := (rfl)
@[simp] theorem setPeers_rings (k : Nat) (v : PeerSt) : (setPeers k v s).rings = s.rings := (rfl)
@[simp] theorem setPeers_therm (k : Nat) (v : PeerSt) : (setPeers k v s).therm = s.therm := (rfl)
@[simp] theorem setPeers_lp (k : Nat) (v : PeerSt) : (setPeers k v s).lp = s.lp := (rfl)
@[simp] theorem setPeers_cal (k : Nat) (v : PeerSt) : (setPeers k v s).cal = s.cal := (rfl)
@[simp] theorem setPeers_fwd (k : Nat) (v : PeerSt) : (setPeers k v s).fwd = s.fwd := (rfl)
@[simp] theorem setPeers_sw (k : Nat) (v : PeerSt) : (setPeers k v s).sw = s.sw := (rfl)
@[simp] theorem setPeers_arbs (k : Nat) (v : PeerSt) : (setPeers k v s).arbs = s.arbs := (rfl)
@[simp] theorem setPeers_mem (k : Nat) (v : PeerSt) : (setPeers k v s).mem = s.mem := (rfl)
@[simp] theorem setPeers_igStacks (k : Nat) (v : PeerSt) : (setPeers k v s).igStacks = s.igStacks := (rfl)
@[simp] theorem setPeers_ms (k : Nat) (v : PeerSt) : (setPeers k v s).ms = s.ms := (rfl)
@[simp] theorem setPeers_ce (k : Nat) (v : PeerSt) : (setPeers k v s).ce = s.ce := (rfl)
@[simp] theorem setPeers_fi (k : Nat) (v : PeerSt) : (setPeers k v s).fi = s.fi := (rfl)
@[simp] theorem setPeers_lx (k : Nat) (v : PeerSt) : (setPeers k v s).lx = s.lx := (rfl)
@[simp] theorem setPeers_descs (k : Nat) (v : PeerSt) : (setPeers k v s).descs = s.descs := (rfl)
@[simp] theorem setPeers_accCtr (k : Nat) (v : PeerSt) : (setPeers k v s).accCtr = s.accCtr := (rfl)
@[simp] theorem setPeers_pktCtr (k : Nat) (v : PeerSt) : (setPeers k v s).pktCtr = s.pktCtr := (rfl)
@[simp] theorem setPeers_out (k : Nat) (v : PeerSt) : (setPeers k v s).out = s.out := (rfl)
@[simp] theorem setPeers_freeCtr (k : Nat) (v : PeerSt) : (setPeers k v s).freeCtr = s.freeCtr := (rfl)
@[simp] theorem reg_setPeers (k : Nat) (v : PeerSt) (j : Nat) : reg (setPeers k v s) j = reg s j := (rfl)
@[simp] theorem ctr_setPeers (k : Nat) (v : PeerSt) (j : Nat) : ctr (setPeers k v s) j = ctr s j := (rfl)
@[simp] theorem link_setPeers (k : Nat) (v : PeerSt) (j : Nat) : link (setPeers k v s) j = link s j := (rfl)
@[simp] theorem fiber_setPeers (k : Nat) (v : PeerSt) (j : Nat) : fiber (setPeers k v s) j = fiber s j := (rfl)
@[simp] theorem ring_setPeers (k : Nat) (v : PeerSt) (j : Nat) : ring (setPeers k v s) j = ring s j := (rfl)
@[simp] theorem therm_setPeers (k : Nat) (v : PeerSt) (j : Nat) : therm (setPeers k v s) j = therm s j := (rfl)
@[simp] theorem lp_setPeers (k : Nat) (v : PeerSt) (j : Nat) : lp (setPeers k v s) j = lp s j := (rfl)
@[simp] theorem fwd_setPeers (k : Nat) (v : PeerSt) (j : Nat) : fwd (setPeers k v s) j = fwd s j := (rfl)
@[simp] theorem sw_setPeers (k : Nat) (v : PeerSt) (j : Nat) : sw (setPeers k v s) j = sw s j := (rfl)
@[simp] theorem arb_setPeers (k : Nat) (v : PeerSt) (j : Nat) : arb (setPeers k v s) j = arb s j := (rfl)
@[simp] theorem mon_setPeers (k : Nat) (v : PeerSt) (j : Nat) : mon (setPeers k v s) j = mon s j := (rfl)
@[simp] theorem tq_setPeers (k : Nat) (v : PeerSt) (j : Nat) : tq (setPeers k v s) j = tq s j := (rfl)
@[simp] theorem rslot_setPeers (k : Nat) (v : PeerSt) (j : Nat) : rslot (setPeers k v s) j = rslot s j := (rfl)
@[simp] theorem dma_setPeers (k : Nat) (v : PeerSt) (j : Nat) : dma (setPeers k v s) j = dma s j := (rfl)
@[simp] theorem stack_setPeers (k : Nat) (v : PeerSt) (j : Nat) : stack (setPeers k v s) j = stack s j := (rfl)
@[simp] theorem ms_setPeers (k : Nat) (v : PeerSt) (j : Nat) : ms (setPeers k v s) j = ms s j := (rfl)
@[simp] theorem ce_setPeers (k : Nat) (v : PeerSt) (j : Nat) : ce (setPeers k v s) j = ce s j := (rfl)
@[simp] theorem fi_setPeers (k : Nat) (v : PeerSt) (j : Nat) : fi (setPeers k v s) j = fi s j := (rfl)
@[simp] theorem lx_setPeers (k : Nat) (v : PeerSt) (j : Nat) : lx (setPeers k v s) j = lx s j := (rfl)
@[simp] theorem memByte_setPeers (k : Nat) (v : PeerSt) (j : Nat) : memByte (setPeers k v s) j = memByte s j := (rfl)

/-! ### setMemByte -/

@[simp] theorem setMemByte_pending (k : Nat) (v : Byte) : (setMemByte k v s).pending = s.pending := (rfl)
@[simp] theorem setMemByte_regs (k : Nat) (v : Byte) : (setMemByte k v s).regs = s.regs := (rfl)
@[simp] theorem setMemByte_staged (k : Nat) (v : Byte) : (setMemByte k v s).staged = s.staged := (rfl)
@[simp] theorem setMemByte_ctr (k : Nat) (v : Byte) : (setMemByte k v s).ctr = s.ctr := (rfl)
@[simp] theorem setMemByte_hold (k : Nat) (v : Byte) : (setMemByte k v s).hold = s.hold := (rfl)
@[simp] theorem setMemByte_time (k : Nat) (v : Byte) : (setMemByte k v s).time = s.time := (rfl)
@[simp] theorem setMemByte_tq (k : Nat) (v : Byte) : (setMemByte k v s).tq = s.tq := (rfl)
@[simp] theorem setMemByte_log (k : Nat) (v : Byte) : (setMemByte k v s).log = s.log := (rfl)
@[simp] theorem setMemByte_mons (k : Nat) (v : Byte) : (setMemByte k v s).mons = s.mons := (rfl)
@[simp] theorem setMemByte_repairs (k : Nat) (v : Byte) : (setMemByte k v s).repairs = s.repairs := (rfl)
@[simp] theorem setMemByte_host (k : Nat) (v : Byte) : (setMemByte k v s).host = s.host := (rfl)
@[simp] theorem setMemByte_fuses (k : Nat) (v : Byte) : (setMemByte k v s).fuses = s.fuses := (rfl)
@[simp] theorem setMemByte_power (k : Nat) (v : Byte) : (setMemByte k v s).power = s.power := (rfl)
@[simp] theorem setMemByte_boot (k : Nat) (v : Byte) : (setMemByte k v s).boot = s.boot := (rfl)
@[simp] theorem setMemByte_sec (k : Nat) (v : Byte) : (setMemByte k v s).sec = s.sec := (rfl)
@[simp] theorem setMemByte_unit (k : Nat) (v : Byte) : (setMemByte k v s).unit = s.unit := (rfl)
@[simp] theorem setMemByte_links (k : Nat) (v : Byte) : (setMemByte k v s).links = s.links := (rfl)
@[simp] theorem setMemByte_fibers (k : Nat) (v : Byte) : (setMemByte k v s).fibers = s.fibers := (rfl)
@[simp] theorem setMemByte_rings (k : Nat) (v : Byte) : (setMemByte k v s).rings = s.rings := (rfl)
@[simp] theorem setMemByte_therm (k : Nat) (v : Byte) : (setMemByte k v s).therm = s.therm := (rfl)
@[simp] theorem setMemByte_lp (k : Nat) (v : Byte) : (setMemByte k v s).lp = s.lp := (rfl)
@[simp] theorem setMemByte_cal (k : Nat) (v : Byte) : (setMemByte k v s).cal = s.cal := (rfl)
@[simp] theorem setMemByte_fwd (k : Nat) (v : Byte) : (setMemByte k v s).fwd = s.fwd := (rfl)
@[simp] theorem setMemByte_sw (k : Nat) (v : Byte) : (setMemByte k v s).sw = s.sw := (rfl)
@[simp] theorem setMemByte_arbs (k : Nat) (v : Byte) : (setMemByte k v s).arbs = s.arbs := (rfl)
@[simp] theorem setMemByte_igStacks (k : Nat) (v : Byte) : (setMemByte k v s).igStacks = s.igStacks := (rfl)
@[simp] theorem setMemByte_ms (k : Nat) (v : Byte) : (setMemByte k v s).ms = s.ms := (rfl)
@[simp] theorem setMemByte_ce (k : Nat) (v : Byte) : (setMemByte k v s).ce = s.ce := (rfl)
@[simp] theorem setMemByte_fi (k : Nat) (v : Byte) : (setMemByte k v s).fi = s.fi := (rfl)
@[simp] theorem setMemByte_lx (k : Nat) (v : Byte) : (setMemByte k v s).lx = s.lx := (rfl)
@[simp] theorem setMemByte_peers (k : Nat) (v : Byte) : (setMemByte k v s).peers = s.peers := (rfl)
@[simp] theorem setMemByte_descs (k : Nat) (v : Byte) : (setMemByte k v s).descs = s.descs := (rfl)
@[simp] theorem setMemByte_accCtr (k : Nat) (v : Byte) : (setMemByte k v s).accCtr = s.accCtr := (rfl)
@[simp] theorem setMemByte_pktCtr (k : Nat) (v : Byte) : (setMemByte k v s).pktCtr = s.pktCtr := (rfl)
@[simp] theorem setMemByte_out (k : Nat) (v : Byte) : (setMemByte k v s).out = s.out := (rfl)
@[simp] theorem setMemByte_freeCtr (k : Nat) (v : Byte) : (setMemByte k v s).freeCtr = s.freeCtr := (rfl)
@[simp] theorem reg_setMemByte (k : Nat) (v : Byte) (j : Nat) : reg (setMemByte k v s) j = reg s j := (rfl)
@[simp] theorem ctr_setMemByte (k : Nat) (v : Byte) (j : Nat) : ctr (setMemByte k v s) j = ctr s j := (rfl)
@[simp] theorem link_setMemByte (k : Nat) (v : Byte) (j : Nat) : link (setMemByte k v s) j = link s j := (rfl)
@[simp] theorem fiber_setMemByte (k : Nat) (v : Byte) (j : Nat) : fiber (setMemByte k v s) j = fiber s j := (rfl)
@[simp] theorem ring_setMemByte (k : Nat) (v : Byte) (j : Nat) : ring (setMemByte k v s) j = ring s j := (rfl)
@[simp] theorem therm_setMemByte (k : Nat) (v : Byte) (j : Nat) : therm (setMemByte k v s) j = therm s j := (rfl)
@[simp] theorem lp_setMemByte (k : Nat) (v : Byte) (j : Nat) : lp (setMemByte k v s) j = lp s j := (rfl)
@[simp] theorem fwd_setMemByte (k : Nat) (v : Byte) (j : Nat) : fwd (setMemByte k v s) j = fwd s j := (rfl)
@[simp] theorem sw_setMemByte (k : Nat) (v : Byte) (j : Nat) : sw (setMemByte k v s) j = sw s j := (rfl)
@[simp] theorem arb_setMemByte (k : Nat) (v : Byte) (j : Nat) : arb (setMemByte k v s) j = arb s j := (rfl)
@[simp] theorem mon_setMemByte (k : Nat) (v : Byte) (j : Nat) : mon (setMemByte k v s) j = mon s j := (rfl)
@[simp] theorem tq_setMemByte (k : Nat) (v : Byte) (j : Nat) : tq (setMemByte k v s) j = tq s j := (rfl)
@[simp] theorem rslot_setMemByte (k : Nat) (v : Byte) (j : Nat) : rslot (setMemByte k v s) j = rslot s j := (rfl)
@[simp] theorem dma_setMemByte (k : Nat) (v : Byte) (j : Nat) : dma (setMemByte k v s) j = dma s j := (rfl)
@[simp] theorem stack_setMemByte (k : Nat) (v : Byte) (j : Nat) : stack (setMemByte k v s) j = stack s j := (rfl)
@[simp] theorem ms_setMemByte (k : Nat) (v : Byte) (j : Nat) : ms (setMemByte k v s) j = ms s j := (rfl)
@[simp] theorem ce_setMemByte (k : Nat) (v : Byte) (j : Nat) : ce (setMemByte k v s) j = ce s j := (rfl)
@[simp] theorem fi_setMemByte (k : Nat) (v : Byte) (j : Nat) : fi (setMemByte k v s) j = fi s j := (rfl)
@[simp] theorem lx_setMemByte (k : Nat) (v : Byte) (j : Nat) : lx (setMemByte k v s) j = lx s j := (rfl)
@[simp] theorem peers_setMemByte (k : Nat) (v : Byte) (j : Nat) : peers (setMemByte k v s) j = peers s j := (rfl)

/-! ### Reads after writes -/

@[simp] theorem reg_setReg_same (a : Nat) (v : Word) : reg (setReg a v s) a = v := Tbl.get_set_same _ _ _ _

theorem reg_setReg_ne {a b : Nat} (v : Word) (h : b ≠ a) : reg (setReg a v s) b = reg s b := Tbl.get_set_ne _ _ _ _ h

theorem reg_setReg (a b : Nat) (v : Word) : reg (setReg a v s) b = if b = a then v else reg s b := by
  by_cases h : b = a
  · subst h; simp
  · simp [h, reg_setReg_ne]

@[simp] theorem reg_setRf_same (a hi lo v : Nat) : reg (setRf a hi lo v s) a = setFld (reg s a) hi lo v := reg_setReg_same ..

theorem reg_setRf_ne {a b : Nat} (hi lo v : Nat) (h : b ≠ a) : reg (setRf a hi lo v s) b = reg s b := reg_setReg_ne _ _ h

@[simp] theorem reg_setRb_same (a b : Nat) (v : Bool) : reg (setRb a b v s) a = setFld (reg s a) b b (b2n v) := reg_setReg_same ..

theorem reg_setRb_ne {a c : Nat} (b : Nat) (v : Bool) (h : c ≠ a) : reg (setRb a b v s) c = reg s c := reg_setReg_ne _ _ h

@[simp] theorem ctr_count_same (a n : Nat) :
    ctr (count a n s) a = BitVec.ofNat 48 (min ((ctr s a).toNat + n) (2 ^ 48 - 1)) := Tbl.get_set_same _ _ _ _

theorem ctr_count_ne {a b : Nat} (n : Nat) (h : b ≠ a) : ctr (count a n s) b = ctr s b := Tbl.get_set_ne _ _ _ _ h

theorem ctr_count1_ne {a b : Nat} (h : b ≠ a) : ctr (count1 a s) b = ctr s b := ctr_count_ne s 1 h

@[simp] theorem link_setLink_same (k : Nat) (v : LinkSt) : link (setLink k v s) k = v := Tbl.get_set_same _ _ _ _
theorem link_setLink_ne {j k : Nat} (v : LinkSt) (h : j ≠ k) : link (setLink k v s) j = link s j := Tbl.get_set_ne _ _ _ _ h
@[simp] theorem fiber_setFiber_same (k : Nat) (v : FiberSt) : fiber (setFiber k v s) k = v := Tbl.get_set_same _ _ _ _
theorem fiber_setFiber_ne {j k : Nat} (v : FiberSt) (h : j ≠ k) : fiber (setFiber k v s) j = fiber s j := Tbl.get_set_ne _ _ _ _ h
@[simp] theorem ring_setRing_same (k : Nat) (v : RingSt) : ring (setRing k v s) k = v := Tbl.get_set_same _ _ _ _
theorem ring_setRing_ne {j k : Nat} (v : RingSt) (h : j ≠ k) : ring (setRing k v s) j = ring s j := Tbl.get_set_ne _ _ _ _ h
@[simp] theorem therm_setTherm_same (k : Nat) (v : ThermSt) : therm (setTherm k v s) k = v := Tbl.get_set_same _ _ _ _
theorem therm_setTherm_ne {j k : Nat} (v : ThermSt) (h : j ≠ k) : therm (setTherm k v s) j = therm s j := Tbl.get_set_ne _ _ _ _ h
@[simp] theorem lp_setLp_same (k : Nat) (v : LpSt) : lp (setLp k v s) k = v := Tbl.get_set_same _ _ _ _
theorem lp_setLp_ne {j k : Nat} (v : LpSt) (h : j ≠ k) : lp (setLp k v s) j = lp s j := Tbl.get_set_ne _ _ _ _ h
@[simp] theorem fwd_setFwd_same (k : Nat) (v : FwdSt) : fwd (setFwd k v s) k = v := Tbl.get_set_same _ _ _ _
theorem fwd_setFwd_ne {j k : Nat} (v : FwdSt) (h : j ≠ k) : fwd (setFwd k v s) j = fwd s j := Tbl.get_set_ne _ _ _ _ h
@[simp] theorem sw_setSw_same (k : Nat) (v : SwSt) : sw (setSw k v s) k = v := Tbl.get_set_same _ _ _ _
theorem sw_setSw_ne {j k : Nat} (v : SwSt) (h : j ≠ k) : sw (setSw k v s) j = sw s j := Tbl.get_set_ne _ _ _ _ h
@[simp] theorem arb_setArb_same (k : Nat) (v : ArbSt) : arb (setArb k v s) k = v := Tbl.get_set_same _ _ _ _
theorem arb_setArb_ne {j k : Nat} (v : ArbSt) (h : j ≠ k) : arb (setArb k v s) j = arb s j := Tbl.get_set_ne _ _ _ _ h
@[simp] theorem mon_setMon_same (k : Nat) (v : MonSt) : mon (setMon k v s) k = v := Tbl.get_set_same _ _ _ _
theorem mon_setMon_ne {j k : Nat} (v : MonSt) (h : j ≠ k) : mon (setMon k v s) j = mon s j := Tbl.get_set_ne _ _ _ _ h
@[simp] theorem tq_setTq_same (k : Nat) (v : TqSt) : tq (setTq k v s) k = v := Tbl.get_set_same _ _ _ _
theorem tq_setTq_ne {j k : Nat} (v : TqSt) (h : j ≠ k) : tq (setTq k v s) j = tq s j := Tbl.get_set_ne _ _ _ _ h
@[simp] theorem rslot_setRslot_same (k : Nat) (v : RsSlot) : rslot (setRslot k v s) k = v := Tbl.get_set_same _ _ _ _
theorem rslot_setRslot_ne {j k : Nat} (v : RsSlot) (h : j ≠ k) : rslot (setRslot k v s) j = rslot s j := Tbl.get_set_ne _ _ _ _ h
@[simp] theorem dma_setDma_same (k : Nat) (v : DmaSt) : dma (setDma k v s) k = v := Tbl.get_set_same _ _ _ _
theorem dma_setDma_ne {j k : Nat} (v : DmaSt) (h : j ≠ k) : dma (setDma k v s) j = dma s j := Tbl.get_set_ne _ _ _ _ h
@[simp] theorem stack_setStack_same (k : Nat) (v : StackSt) : stack (setStack k v s) k = v := Tbl.get_set_same _ _ _ _
theorem stack_setStack_ne {j k : Nat} (v : StackSt) (h : j ≠ k) : stack (setStack k v s) j = stack s j := Tbl.get_set_ne _ _ _ _ h
@[simp] theorem ms_setMs_same (k : Nat) (v : MemSt) : ms (setMs k v s) k = v := Tbl.get_set_same _ _ _ _
theorem ms_setMs_ne {j k : Nat} (v : MemSt) (h : j ≠ k) : ms (setMs k v s) j = ms s j := Tbl.get_set_ne _ _ _ _ h
@[simp] theorem ce_setCe_same (k : Nat) (v : CeSt) : ce (setCe k v s) k = v := Tbl.get_set_same _ _ _ _
theorem ce_setCe_ne {j k : Nat} (v : CeSt) (h : j ≠ k) : ce (setCe k v s) j = ce s j := Tbl.get_set_ne _ _ _ _ h
@[simp] theorem fi_setFi_same (k : Nat) (v : FiSt) : fi (setFi k v s) k = v := Tbl.get_set_same _ _ _ _
theorem fi_setFi_ne {j k : Nat} (v : FiSt) (h : j ≠ k) : fi (setFi k v s) j = fi s j := Tbl.get_set_ne _ _ _ _ h
@[simp] theorem lx_setLx_same (k : Nat) (v : LxSt) : lx (setLx k v s) k = v := Tbl.get_set_same _ _ _ _
theorem lx_setLx_ne {j k : Nat} (v : LxSt) (h : j ≠ k) : lx (setLx k v s) j = lx s j := Tbl.get_set_ne _ _ _ _ h
@[simp] theorem peers_setPeers_same (k : Nat) (v : PeerSt) : peers (setPeers k v s) k = v := Tbl.get_set_same _ _ _ _
theorem peers_setPeers_ne {j k : Nat} (v : PeerSt) (h : j ≠ k) : peers (setPeers k v s) j = peers s j := Tbl.get_set_ne _ _ _ _ h
@[simp] theorem memByte_setMemByte_same (k : Nat) (v : Byte) : memByte (setMemByte k v s) k = v := Tbl.get_set_same _ _ _ _
theorem memByte_setMemByte_ne {j k : Nat} (v : Byte) (h : j ≠ k) : memByte (setMemByte k v s) j = memByte s j := Tbl.get_set_ne _ _ _ _ h

@[simp] theorem dma_setRslot (k : Nat) (v : RsSlot) (j : Nat) : dma (setRslot k v s) j = dma s j := (rfl)
@[simp] theorem rslot_setDma (k : Nat) (v : DmaSt) (j : Nat) : rslot (setDma k v s) j = rslot s j := (rfl)

end Sys2Proof.Machine
end

