-- ==== Sys2Proof/Laws/Ops.lean ====
section
/-!
SUPPORT. What each shared operation can do, said once: the fields it changes, and for the register-changing ones which
registers.
-/
namespace Sys2Proof.Machine

/-! ### Iteration -/

/-- What every round keeps, a `forEach` keeps. -/
theorem forEach_keeps {α : Type} (P : State → Prop) (xs : List α) (f : α → State → State) (s : State)
    (h : ∀ x t, P t → P (f x t)) (hs : P s) : P (forEach xs f s) := by
  unfold forEach
  induction xs generalizing s with
  | nil => exact hs
  | cons x xs ih => exact ih (f x s) (h x s hs)

/-- What every round keeps, a `forRange` keeps. -/
theorem forRange_keeps (P : State → Prop) (n : Nat) (f : Nat → State → State) (s : State)
    (h : ∀ i t, P t → P (f i t)) (hs : P s) : P (forRange n f s) :=
  forEach_keeps P (List.range n) f s h hs

/-! ### Guards -/

theorem guardReg_open {a : Nat} {f : State → State} {s : State} (h : regGated s a = false) : guardReg a f s = f s := by
  simp [guardReg, h]

theorem guardReg_gated {a : Nat} {f : State → State} {s : State} (h : regGated s a = true) : guardReg a f s = s := by
  simp [guardReg, h]

/-! ### Only registers change -/

/-- Every field but the registers is as before. -/
def OnlyRegs (s t : State) : Prop := t = { s with regs := t.regs }

theorem OnlyRegs.refl (s : State) : OnlyRegs s s := rfl

theorem OnlyRegs.trans {s t u : State} (h : OnlyRegs s t) (k : OnlyRegs t u) : OnlyRegs s u := by
  unfold OnlyRegs at *; rw [k, h]

theorem OnlyRegs.setReg {s t : State} (a : Nat) (v : Word) (h : OnlyRegs s t) : OnlyRegs s (setReg a v t) := h.trans rfl

theorem OnlyRegs.setRf {s t : State} (a hi lo v : Nat) (h : OnlyRegs s t) : OnlyRegs s (setRf a hi lo v t) := h.trans rfl

theorem OnlyRegs.setRb {s t : State} (a b : Nat) (v : Bool) (h : OnlyRegs s t) : OnlyRegs s (setRb a b v t) := h.trans rfl

theorem setPmc_onlyRegs (q x i v : Nat) (s : State) : OnlyRegs s (setPmc q x i v s) :=
  ((OnlyRegs.refl s).setReg _ _).setRf _ _ _ _

theorem pmcAdd_onlyRegs (q x i n : Nat) (s : State) : OnlyRegs s (pmcAdd q x i n s) := by
  unfold pmcAdd
  dsimp only
  split
  · exact (setPmc_onlyRegs ..).trans (setPmc_onlyRegs ..)
  · exact setPmc_onlyRegs ..

/-- A performance event changes registers only. -/
theorem pmcEvent_onlyRegs (q x ev inst n : Nat) (s : State) : OnlyRegs s (pmcEvent q x ev inst n s) := by
  unfold pmcEvent
  split
  · refine forRange_keeps (OnlyRegs s) 8 _ s (fun i t h => ?_) (OnlyRegs.refl s)
    split
    · exact h.trans (pmcAdd_onlyRegs ..)
    · exact h
  · exact OnlyRegs.refl s

/-- The counter registers of a performance page (R469): what a performance event may change. -/
def pmcCounterOf (q x a : Nat) : Prop := ∃ i, i < 9 ∧ (a = Reg.pmcLo q x i ∨ a = Reg.pmcHi q x i)

theorem reg_setPmc {q x i v a : Nat} (s : State) (hi : i < 9) (h : ¬ pmcCounterOf q x a) : reg (setPmc q x i v s) a = reg s a := by
  have h1 : a ≠ Reg.pmcLo q x i := fun e => h ⟨i, hi, .inl e⟩
  have h2 : a ≠ Reg.pmcHi q x i := fun e => h ⟨i, hi, .inr e⟩
  unfold setPmc
  rw [reg_setRf_ne _ _ _ _ h2, reg_setReg_ne _ _ h1]

theorem reg_pmcAdd {q x i n a : Nat} (s : State) (hi : i < 8) (h : ¬ pmcCounterOf q x a) : reg (pmcAdd q x i n s) a = reg s a := by
  unfold pmcAdd
  dsimp only
  split
  · rw [reg_setPmc _ (by omega) h, reg_setPmc _ (by omega) h]
  · rw [reg_setPmc _ (by omega) h]

/-- A performance event leaves every register outside its page's counters alone. -/
theorem reg_pmcEvent {q x ev inst n a : Nat} (s : State) (h : ¬ pmcCounterOf q x a) :
    reg (pmcEvent q x ev inst n s) a = reg s a := by
  unfold pmcEvent
  split
  · unfold forRange
    have key : ∀ (l : List Nat) (t : State), (∀ i ∈ l, i < 8) → reg t a = reg s a →
        reg (l.foldl (fun s i => (fun i s => if pmcSelects s q x ev inst i then pmcAdd q x i n s else s) i s) t) a = reg s a := by
      intro l
      induction l with
      | nil => intro t _ ht; exact ht
      | cons i l ih =>
        intro t hl ht
        refine ih _ (fun j hj => hl j (List.mem_cons_of_mem _ hj)) ?_
        dsimp only
        split
        · rw [reg_pmcAdd _ (hl i (List.mem_cons_self ..)) h, ht]
        · exact ht
    exact key _ s (fun i hi => List.mem_range.mp hi) rfl
  · rfl

/-! ### Interrupts and the log -/

/-- Only registers and the output trace change. -/
def OnlyRegsOut (s t : State) : Prop := t = { s with regs := t.regs, out := t.out }

theorem OnlyRegsOut.trans {s t u : State} (h : OnlyRegsOut s t) (k : OnlyRegsOut t u) : OnlyRegsOut s u := by
  unfold OnlyRegsOut at *; rw [k, h]

theorem OnlyRegs.regsOut {s t : State} (h : OnlyRegs s t) : OnlyRegsOut s t := by
  have e : t.out = s.out := by rw [h]
  unfold OnlyRegsOut
  rw [e]
  exact h

theorem emit_frame (e : Emit) (s : State) : OnlyRegsOut s (emit e s) := rfl

theorem sendMsix_frame (v : Nat) (s : State) : OnlyRegsOut s (sendMsix v s) := by
  unfold sendMsix
  split
  · exact ((OnlyRegs.refl s).setRb ..).regsOut
  · exact emit_frame ..

/-- An interrupt source changes registers and, where its vector is not masked, sends one message. -/
theorem raise_frame (n : Nat) (s : State) : OnlyRegsOut s (raise n s) := by
  unfold raise
  split
  · exact (OnlyRegs.refl s).regsOut
  · dsimp only
    split
    · exact ((OnlyRegs.refl s).setRf ..).regsOut.trans (sendMsix_frame ..)
    · exact ((OnlyRegs.refl s).setRf ..).regsOut

/-- While PERST_N is 0 an interrupt source does nothing (R415). -/
theorem raise_held {n : Nat} {s : State} (h : perstHigh s = false) : raise n s = s := by simp [raise, h]

/-- An event for the log joins its origin's queue or, where a quadrant's queue is full, is counted lost (R481). -/
theorem logEvent_frame (origin code cls kind unit : Nat) (data : List Byte) (s : State) :
    logEvent origin code cls kind unit data s =
      { s with log := (logEvent origin code cls kind unit data s).log, ctr := (logEvent origin code cls kind unit data s).ctr } := by
  unfold logEvent
  dsimp only
  split <;> rfl

theorem logEvent_queued {origin code cls kind unit : Nat} {data : List Byte} {s : State}
    (h : ¬ (origin < 4 ∧ 64 ≤ (s.log.queues.getD origin []).length)) :
    (logEvent origin code cls kind unit data s).log.queues =
      listPut 5 [] s.log.queues origin
        (s.log.queues.getD origin [] ++ [⟨BitVec.ofNat 64 (devTicks s), code, origin, cls, kind, unit, data⟩]) := by
  unfold logEvent
  dsimp only
  rw [if_neg (by simpa using h)]

@[simp] theorem logEvent_regs (origin code cls kind unit : Nat) (data : List Byte) (s : State) :
    (logEvent origin code cls kind unit data s).regs = s.regs := by
  rw [logEvent_frame]

@[simp] theorem reg_logEvent (origin code cls kind unit : Nat) (data : List Byte) (s : State) (a : Nat) :
    reg (logEvent origin code cls kind unit data s) a = reg s a := by
  unfold reg; rw [logEvent_regs]

end Sys2Proof.Machine
end

