-- ==== Sys2Proof/Laws/Issue.lean ====
section
/-!
SUPPORT. The issue of a Scehus instruction, said once: what moving on changes, and what `issue` answers by the instruction's
effect.
-/
namespace Sys2Proof.Machine

/-! ### Writing a wick -/

@[simp] theorem wkGet_wkPut (w : WickId) (x : WickSt) (s : State) : wkGet w (wkPut w x s) = x := by
  unfold wkGet wkPut setWick wick
  simp

/-- The wick's write changes its own entry and WK_STATE. -/
theorem lx_setWick_same (q e w : Nat) (x : WickSt) (s : State) :
    lx (setWick q e w x s) q = { lx s q with wicks := Tbl.set WickSt.init (lx s q).wicks (32 * e + w) x } := by
  unfold setWick; simp

theorem lx_setWick_ne {q q' : Nat} (e w : Nat) (x : WickSt) (s : State) (h : q' ≠ q) : lx (setWick q e w x s) q' = lx s q' := by
  unfold setWick
  dsimp only
  rw [lx_setReg, lx_setLx_ne s _ h]

theorem reg_setWick_ne {q e w a : Nat} (x : WickSt) (s : State) (h : a ≠ Reg.wkState q e w) :
    reg (setWick q e w x s) a = reg s a := by
  unfold setWick
  dsimp only
  rw [reg_setReg_ne _ _ h, reg_setLx]

theorem ctr_setWick (q e w : Nat) (x : WickSt) (s : State) (a : Nat) : ctr (setWick q e w x s) a = ctr s a := by
  unfold setWick
  dsimp only
  rw [ctr_setReg, ctr_setLx]

/-! ### Only registers, counters and the cluster change -/

/-- Every field but the registers, the counters and the clusters is as before. -/
def OnlyRegsCtrLx (s t : State) : Prop := t = { s with regs := t.regs, ctr := t.ctr, lx := t.lx }

theorem OnlyRegsCtrLx.refl (s : State) : OnlyRegsCtrLx s s := rfl

theorem OnlyRegsCtrLx.trans {s t u : State} (h : OnlyRegsCtrLx s t) (k : OnlyRegsCtrLx t u) : OnlyRegsCtrLx s u := by
  unfold OnlyRegsCtrLx at *; rw [k, h]

theorem OnlyRegs.regsCtrLx {s t : State} (h : OnlyRegs s t) : OnlyRegsCtrLx s t := by
  have e1 : t.ctr = s.ctr := by rw [h]
  have e2 : t.lx = s.lx := by rw [h]
  unfold OnlyRegsCtrLx
  rw [e1, e2]
  exact h

theorem setLx_onlyRegsCtrLx (k : Nat) (v : LxSt) (s : State) : OnlyRegsCtrLx s (setLx k v s) := rfl

theorem count1_onlyRegsCtrLx (a : Nat) (s : State) : OnlyRegsCtrLx s (count1 a s) := rfl

theorem setWick_onlyRegsCtrLx (q e w : Nat) (x : WickSt) (s : State) : OnlyRegsCtrLx s (setWick q e w x s) :=
  (setLx_onlyRegsCtrLx ..).trans ((OnlyRegs.refl _).setReg ..).regsCtrLx

theorem setCur_onlyRegsCtrLx (q e w : Nat) (s : State) : OnlyRegsCtrLx s (setCur q e w s) := setLx_onlyRegsCtrLx ..

theorem pmcEvent_onlyRegsCtrLx (q x ev inst n : Nat) (s : State) : OnlyRegsCtrLx s (pmcEvent q x ev inst n s) :=
  (pmcEvent_onlyRegs ..).regsCtrLx

theorem classEvent_onlyRegs (q e cls : Nat) (s : State) : OnlyRegs s (classEvent q e cls s) := by
  unfold classEvent
  split
  · exact pmcEvent_onlyRegs ..
  · split
    · exact pmcEvent_onlyRegs ..
    · exact OnlyRegs.refl s

/-! ### Moving on -/

theorem lx_of_onlyRegs {s t : State} (h : OnlyRegs s t) (q : Nat) : lx t q = lx s q := by
  unfold lx; rw [h]

theorem ctr_of_onlyRegs {s t : State} (h : OnlyRegs s t) (a : Nat) : ctr t a = ctr s a := by
  unfold ctr; rw [h]

/-- The state in which an instruction's effect runs. -/
def afterAdvance (w : WickId) (cls : Nat) (s : State) : State := classEvent w.q w.e cls (advance w.q w.e w.w s)

theorem advance_onlyRegsCtrLx (q e w : Nat) (s : State) : OnlyRegsCtrLx s (advance q e w s) := by
  unfold advance
  dsimp only
  exact (((setWick_onlyRegsCtrLx ..).trans (setCur_onlyRegsCtrLx ..)).trans (count1_onlyRegsCtrLx ..)).trans
    (pmcEvent_onlyRegsCtrLx ..)

theorem afterAdvance_onlyRegsCtrLx (w : WickId) (cls : Nat) (s : State) : OnlyRegsCtrLx s (afterAdvance w cls s) :=
  (advance_onlyRegsCtrLx ..).trans (classEvent_onlyRegs ..).regsCtrLx

theorem lx_setCur_same (q e w : Nat) (s : State) :
    lx (setCur q e w s) q = { lx s q with cur := Tbl.set 0 (lx s q).cur e (w % 32) } := by
  unfold setCur; simp

theorem lx_advance_same (q e w : Nat) (s : State) :
    lx (advance q e w s) q =
      { lx s q with
        wicks := Tbl.set WickSt.init (lx s q).wicks (32 * e + w) (movedOn (wick s q e w)),
        cur := Tbl.set 0 (lx s q).cur e (w % 32) } := by
  unfold advance
  dsimp only
  rw [lx_of_onlyRegs (pmcEvent_onlyRegs ..), lx_count1, lx_setCur_same, lx_setWick_same]
  rfl

theorem lx_advance_ne {q q' : Nat} (e w : Nat) (s : State) (h : q' ≠ q) : lx (advance q e w s) q' = lx s q' := by
  unfold advance
  dsimp only
  rw [lx_of_onlyRegs (pmcEvent_onlyRegs ..), lx_count1]
  unfold setCur
  rw [lx_setLx_ne _ _ h, lx_setWick_ne _ _ _ _ h]

theorem lx_afterAdvance (w : WickId) (cls q : Nat) (s : State) : lx (afterAdvance w cls s) q = lx (advance w.q w.e w.w s) q :=
  lx_of_onlyRegs (classEvent_onlyRegs ..) q

@[simp] theorem wkGet_afterAdvance (w : WickId) (cls : Nat) (s : State) : wkGet w (afterAdvance w cls s) = movedOn (wkGet w s) := by
  unfold wkGet wick
  rw [lx_afterAdvance, lx_advance_same]
  simp [wick]

/-- Moving on has the frame of an instruction that touches only its wick. -/
theorem afterAdvance_frame (w : WickId) (cls : Nat) (s : State) : WickFrame w s (afterAdvance w cls s) := by
  refine ⟨afterAdvance_onlyRegsCtrLx .., ?_, ?_, ?_, ?_, ?_⟩
  · intro q h
    rw [lx_afterAdvance, lx_advance_ne _ _ _ h]
  · rw [lx_afterAdvance, lx_advance_same]
  · intro i h
    rw [lx_afterAdvance, lx_advance_same]
    exact Tbl.get_set_ne _ _ _ _ h
  · intro a h
    simp only [not_or] at h
    have hp : ¬ pmcCounterOf w.q 44 a := h.2
    unfold afterAdvance classEvent
    have base : reg (advance w.q w.e w.w s) a = reg s a := by
      unfold advance
      dsimp only
      rw [reg_pmcEvent _ hp, reg_count1]
      unfold setCur
      rw [reg_setLx, reg_setWick_ne _ _ h.1]
    split
    · rw [reg_pmcEvent _ hp, base]
    · split
      · rw [reg_pmcEvent _ hp, base]
      · exact base
  · intro a h
    unfold afterAdvance
    rw [ctr_of_onlyRegs (classEvent_onlyRegs ..)]
    unfold advance
    dsimp only
    rw [ctr_of_onlyRegs (pmcEvent_onlyRegs ..), ctr_count1_ne _ h]
    unfold setCur
    rw [ctr_setLx]
    rw [ctr_setWick]

/-- A write of the issuing wick keeps that frame. -/
theorem WickFrame.put {w : WickId} {s t : State} (x : WickSt) (h : WickFrame w s t) : WickFrame w s (wkPut w x t) := by
  obtain ⟨h1, h2, h3, h4, h5, h6⟩ := h
  refine ⟨OnlyRegsCtrLx.trans h1 (setWick_onlyRegsCtrLx ..), ?_, ?_, ?_, ?_, ?_⟩
  · intro q hq
    exact (lx_setWick_ne _ _ _ _ hq).trans (h2 q hq)
  · unfold wkPut
    rw [lx_setWick_same, h3]
  · intro i hi
    unfold wkPut
    rw [lx_setWick_same]
    exact (Tbl.get_set_ne _ _ _ _ hi).trans (h4 i hi)
  · intro a ha
    exact (reg_setWick_ne _ _ (fun e => ha (.inl e))).trans (h5 a ha)
  · intro a ha
    exact (ctr_setWick ..).trans (h6 a ha)

/-! ### What `issue` answers -/

/-- An instruction that issues runs its effect on the state in which the wick has moved on. -/
theorem issue_runs {w : WickId} {cls op : Nat} {f : Fields} {lanes : Bool} {s : State} (eff : State → Eff)
    (h : Issues w cls op f lanes s) :
    issue w cls op f lanes eff s =
      match eff (afterAdvance w cls s) with
      | .fault code addr trap => yieldWick w.q w.e w.w (wickFault w.q w.e w.w code (wkGet w s).pc.toNat addr false trap s)
      | .stall => s
      | .waitTag kind =>
        waitIn w.q w.e w.w wkWaitTag kind (pmcEvent w.q 44 0x052 w.e 1 (count1 (Ctr.lxTagWait w.q) s))
      | .done t => t
      | .yields t => yieldWick w.q w.e w.w t := by
  obtain ⟨h1, h2, h3, h4, h5, h6⟩ := h
  have h5' : (!lanes && (wick s w.q w.e w.w).gov f % 2 == 0) = false := by
    rcases h5 with h | h
    · simp [h]
    · have : (wick s w.q w.e w.w).gov f % 2 = 1 := h
      simp [this]
  have h6' : ¬ ((wick s w.q w.e w.w).busy.toNat &&& usesOf cls op f ≠ 0) := by
    intro hn; exact hn h6
  unfold issue
  dsimp only
  rw [if_neg (by simp [h1, h2, h3]), if_neg (by simp [h4]), if_neg (by simp [h5']), if_neg h6']
  rfl

/-- An instruction whose effect runs to its end. -/
theorem issue_done {w : WickId} {cls op : Nat} {f : Fields} {lanes : Bool} {s t : State} {eff : State → Eff}
    (h : Issues w cls op f lanes s) (he : eff (afterAdvance w cls s) = .done t) : issue w cls op f lanes eff s = t := by
  rw [issue_runs eff h, he]

theorem issue_yields {w : WickId} {cls op : Nat} {f : Fields} {lanes : Bool} {s t : State} {eff : State → Eff}
    (h : Issues w cls op f lanes s) (he : eff (afterAdvance w cls s) = .yields t) :
    issue w cls op f lanes eff s = yieldWick w.q w.e w.w t := by
  rw [issue_runs eff h, he]

end Sys2Proof.Machine
end

