-- ==== Sys2Proof/Laws/Memory.lean ====
section
/-!
SUPPORT. Ingot memory: what a read after a write gives, what a write leaves alone, and that every memory operation keeps the
canonical form.
-/
namespace Sys2Proof.Machine

/-! ### One byte -/

/-- A write of one byte keeps the canonical form. -/
theorem setMemByte_wf (a : Nat) (b : Byte) (s : State) (h : Memory.wf s.mem = true) : Memory.wf (setMemByte a b s).mem = true :=
  Tbl.wf_set (fun _ => 0) s.mem a b h

/-- A write of one byte changes memory alone. -/
theorem setMemByte_frame (a : Nat) (b : Byte) (s : State) : setMemByte a b s = { s with mem := (setMemByte a b s).mem } := rfl

/-! ### Runs of bytes -/

/-- A write of bytes changes memory alone. -/
theorem memWrite_frame (a : Nat) (bs : List Byte) (s : State) : memWrite a bs s = { s with mem := (memWrite a bs s).mem } := by
  induction bs generalizing a s with
  | nil => rfl
  | cons b bs ih => exact ih (a + 1) (setMemByte a b s)

/-- A byte below or above the bytes written reads as before. -/
theorem memByte_memWrite_outside {a c : Nat} (bs : List Byte) (s : State) (h : c < a ∨ a + bs.length ≤ c) :
    memByte (memWrite a bs s) c = memByte s c := by
  induction bs generalizing a s with
  | nil => rfl
  | cons b bs ih =>
    have hl : (b :: bs).length = bs.length + 1 := rfl
    show memByte (memWrite (a + 1) bs (setMemByte a b s)) c = _
    exact (ih _ (by omega)).trans (memByte_setMemByte_ne s b (by omega))

/-- Byte i of what was written stands at its place. -/
theorem memByte_memWrite_inside {a i : Nat} (bs : List Byte) (s : State) (h : i < bs.length) :
    memByte (memWrite a bs s) (a + i) = bs.getD i 0 := by
  induction bs generalizing a s i with
  | nil => simp at h
  | cons b bs ih =>
    show memByte (memWrite (a + 1) bs (setMemByte a b s)) (a + i) = _
    cases i with
    | zero =>
      exact (memByte_memWrite_outside bs _ (by omega)).trans (memByte_setMemByte_same s a b)
    | succ i =>
      have h' : i < bs.length := Nat.lt_of_succ_lt_succ h
      rw [show a + (i + 1) = (a + 1) + i by omega, ih _ h']; rfl

/-- A write of bytes keeps the canonical form. -/
theorem memWrite_wf (a : Nat) (bs : List Byte) (s : State) (h : Memory.wf s.mem = true) :
    Memory.wf (memWrite a bs s).mem = true := by
  induction bs generalizing a s with
  | nil => exact h
  | cons b bs ih => exact ih (a + 1) (setMemByte a b s) (setMemByte_wf a b s h)

/-- A read of n bytes right after they were written gives them. -/
theorem memRead_memWrite (a : Nat) (bs : List Byte) (s : State) : memRead (memWrite a bs s) a bs.length = bs := by
  apply List.ext_getElem
  · simp [memRead]
  · intro i h1 h2
    simp only [memRead, List.getElem_map, List.getElem_range]
    rw [memByte_memWrite_inside bs s h2, List.getD_eq_getElem?_getD, List.getElem?_eq_getElem h2]; rfl

/-! ### Operations of a stack -/

/-- Adding a contribution's integers changes memory alone. -/
theorem accumulate_frame (op w a : Nat) (xs : List (Nat × Bool × Nat)) (s : State) :
    accumulate op w a xs s = { s with mem := (accumulate op w a xs s).mem } := by
  unfold accumulate forEach
  dsimp only
  induction xs generalizing s with
  | nil => rfl
  | cons x xs ih =>
    rw [List.foldl_cons]
    refine (ih _).trans ?_
    generalize (w / 8) = n
    rw [memWrite_frame (a + x.1 * n) _ s]

/-- Adding a contribution's integers keeps the canonical form. -/
theorem accumulate_wf (op w a : Nat) (xs : List (Nat × Bool × Nat)) (s : State) (h : Memory.wf s.mem = true) :
    Memory.wf (accumulate op w a xs s).mem = true := by
  unfold accumulate forEach
  dsimp only
  induction xs generalizing s with
  | nil => exact h
  | cons x xs ih => exact ih _ (memWrite_wf _ _ s h)

/-- An operation changes memory alone. -/
theorem applyOp_frame (a : Nat) (op : MemOp) (s : State) : (applyOp a op s).2 = { s with mem := (applyOp a op s).2.mem } := by
  cases op
  case write bs => exact memWrite_frame a bs s
  case atomic o wide x y sg => exact memWrite_frame a _ s
  case accum o w xs => exact accumulate_frame o w a xs s
  all_goals rfl

/-- An operation keeps the canonical form. -/
theorem applyOp_wf (a : Nat) (op : MemOp) (s : State) (h : Memory.wf s.mem = true) : Memory.wf (applyOp a op s).2.mem = true := by
  cases op
  case write bs => exact memWrite_wf a bs s h
  case atomic o wide x y sg => exact memWrite_wf a _ s h
  case accum o w xs => exact accumulate_wf o w a xs s h
  all_goals exact h

/-- A stack whose contents are lost reads 0, and every other byte reads as before (R389, log entry 7). -/
theorem memByte_stackForget (n a : Nat) (s : State) :
    memByte (stackForget n s) a = if stackOf s a = n then 0 else memByte s a := by
  simp only [memByte, stackForget, Tbl.get_keep]
  by_cases h : stackOf s a = n <;> simp [h]

/-- Losing a stack's contents keeps the canonical form. -/
theorem stackForget_wf (n : Nat) (s : State) (h : Memory.wf s.mem = true) : Memory.wf (stackForget n s).mem = true :=
  Tbl.wf_keep (fun _ => 0) (fun a => stackOf s a != n) s.mem h

/-- Losing a stack's contents changes memory alone. -/
theorem stackForget_frame (n : Nat) (s : State) : stackForget n s = { s with mem := (stackForget n s).mem } := rfl

end Sys2Proof.Machine
end

