-- ==== Sys2Proof/Laws/Operands.lean ====
section
/-!
SUPPORT. Register files of a wick after a write, and what an instruction with one register result leaves.
-/
namespace Sys2Proof.Machine

theorem WickSt.s_setS (x : WickSt) (r v : Nat) (j : BitVec 5) :
    (x.setS r v).sregs.getD j.toNat 0 = if j.toNat = r then BitVec.ofNat 64 v else x.sregs.getD j.toNat 0 :=
  getD_listPut 32 0 x.sregs r j.toNat _ j.isLt

theorem WickSt.v_setV (x : WickSt) (r v : Nat) (j : BitVec 5) (h : j.toNat < 16) :
    (x.setV r v).vregs.getD j.toNat 0 = if j.toNat = r then BitVec.ofNat 512 v else x.vregs.getD j.toNat 0 :=
  getD_listPut 16 0 x.vregs r j.toNat _ h

theorem WickSt.p_setP (x : WickSt) (i v j : Nat) :
    (x.setP i v).p j = if j % 8 = 0 then 0xFFFF else if j % 8 = i % 8 then v % 65536 else x.p j := by
  unfold WickSt.setP WickSt.p
  by_cases hj : j % 8 = 0
  · simp [hj]
  · by_cases hi : i % 8 = 0
    · have : j % 8 ≠ i % 8 := by omega
      simp [hj, hi]
    · simp only [hj, if_false, hi]
      rw [getD_listPut 8 0 x.pregs (i % 8) (j % 8) _ (Nat.mod_lt _ (by decide))]
      by_cases e : j % 8 = i % 8 <;> simp [e]

/-- A scalar result. -/
theorem scalarSet_of {w : WickId} {cls v : Nat} {d : BitVec 5} {s t : State}
    (h : t = wkPut w ((movedOn (wkGet w s)).setS d.toNat v) (afterAdvance w cls s)) :
    ScalarSet w d (BitVec.ofNat 64 v) s t := by
  subst h
  refine ⟨?_, ?_, ?_, (afterAdvance_frame w cls s).put _⟩
  · unfold sreg
    rw [wkGet_wkPut, WickSt.s_setS, if_pos rfl]
  · intro r hr
    have hn : r.toNat ≠ d.toNat := fun e => hr (BitVec.eq_of_toNat_eq e)
    unfold sreg
    rw [wkGet_wkPut, WickSt.s_setS, if_neg hn]
    rfl
  · rw [wkGet_wkPut]
    rfl

/-- A predicate result. -/
theorem predicateSet_of {w : WickId} {cls i v : Nat} {s t : State}
    (h : t = wkPut w ((movedOn (wkGet w s)).setP i v) (afterAdvance w cls s)) :
    PredicateSet w i (BitVec.ofNat 16 v) s t := by
  subst h
  refine ⟨?_, ?_, ?_, (afterAdvance_frame w cls s).put _⟩
  · unfold preg
    rw [wkGet_wkPut, WickSt.p_setP]
    by_cases hi : i % 8 = 0
    · simp [hi]
    · simp only [hi, if_false, if_true]
      apply BitVec.eq_of_toNat_eq
      simp
  · intro j hj
    unfold preg
    rw [wkGet_wkPut, WickSt.p_setP]
    by_cases h0 : j % 8 = 0
    · simp [h0, WickSt.p]
    · rw [if_neg h0, if_neg hj]
      rfl
  · rw [wkGet_wkPut]
    unfold WickSt.setP
    split <;> rfl

end Sys2Proof.Machine
end

