-- ==== Sys2Proof/Laws/Packets.lean ====
section
/-!
SUPPORT. The check sums fit their fields.
-/
namespace Sys2Proof.Machine

theorem crcBits_lt (poly : Nat) (hp : poly < 2 ^ 32) (n c : Nat) (hc : c < 2 ^ 32) : crcBits poly n c < 2 ^ 32 := by
  induction n generalizing c with
  | zero => exact hc
  | succ n ih =>
    apply ih
    split
    · exact Nat.xor_lt_two_pow (by omega) hp
    · omega

theorem crcRun_lt (poly : Nat) (hp : poly < 2 ^ 32) (bs : List Byte) (c : Nat) (hc : c < 2 ^ 32) :
    crcRun poly c bs < 2 ^ 32 := by
  unfold crcRun
  induction bs generalizing c with
  | nil => exact hc
  | cons b bs ih => exact ih _ (crcBits_lt poly hp 8 _ (Nat.xor_lt_two_pow hc (by omega)))

theorem crc32_lt (bs : List Byte) : crc32 bs < 2 ^ 32 :=
  Nat.xor_lt_two_pow (crcRun_lt _ (by decide) bs _ (by decide)) (by decide)

theorem crc32c_lt (bs : List Byte) : crc32c bs < 2 ^ 32 :=
  Nat.xor_lt_two_pow (crcRun_lt _ (by decide) bs _ (by decide)) (by decide)

end Sys2Proof.Machine
end

