-- ==== Sys2Proof/Machine/HostView.lean ====
section
/-!
DEFINITION. What the host sees without changing anything: the configuration header, the capabilities and the BARs of the
PCIe function (R14, R17, R417 to R419), reads of BAR0 (R18, R19, R32, R421, R423, R427, R461, R511) and of BAR4 (R438,
R441, R451, R517).  The table has no row for a configuration request or for a read without side effects (log entry 57).
-/
namespace Sys2Proof.Machine

/-! ### The configuration header (R9, R417, R418, R419) -/

/-- Class Code: processing accelerator. -/
def cfgClassCode : Nat := 0x120000

/-- Device ID, on every part. -/
def cfgDeviceId : Nat := 0xE024

/-- Interrupt Pin: the function has no INTx. -/
def cfgInterruptPin : Nat := 0

/-- Revision ID: CAP_UNITS.STEPPING. -/
def cfgRevisionId (s : State) : Nat := fld s.fuses.cap 3 0

/-- The Vendor ID, of which the spec says nothing. -/
def cfgVendorId : Nat := (Config.cfgOpen 0).toNat % 2 ^ 16

/-- The low word of the BAR register at 0x10 + 4·`i`, or the high word of the one below it; `n` is its BAR, 0, 2 or 4. -/
def cfgBarWord (s : State) (n : Nat) (high : Bool) : Word :=
  let v := (barReg s n).toNat
  BitVec.ofNat 32 (if high then v / 2 ^ 32 else v)

/-- A double word of the configuration header: identification, the six BAR words, Interrupt Pin.  The words of the PCI
standard that hold nothing this spec states are open. -/
def cfgWord (s : State) (off : Nat) : Word :=
  if off = 0 then BitVec.ofNat 32 (cfgDeviceId * 2 ^ 16 + cfgVendorId)
  else if off = 8 then BitVec.ofNat 32 (cfgClassCode * 2 ^ 8 + cfgRevisionId s)
  else if 0x10 ≤ off && off < 0x28 then cfgBarWord s ((off - 0x10) / 8 * 2) ((off - 0x10) % 8 == 4)
  else if off = 0x3C then setFld (Config.cfgOpen off) 15 8 cfgInterruptPin
  else Config.cfgOpen off

/-- The capabilities of the function, with what R417 says of each. -/
inductive Capability where
  /-- Flit mode, GT/s and lanes, Max Payload Size Supported, tag bits as completer and requester, widths of the AtomicOps
  completed, Function Level Reset, ASPM, L0p. -/
  | pciExpress (flitOnly : Bool) (rate lanes maxPayload : Nat) (tagBits atomicBits : List Nat) (flr aspm l0p : Bool)
  /-- D0 and D3hot, without PME. -/
  | powerManagement (d3hot pme : Bool)
  /-- Vectors, and the BAR0 offsets of table and PBA. -/
  | msix (vectors table pba : Nat)
  | advancedErrors
  /-- The package serial. -/
  | serialNumber (serial : DWord)
  | dataLinkFeature
  /-- A physical layer capability of the given GT/s. -/
  | physicalLayer (rate : Nat)
  | laneMargining
  | flitLogging
  deriving DecidableEq, Repr

/-- The capabilities of R417's table, and no others. -/
def capabilities (s : State) : List Capability :=
  [.pciExpress true 128 8 512 [10, 14] [32, 64] true false false, .powerManagement true false,
   .msix 2048 0x10000 0x18000, .advancedErrors, .serialNumber s.fuses.serial, .dataLinkFeature,
   .physicalLayer 32, .physicalLayer 64, .physicalLayer 128, .laneMargining, .flitLogging]

/-! ### Reads of BAR0 -/

/-- The write-only bits of a register, which read zero. -/
def writeOnly (d : RDef) : Word :=
  if d.quad then
    if [0x600000, 0x10001c, 0x240004, 0x240804, 0x241004, 0x680010].contains d.off then 0xFFFFFFFF
    else if d.off = 0x510100 then 0xC003FFFF
    else 0
  else if [0x200, 0x4004, 0x400004].contains d.off then 0xFFFFFFFF else 0

/-- The 32-bit word at `off` of a list of bytes, zero beyond its end. -/
def wordOf (bs : List Byte) (off : Nat) : Word := BitVec.ofNat 32 (leAt bs off 4)

/-- A word of a ring of `n`-byte entries, at byte `off` of the ring. -/
def ringWord (t : Tbl (List Byte)) (n off : Nat) : Word := wordOf (Tbl.get (zeroBytes n) t (off / n)) (off % n)

/-- The read-only windows of a quadrant's block at offset `o`: completion ring, congestion maps, notice ring, time-stamp
queue and receive ring (R188, R219, R407; collective engine and traffic block maps). -/
def quadWindow (s : State) (q o : Nat) : Option Word :=
  if 0x740000 ≤ o && o < 0x780000 then some (ringWord (ce s q).ring 64 (o - 0x740000))
  else if 0x250000 ≤ o && o < 0x254000 then some (wordOf (sw s q).cmap.buf0 (o - 0x250000))
  else if 0x254000 ≤ o && o < 0x258000 then some (wordOf (sw s q).cmap.buf1 (o - 0x254000))
  else if 0x110000 ≤ o && o < 0x120000 then some (ringWord (fwd s q).ring 16 (o - 0x110000))
  else if 0x541000 ≤ o && o < 0x541800 then some (ringWord (tq s q).tsq 32 (o - 0x541000))
  else if 0x542000 ≤ o && o < 0x542800 then some (ringWord (tq s q).trx 32 (o - 0x542000))
  else none

/-- The read-only windows of the device: Ember log entries (R479), ATT_BUF, all ones while a report is built (R461), and the
export window of the calibration block (R105). -/
def deviceWindow (s : State) (a : Nat) : Option Word :=
  if 0x280000 ≤ a && a < 0x300000 then some (ringWord s.log.ring 32 (a - 0x280000))
  else if 0x402000 ≤ a && a < 0x403F54 then some (if rb s Reg.secStatus 31 then 0xFFFFFFFF else wordOf s.sec.attBuf (a - 0x402000))
  else if 0xC00000 ≤ a && a < 0x1000000 then some (wordOf s.cal.window (a - 0xC00000))
  else none

/-- A window's word, where one lies at the offset. -/
def windowWord (s : State) (a : Nat) : Option Word :=
  if inQuad a then quadWindow s (quadOf a) (a % 0x800000) else deviceWindow s a

/-- A statistics counter's words: the holding register's low 32 bits, and its high 16 bits four bytes on (R427). -/
def heldWord (s : State) (a : Nat) : Word :=
  BitVec.ofNat 32 ((Tbl.get 0 s.hold a).toNat + (if 4 ≤ a then (Tbl.get 0 s.hold (a - 4)).toNat / 2 ^ 32 else 0))

/-- What a 32-bit read at the aligned BAR0 offset `a` returns: zero for a register of an absent, gated or resetting unit
(R14, R32, R465), at an alias offset (R423), for write-only bits, and where nothing is defined (R18, R19); a staged word
reads its applied value (R511). -/
def bar0Word (s : State) (a : Nat) : Word :=
  if 0x4000000 ≤ a || regGated s a then 0
  else
    match windowWord s a with
    | some w => w
    | none =>
      match regDef a with
      | some d => reg s a &&& ~~~ writeOnly d
      | none => heldWord s a

/-- What a read of BAR0 returns: nothing while the endpoint is in reset, Unsupported Request (none) in D3hot (R417), zero
for an access that R421 does not admit. -/
def bar0Read (s : State) (a size : Nat) (allBytes : Bool) : Option (List Byte) :=
  if !bar0On s then none
  else if !(allBytes && (size = 4 || size = 8) && a % size = 0) then some (zeroBytes size)
  else if size = 8 then some (leBytes 4 (bar0Word s a).toNat ++ leBytes 4 (bar0Word s (a + 4)).toNat)
  else some (leBytes 4 (bar0Word s a).toNat)

/-! ### Reads of BAR4 -/

/-- The 4,096 bytes of a result slot as a read finds them (R438, R441). -/
def slotView (x : RsSlot) : List Byte :=
  let shown := x.state == .ready || x.state == .error
  leBytes 4 (rsHdr x) ++ zeroBytes 28 ++ (x.key.map (fun w => leBytes 4 w.toNat)).flatten ++ zeroBytes 16 ++
    (if shown then padTo 64 x.record else onesBytes 64) ++
    (if x.state == .ready then padTo rsPayloadMax x.payload else onesBytes rsPayloadMax)

/-- What a read of BAR4 returns: the staging window while the boot ROM waits for an image, else the slots it covers. -/
def bar4Read (s : State) (off n : Nat) : Option (List Byte) :=
  if !bar0On s then none
  else if stagingOpen s then some ((List.range n).map (fun i => Tbl.get 0 s.boot.staging (off + i)))
  else some ((List.range n).map (fun i => byteAt (slotView (rslot s ((off + i) / 0x1000 % 4096))) ((off + i) % 0x1000)))

end Sys2Proof.Machine
end

