-- ==== Sys2Proof/Tests/Slice0.lean ====
section
/-!
SUPPORT. The model's own tests: ill-formed commands, the spec's worked examples, and for every statement that has hypotheses a
state and operands that meet them.
-/
namespace Sys2Proof.Machine

set_option Elab.async false

/-! ### States for the tests -/

/-- A state with the given registers. -/
def testRegs (rs : List (Nat × Word)) (s : State) : State := { s with regs := rs ++ s.regs }

/-- A powered FUSED part whose cluster 0 runs its engine 0 over a code range of 16 instructions, its host interface on. -/
def testCluster : State :=
  testRegs [(Reg.unitState 0, 0x40000000), (Reg.unitState 32, 0x40000000), (Reg.sdPersonality, 0x10001), (Reg.leCtrl 0 0, 1),
    (Reg.leCfg 0 0, 0x80000000), (Reg.csRange0 0 0, 0x80000000), (Reg.csRange2 0 0, 16), (Reg.lxCfg 0, 0x80000000),
    (Reg.hifStatus, 0x20000000)] { State.reset with power := ⟨true, 0, false⟩ }

/-- That part with a wick in its place. -/
def testPut (x : WickSt) (s : State) : State := setLx 0 { lx s 0 with wicks := [(0, x)] } s

/-- That part with wick 0 running, s1 = 0x100 and s2 = 0x40. -/
def testWick : State := testPut { WickSt.init with state := wkRun, sregs := [0, 0x100, 0x40] } testCluster

/-- The wick of the tests. -/
def testId : WickId := ⟨0, 0, 0⟩

/-- Fields with D 3, A 1 and B 2. -/
def testFields (mod : BitVec 12) (c : BitVec 5 := 0) : Fields := { d := 3, a := 1, b := 2, c := c, mod := mod }


/-! ### Hypotheses that something meets -/

theorem witness_AluOperations :
    (∀ op ∈ [1, 2, 3, 4, 5, 6, 7, 8, 9, 10, 11, 12, 13, 14, 15, 0x21, 0x22, 0x23, 0x20],
      Issues testId 0 op (testFields 0) false testWick) ∧
    (∀ op ∈ [0x12, 0x13, 0x24, 0x25], Issues testId 0 op { d := 3, a := 1 } false testWick) ∧
    (Issues testId 0 0 {} false testWick) ∧
    (Issues testId 0 0x10 { d := 3, imm64 := 7 } false testWick) ∧
    (Issues testId 0 0x30 { imm64 := 2 } false testWick) ∧
    (Issues testId 0 0x31 { a := 1 } false testWick) ∧
    (Issues testId 0 0x32 { d := 3, imm64 := 2 } false testWick) :=
  .intro (by unfold Issues; decide +kernel) <| .intro (by unfold Issues; decide +kernel) <|
    .intro (by unfold Issues; decide +kernel) <| .intro (by unfold Issues; decide +kernel) <|
    .intro (by unfold Issues; decide +kernel) <| .intro (by unfold Issues; decide +kernel) <| by unfold Issues; decide +kernel

theorem witness_VectorArithmetic :
    (∀ op ∈ [1, 2, 3, 6, 7, 8], Issues testId 1 op (testFields 0) true testWick) ∧
    (∀ op ∈ [4, 5], Issues testId 1 op (testFields 1 4) true testWick) ∧
    (∀ op ∈ [9, 10, 11], Issues testId 1 op { d := 3, a := 1 } true testWick) :=
  .intro (by unfold Issues; decide +kernel) <| .intro (by unfold Issues; decide +kernel) <| by unfold Issues; decide +kernel

theorem witness_VectorDataMovement :
    (∀ op ∈ [0x0C, 0x0D, 0x0E, 0x21], Issues testId 1 op { d := 3, a := 1, b := 2 } true testWick) ∧
    (∀ op ∈ [0, 0x10], Issues testId 1 op { d := 3, a := 1 } true testWick) ∧
    (Issues testId 1 0x13 { d := 3, a := 1, mod := 2 } true testWick) ∧
    (∀ n ∈ [0, 15], ∀ op ∈ [0x11, 0x12], Issues testId 1 op { d := 3, a := 1, imm16 := BitVec.ofNat 16 n } false testWick) ∧
    (Issues testId 1 0x14 { d := 3, a := 1 } true testWick) ∧
    (∀ m ∈ [4, 1], Issues testId 1 0x20 { d := 3, a := 1, b := 2, mod := BitVec.ofNat 12 m } true testWick) ∧
    (Issues testId 1 0x30 { d := 3, a := 1, mod := 0x001 } true testWick) :=
  .intro (by unfold Issues; decide +kernel) <| .intro (by unfold Issues; decide +kernel) <|
    .intro (by unfold Issues; decide +kernel) <| .intro (by unfold Issues; decide +kernel) <|
    .intro (by unfold Issues; decide +kernel) <| .intro (by unfold Issues; decide +kernel) <| by unfold Issues; decide +kernel

/-- The wick of the tests with region 0 over the first 16 pages of Ingot for its job, and the stacks of those pages ONLINE. -/
def testMem : State :=
  testRegs [(Reg.rgn0 0, 0xF8000000), (Reg.rgn3 0, 16), (Reg.igStatus 0 0, 0x30000000), (Reg.igStatus 0 1, 0x30000000),
    (Reg.igStatus 0 2, 0x30000000)] testWick

theorem witness_LocalAndIngotTransfers :
    (∀ n ∈ [0, 0x3FEF8],
      Issues testId 2 0 { d := 3, a := 1, mod := 3, imm64 := BitVec.ofNat 64 n } false testMem ∧
      address testId testMem { a := 1, imm64 := BitVec.ofNat 64 n } + 8 ≤ 2 ^ 18 ∧
        address testId testMem { a := 1, imm64 := BitVec.ofNat 64 n } % 8 = 0) ∧
    (∀ n ∈ [0, 0x3FEF8], Issues testId 2 1 { a := 1, b := 2, mod := 3, imm64 := BitVec.ofNat 64 n } false testMem) ∧
    (IngotIssues testId 2 { d := 3, a := 1, mod := 4 } (igFault testMem testId 0x100 64 64 30 false) testMem) ∧
    (IngotIssues testId 3 { a := 1, b := 2, mod := 3 } (igFault testMem testId 0x100 8 8 29 false) testMem) ∧
    (∀ n ∈ [0, 59], IngotIssues testId 4 { a := 1, b := 2, imm16 := BitVec.ofNat 16 n }
      (blockFault testMem testId { a := 1, b := 2, imm16 := BitVec.ofNat 16 n } 30 false).1 testMem) ∧
    (∀ n ∈ [0, 59], IngotIssues testId 5 { a := 1, b := 2, imm16 := BitVec.ofNat 16 n }
      (blockFault testMem testId { a := 1, b := 2, imm16 := BitVec.ofNat 16 n } 29 false).1 testMem) ∧
    (∀ m ∈ [0x002, 0x102, 0x403], IngotIssues testId 6 { d := 3, a := 1, b := 2, mod := BitVec.ofNat 12 m }
      (igFault testMem testId 0x100 (sizeBytes { mod := BitVec.ofNat 12 m }) (sizeBytes { mod := BitVec.ofNat 12 m }) 28 false) testMem) ∧
    (IngotIssues testId 6 { d := 3, a := 1, b := 2, c := 1, mod := 0x203 } (igFault testMem testId 0x100 8 8 28 false) testMem) ∧
    ((atomOperand (wkGet testId testMem) { d := 3, a := 1, b := 2, mod := 0x102 } false).isSome = true) ∧
    (atomOperand (wkGet testId (testPut { WickSt.init with sregs := [0, 0, 0x7F800000] } testMem))
      { d := 3, a := 1, b := 2, mod := 0x102, imm16 := 0x1000 } false = none) :=
  .intro (by unfold Issues; decide +kernel) <| .intro (by unfold Issues; decide +kernel) <|
    .intro (by unfold IngotIssues Issues NoRepair; decide +kernel) <|
    .intro (by unfold IngotIssues Issues NoRepair; decide +kernel) <|
    .intro (by unfold IngotIssues Issues NoRepair; decide +kernel) <|
    .intro (by unfold IngotIssues Issues NoRepair; decide +kernel) <|
    .intro (by unfold IngotIssues Issues NoRepair; decide +kernel) <|
    .intro (by unfold IngotIssues Issues NoRepair; decide +kernel) <| .intro (by decide +kernel) <| by decide +kernel

/-- That region mirrored over fiber 0, which is PEER with its first link UP. -/
def testPeer : State :=
  testRegs [(Reg.rgn5 0, 0), (Reg.ftCfg 0 0, 0x8C000000), (aLink 0, 0xC0000000)] testMem

/-- LS holds a BULK packet of 64 bytes at s2, and a message for the wick waits. -/
def testMsg : State :=
  let s := lsWrite 0 0 0x40 (commonHead 1 0 6 0 0 0 0 0 64 0 ++ zeroBytes 24) testPeer
  setLx 0 { lx s 0 with msgs := [(0, 0, ⟨0, zeroBytes 64, [], 0, none, none⟩)] } s

theorem witness_MirrorsAndMessages :
    (IngotIssues testId 7 { a := 1, b := 2 } (blockFault testMem testId { a := 1, b := 2 } 29 true).1 testMem) ∧
    (IngotIssues testId 7 { a := 1, b := 2 } (blockFault testPeer testId { a := 1, b := 2 } 29 true).1 testPeer) ∧
    (∀ s ∈ [testMem, testPeer], regionOf s 0x100 64 = some 0 ∧ fiberQuad (rgnFiber s 0) = 0) ∧
    (homeQuad 0x100 = 0 ∧ peerLink testMem 0 = none ∧ peerLink testPeer 0 = some 0) ∧
    (Issues testId 2 8 { b := 2 } false testMsg ∧ roomFor testMsg 0 0 false = true) ∧
    (hVc (lsLoad 0 0 0x40 64 testMsg).1 = 6 ∧ hKind (lsLoad 0 0 0x40 64 testMsg).1 = 0 ∧ hPlen (lsLoad 0 0 0x40 64 testMsg).1 = 64) ∧
    (∀ s ∈ [testMem, testMsg], Issues testId 2 9 { d := 3, b := 2 } false s ∧ roomFor s 0 0 false = true) ∧
    (recvMsg testMem testId false = none ∧ (recvMsg testMsg testId false).isSome = true) :=
  .intro (by unfold IngotIssues Issues NoRepair; decide +kernel) <|
    .intro (by unfold IngotIssues Issues NoRepair; decide +kernel) <| .intro (by decide +kernel) <|
    .intro (by decide +kernel) <| .intro (by unfold Issues; decide +kernel) <| .intro (by decide +kernel) <|
    .intro (by unfold Issues; decide +kernel) <| by decide +kernel

/-- 256 bytes with the given little-endian fields, as (offset, bytes, value). -/
def testBlock (fs : List (Nat × Nat × Nat)) : List Byte := fs.foldl (fun b f => putBytes b f.1 (leBytes f.2.1 f.2.2)) (zeroBytes 256)

/-- The state of a COL instruction: the operand block at LS 0x100, communicator 0 VALID, its DESC0 valid with words 1 and 2. -/
def testCol (d1 d2 : Word) (fs : List (Nat × Nat × Nat)) : State :=
  let s := testRegs [(Reg.comm0 0, 0x80000000), (Reg.comm7 0, d1), (Reg.comm8 0, d2), (Reg.leTask 0 0, 1)] testMem
  setLx 0 { lx s 0 with
    ls := ((testBlock fs).zipIdx.filter (fun b => b.1 != 0)).map (fun b => (0x100 + b.2, b.1)) } { s with descs := [(0, 1)] }

/-- The chunk of that instruction. -/
def testChunk (d1 d2 : Word) (fs : List (Nat × Nat × Nat)) : SlotSt := bornSlot (testCol d1 d2 fs) 0 0 0 0 d1 d2

/-- Instructions as OP, words 1 and 2 of the descriptor and the operand block: CARB, CRED, CRSU, CBCS, CGAT, CBAR. -/
def testColForms : List (Nat × Word × Word × List (Nat × Nat × Nat)) :=
  [(2, 0x01100200, 0x100, [(12, 4, 1)]), (1, 0x11100200, 0x100, [(12, 4, 1), (16, 8, 256)]),
   (3, 0x21100200, 0x100, [(12, 4, 1), (16, 8, 256), (64, 8, 0), (72, 8, 0x1000), (104, 1, 0x11)]),
   (4, 0x37708200, 0, [(12, 4, 1), (16, 8, 64), (72, 4, 64)]),
   (5, 0x49940200, 0x100, [(12, 4, 1), (16, 8, 256), (72, 8, 256), (80, 2, 1)]), (7, 0x57708200, 0, [(12, 4, 1)])]

/-- A CA2A of one phase, whose plan is empty. -/
def testAll : List (Nat × Nat × Nat) := [(12, 4, 1), (72, 4, 20800), (76, 2, 1)]

theorem witness_CollectiveInstructions :
    (∀ p ∈ testColForms, ColPasses testId { d := 3, a := 1 } p.1 (testBlock p.2.2.2) (testChunk p.2.1 p.2.2.1 p.2.2.2) 0
      (testCol p.2.1 p.2.2.1 p.2.2.2)) ∧
    (lacksEngine (testCol 0x21100200 0x100 []) 0 1 1 0 (rangeDigest (testCol 0x21100200 0x100 []) 0 0) = none) ∧
    (ColPasses testId { d := 3, a := 1 } 6 (testBlock testAll) (testChunk 0x57708200 0 testAll) 0 (testCol 0x57708200 0 testAll)) ∧
    (rb (testCol 0x57708200 0 testAll) (Reg.leCfg 0 0) 31 = true ∧ (lp (testCol 0x57708200 0 testAll) 0).result = none ∧
      (lx (testCol 0x57708200 0 testAll) 0).ops = []) :=
  .intro (by unfold ColPasses Issues; decide +kernel) <| .intro (by decide +kernel) <|
    .intro (by unfold ColPasses Issues; decide +kernel) <| by decide +kernel

/-- A wick with a counter at 1 and its event flag set. -/
def testBusy : State := testPut { WickSt.init with state := wkRun, sregs := [0, 0x100, 0x40], oc := [1, 0, 0, 0], ev := true } testCluster

theorem witness_SynchronisationInstructions :
    (∀ s ∈ [testWick, testBusy], ∀ n ∈ [0, 1], Issues testId 4 0 { mod := 0xF, imm16 := BitVec.ofNat 16 n } false s) ∧
    (∀ s ∈ [testWick, { testWick with time := { testWick.time with l := 0x100 } }], Issues testId 4 1 { a := 1 } false s) ∧
    (devTicks testWick < 0x100 ∧ 0x100 ≤ devTicks { testWick with time := { testWick.time with offset := 0x1000000 } }) ∧
    (∀ s ∈ [testWick, testBusy], ∀ op ∈ [3, 4], Issues testId 4 op {} false s) ∧
    (∀ n ∈ [0, 1, 0x40, 0xFFFF], Issues testId 4 2 { imm16 := BitVec.ofNat 16 n } false testWick) ∧
    (clusterPresent testWick 0 = true ∧ clusterPresent testWick 3 = true ∧ clusterDown testWick 0 = false ∧
      leRun testWick 0 0 = true ∧ leRun testWick 0 1 = false) ∧
    (∀ m ∈ [0, 1], ∀ s ∈ [testWick, testBusy], Issues testId 4 5 { mod := BitVec.ofNat 12 m } false s) ∧
    ((wkGet testId testBusy).oc.any (· != 0) = true ∧ (wkGet testId testWick).oc.any (· != 0) = false ∧
      (wkGet testId testWick).task = none) :=
  .intro (by unfold Issues; decide +kernel) <| .intro (by unfold Issues; decide +kernel) <| .intro (by decide +kernel) <|
    .intro (by unfold Issues; decide +kernel) <| .intro (by unfold Issues; decide +kernel) <| .intro (by decide +kernel) <|
    .intro (by unfold Issues; decide +kernel) <| by decide +kernel

/-- A commit of quadrant 0 pending for tick n. -/
def testCommit (n : Nat) (owner : Option Nat) (s : State) : State :=
  testRegs [(Reg.lpStatus 0, 0x80000000)] (setLp 0 { lp s 0 with pending := some ⟨n, 0, false, false, owner⟩ } s)

theorem witness_LightpathInstructions :
    (Issues testId 5 0 { d := 3, a := 1, b := 2 } false testWick ∧ rb testWick (Reg.leCfg 0 0) 31 = true ∧ 0x40 + 32 ≤ 2 ^ 18) ∧
    (routeAccepts testWick 0 0x100 = false ∧ routeAccepts testWick 0 0x300 = true ∧
      routeAccepts (testCommit 15200 none testWick) 0 0x300 = false) ∧
    (∀ a ∈ [0x3FF, 0x400], Issues testId 5 0 { d := 3, a := 1, b := 2 } false
      (testPut { WickSt.init with state := wkRun, sregs := [0, BitVec.ofNat 64 a, 0x40] } testCluster)) ∧
    (Issues testId 5 3 { d := 3 } false testWick) ∧
    (∀ n ∈ [799, 800], Issues testId 5 2 {} false (testCommit n none testWick) ∧ (lp (testCommit n none testWick) 0).result = none) ∧
    (Issues testId 5 2 {} false testWick ∧ (lp testWick 0).pending = none) ∧
    (∀ s ∈ [testWick, testCommit 15200 none testWick], Issues testId 5 1 { d := 3 } false s ∧ roomFor s 0 0 false = true ∧
      (lp s 0).result = none ∧ (lx s 0).ops = []) :=
  .intro (by unfold Issues; decide +kernel) <| .intro (by decide +kernel) <| .intro (by unfold Issues; decide +kernel) <|
    .intro (by unfold Issues; decide +kernel) <| .intro (by unfold Issues; decide +kernel) <|
    .intro (by unfold Issues; decide +kernel) <| by unfold Issues; decide +kernel

theorem witness_SystemInstructions :
    (Issues testId 6 1 { d := 3, a := 1, b := 2, c := 1 } false testWick) ∧
    (∀ op ∈ [2, 5], Issues testId 6 op { d := 3 } false testWick) ∧
    (∀ n ∈ [0, 7, 8, 63], Issues testId 6 3 { d := 3, imm16 := BitVec.ofNat 16 n } false testWick ∧ rb testWick (Reg.lxCfg 0) 31 = true) ∧
    (Issues testId 6 6 {} false testWick ∧ (wkGet testId testWick).fp < 16 ∧ ∀ c < 4, (wkGet testId testWick).oc.getD c 0 < 4096) ∧
    (Issues testId 6 0 { a := 1, b := 2, mod := 6, c := 1 } false testWick ∧ roomFor testWick 0 0 false = true ∧ 0x100 + 0x40 ≤ 2 ^ 18) ∧
    (Issues testId 6 0 { a := 1, b := 2 } false
      (testPut { WickSt.init with state := wkRun, sregs := [0, 0, 136], hash := some (false, Sponge.init) } testCluster)) ∧
    (Issues testId 6 4 { a := 1, imm16 := 7 } false testWick) :=
  .intro (by unfold Issues; decide +kernel) <| .intro (by unfold Issues; decide +kernel) <|
    .intro (by unfold Issues; decide +kernel) <| .intro (by unfold Issues; decide +kernel) <|
    .intro (by unfold Issues; decide +kernel) <| .intro (by unfold Issues; decide +kernel) <| by unfold Issues; decide +kernel

/-- The unpowered device, and the powered one in each boot stage. -/
def testOff : State := State.reset
def testStage (n : Word) : State := testRegs [(Reg.bootStatus, n), (Reg.bootCfg, 0x80000000)] testCluster

theorem witness_PowerAndRails :
    (testOff.power.on = false ∧ testCluster.power.on = true ∧ testCluster.boot.cfgPending = none ∧ testCluster.cal.programming = false) ∧
    (({ testCluster with boot := { testCluster.boot with cfgPending := some 3 } } : State).boot.cfgPending = some 3) ∧
    (({ testCluster with cal := { testCluster.cal with programming := true } } : State).cal.programming = true) ∧
    (unitFitted testCluster 0 = true ∧ unitState testCluster 0 ≠ 7 ∧ unitFitted testCluster 163 = true ∧ unitState testCluster 163 ≠ 7) ∧
    (({ testOff with power := ⟨false, 1, false⟩ } : State).power.busFails = 1 ∧ testOff.power.busFails ≠ 1) :=
  .intro (by decide +kernel) <| .intro (by decide +kernel) <| .intro (by decide +kernel) <| .intro (by decide +kernel) <|
    by decide +kernel

theorem witness_FeedsGuardsAndReceptacles :
    (rb testCluster Reg.pwrFeed 31 ≠ true ∧ rb testCluster Reg.pwrFeed 30 ≠ true) ∧
    (∀ q < 4, rb testCluster Reg.clkStatus (20 + q) = false) ∧
    (rb testCluster (Reg.peMate 0 0) 0 = false ∧ rb (testRegs [(Reg.peMate 3 3, 1)] testCluster) (Reg.peMate 3 3) 0 = true) ∧
    (quadShut (testRegs [(Reg.unitState 0, 0x20000000)] testCluster) 0 = true) :=
  .intro (by decide +kernel) <| .intro (by decide +kernel) <| .intro (by decide +kernel) <| by decide +kernel

theorem witness_WarmResets :
    (rb (testRegs [(Reg.clkStatus, 2)] testCluster) Reg.clkStatus 1 = true ∧ rb testCluster Reg.clkStatus 1 = false) ∧
    (({ testCluster with power := ⟨true, 0, true⟩ } : State).power.waitLock = true) ∧
    (testCluster.boot.armed = none ∧ ({ testCluster with boot := { testCluster.boot with armed := some 0 } } : State).boot.armed = some 0) ∧
    (testCluster.time.l ≤ 0 + 800000 ∧ (0 : Nat) + 800000 < 800001) :=
  .intro (by decide +kernel) <| .intro (by decide +kernel) <| .intro (by decide +kernel) <| by decide +kernel

theorem witness_BootFromHost :
    (∀ n ∈ [0x20, 0x21, 0x30], bootStage (testStage (BitVec.ofNat 32 n)) = n ∧ perstHigh (testStage (BitVec.ofNat 32 n)) = true ∧
      (testStage (BitVec.ofNat 32 n)).host.d3hot = false) ∧
    (2 ^ 24 - 4 + [(1 : Byte), 2, 3, 4].length ≤ 2 ^ 24 ∧ bootStage (testStage 0x10) = 0x10) ∧
    (imageCheck (testStage 0x30).fuses (zeroBytes 16384) [] ≠ 0) :=
  .intro (by decide +kernel) <| .intro (by decide +kernel) <| by decide +kernel

/-- A fetch of an image of `total` bytes in progress, its second chunk outstanding. -/
def testFetch (total : Nat) (held : List Nat) : State :=
  { testStage 0x21 with boot := { (testStage 0x21).boot with fetch := some ⟨some total, 0, [4096], held⟩ } }

theorem witness_BootFromPeer :
    (bootStage (testStage 0x20) = 0x20 ∧ rb (testStage 0x20) Reg.bootCfg 31 = true ∧ rb (testStage 0x20) Reg.hifStatus 28 = false) ∧
    (rb (testStage 0x20) Reg.calStatus 31 = false ∧
      rb (testRegs [(Reg.calStatus, 0x80000000)] (testStage 0x20)) Reg.calStatus 31 = true) ∧
    (regGated (testStage 0x20) (Reg.ftCfg 0 0) = false ∧ devFault (testStage 0x20) = false ∧ unitState (testStage 0x20) 36 = 4 ∧
      bootFiber (testStage 0x20) = 0) ∧
    (bootStage (testFetch 8192 []) = 0x21 ∧ (0 + 1) * 4096 < 8192 ∧ min 4096 (8192 - 4096) = 4096) ∧
    ((8192 : Nat) ≤ ([0].length + 1) * 4096 ∧ (testFetch 8192 [0]).boot.fetch = some ⟨some 8192, 0, [4096], [0]⟩) ∧
    (linkUp (testRegs [(aLink 0, 0xC0000000)] (testFetch 8192 [])) (8 * bootFiber (testFetch 8192 [])) = true) :=
  .intro (by decide +kernel) <| .intro (by decide +kernel) <| .intro (by decide +kernel) <| .intro (by decide +kernel) <|
    .intro (by decide +kernel) <| by decide +kernel

theorem witness_BootServingAndConfiguration :
    (let s := testRegs [(aLink 8, 0xC0000000), (Reg.bootSrv 0, 0x80000001), (Reg.ftCfg 0 1, 0x84000000)] (setLink 8 { link testCluster 8 with partner := some ⟨3, 0, 0, 5, 1⟩ } testCluster)
    linkUp s 8 = true ∧ isBootLink s 8 = true ∧ bootServed s (linkFiber 8) = true ∧ s.boot.running = false) ∧
    (({ testCluster with boot := { testCluster.boot with running := true, imageLen := 20480 } } : State).boot.imageLen = 20480) ∧
    (rb (testRegs [(Reg.bootCfg, 0)] testCluster) Reg.bootCfg 30 = false ∧
      rb (testRegs [(Reg.bootCfg, 0x40000000)] testCluster) Reg.bootCfg 30 = true) :=
  .intro (by decide +kernel) <| .intro (by decide +kernel) <| by decide +kernel

/-- The security commands' states: one in progress, and an owner key enrolled. -/
def testSec (busy : Bool) (key : List Byte) : State :=
  testRegs [(Reg.secStatus, if busy then 0x80000000 else 0), (Reg.secArg 0, 7)]
    { testCluster with fuses := { testCluster.fuses with ownerKeyHash := key } }

theorem witness_FuseCommands :
    (rb (testSec true []) Reg.secStatus 31 = true) ∧
    (∀ r ∈ [false, true], rb { testSec false [] with boot := { testCluster.boot with running := r } } Reg.secStatus 31 = false) ∧
    (∀ k ∈ [[], [0, 1]], rb (testSec false k) Reg.secStatus 31 = false ∧ wordsAt (testSec false k) (Reg.secArg 0) 16 ≠ zeroBytes 64) ∧
    (((testSec false [0, 1]).fuses.ownerKeyHash.any (· != 0)) = true ∧ ((testSec false []).fuses.ownerKeyHash.any (· != 0)) = false) :=
  .intro (by decide +kernel) <| .intro (by decide +kernel) <| .intro (by decide +kernel) <| by decide +kernel

theorem witness_Attestation :
    (rb testCluster Reg.secStatus 31 = false) ∧
    (({ testCluster with sec := ⟨some [1, 2], []⟩ } : State).sec.building = some [1, 2]) :=
  .intro (by decide +kernel) <| by decide +kernel

/-- A unit in the given state, with no unit command running. -/
def testUnit (u : Nat) (st : Word) : State := testRegs [(Reg.unitState u, st <<< 28)] testCluster
/-- A unit command running. -/
def testUnitCmd (c : UnitCmd) : State := { testCluster with unit := { testCluster.unit with cmd := some c } }

theorem witness_UnitCommands :
    (rb (testRegs [(Reg.urStatus, 0x80000000)] testCluster) Reg.urStatus 31 = true ∧ testCluster.power.waitLock = false ∧
      ({ testCluster with power := ⟨true, 0, true⟩ } : State).power.waitLock = true) ∧
    (rb testCluster Reg.urStatus 31 = false ∧ urNames 5 4 = false ∧ urNames 6 0 = false ∧ urNames 0 (16 * 128) = false ∧
      urNames 0 9 = false) ∧
    (∀ st ∈ [0, 1], ∀ u ∈ [(1, 36), (1, 163), (2, 4), (2, 19), (3, 32), (3, 35), (4, 20), (4, 31), (5, 0), (5, 3)],
      urNames u.1 u.2 = true ∧ unitState (testUnit u.2 (BitVec.ofNat 32 st)) u.2 = st) ∧
    (urNames 4 20 = true ∧ 2 ≤ unitState (testUnit 20 4) 20 ∧ urPre 4 20 false (testUnit 20 4) = some 3) ∧
    (urNames 0 8 = true ∧ urPre 0 8 false testCluster = some 3 ∧
      urPre 0 8 false (testRegs [(Reg.ftCfg 0 0, 0x84000000)] testCluster) = none) ∧
    (∀ u ∈ [(1, 36), (2, 4), (5, 0), (3, 32)], 2 ≤ unitState (testUnit u.2 4) u.2) ∧
    (urPre 5 0 true (testUnit 0 4) = none ∧ urPre 1 36 false (testUnit 36 4) = none ∧ urPre 2 4 false (testUnit 4 4) = none) ∧
    (∀ u ∈ [(4, 20), (5, 3)], rb (testUnit u.2 5) Reg.urStatus 31 = false ∧ urNames u.1 u.2 = true ∧ unitState (testUnit u.2 5) u.2 = 5) ∧
    (unitState (testUnit 36 5) 36 = 5 ∧ quadShut (testUnit 36 5) (unitQuad 36) = false ∧ testCluster.unit.cmd = none) ∧
    (∀ c ∈ [(⟨1, 36, true⟩ : UnitCmd), ⟨2, 19, false⟩, ⟨3, 32, false⟩, ⟨4, 31, true⟩, ⟨5, 0, false⟩],
      (testUnitCmd c).unit.cmd = some c ∧ (testUnitCmd c).power.waitLock = false ∧ c.kind ≠ 0 ∧ c.kind ≤ 5 ∧
        urNames c.kind c.index = true) ∧
    ((testUnitCmd ⟨0, 8, false⟩).unit.cmd = some ⟨0, 8, false⟩ ∧ (⟨0, 8, false⟩ : UnitCmd).kind = 0) :=
  .intro (by decide +kernel) <| .intro (by decide +kernel) <| .intro (by decide +kernel) <| .intro (by decide +kernel) <|
    .intro (by decide +kernel) <| .intro (by decide +kernel) <| .intro (by decide +kernel) <| .intro (by decide +kernel) <|
    .intro (by decide +kernel) <| .intro (by decide +kernel) <| by decide +kernel

/-- A DEVICE fault in force. -/
def testFault : State := testRegs [(Reg.faultStatus, 0x80000A04)] testCluster

theorem witness_RepairsAndFaults :
    (quadShut testCluster 0 = false ∧ testCluster.power.waitLock = false ∧ devFault testCluster = false ∧ devFault testFault = true) ∧
    (({ testCluster with repairs := [(1, 5, 0), (2, 7, 3)] } : State).repairs = (1, 5, 0) :: [(2, 7, 3)] ∧
      (testCluster.log.queues.getD 0 []).length < 64) ∧
    (rb (testRegs [(Reg.urStatus, 0x80000000)] testCluster) Reg.urStatus 31 = true ∧
      quadShut (testRegs [(Reg.urStatus, 0x80000000)] testCluster) 0 = false) ∧
    (rb testCluster Reg.urStatus 31 = false ∧ unitState testCluster 0 ≠ 0 ∧ unitState testCluster 0 ≠ 1) ∧
    (({ testCluster with unit := { testCluster.unit with deferred := [0] } } : State).unit.deferred = 0 :: []) :=
  .intro (by decide +kernel) <| .intro (by decide +kernel) <| .intro (by decide +kernel) <| .intro (by decide +kernel) <|
    by decide +kernel

/-- Fiber 0 as TERM at ×8, its EN set or clear, link 0 in a state, and the rings of slots 0 to 8 LOCKED. -/
def testFiber (en : Bool) (st : Nat) : State :=
  testRegs ([(Reg.ftCfg 0 0, if en then 0x84000000 else 0x04000000), (aLink 0, BitVec.ofNat 32 (st * 2 ^ 29)),
    (aMap 0, 0x76543210), (aStatus 0, 0x80000000)] ++
    (List.range 9).flatMap (fun c => [(aRing (fiberRing 0 c true), 0x60000000), (aRing (fiberRing 0 c false), 0x60000000)])) testCluster

theorem witness_FiberEnabling :
    (regGated (testFiber false 0) (Reg.ftCfg 0 0) = false ∧ fiberEn (testFiber false 0) 0 = false ∧ fiberEn (testFiber true 6) 0 = true) ∧
    (rb (testFiber false 0) Reg.calStatus 31 = false ∧ devFault (testFiber false 0) = false ∧ unitState (testFiber false 0) 36 = 4 ∧
      isTerminated (testFiber false 0) 0 = true) ∧
    (rb (testRegs [(Reg.calStatus, 0x80000000)] (testFiber true 6)) Reg.calStatus 31 = true ∧ devFault testFault = true) ∧
    (fused (testFiber false 0) = true ∧ peerCount (testFiber false 0) 0 < 8 ∧ fld (0x0C000000 : Word) 27 26 = 3 ∧
      fld (0x0C000000 : Word) 25 24 = 0 ∧ fiberMode (testFiber false 0) 0 ≠ 3) ∧
    (regGated (testRegs [(Reg.unitState 0, 0x20000000)] testCluster) (Reg.ftCfg 0 0) = true) :=
  .intro (by decide +kernel) <| .intro (by decide +kernel) <| .intro (by decide +kernel) <| .intro (by decide +kernel) <|
    by decide +kernel

/-- An alignment block that names slot c, of a spine's fiber. -/
def testBlk (c : Nat) : AlignBlock :=
  ⟨BitVec.ofNat 8 (c + 16 * (15 - c)), 0, 0, false, false, 0, 0, 1, 0, 5⟩

/-- That fiber with hidden state of link 0. -/
def testLink (st : Nat) (l : LinkSt) : State := setLink 0 l (testFiber true st)

theorem witness_LinkTrainingAndAlignment :
    (Trains 0 (testLink 1 LinkSt.init) ∧ linkState (testLink 1 LinkSt.init) 0 = 1 ∧ (link (testLink 1 LinkSt.init) 0).backoff = false) ∧
    (Trains 0 (testLink 3 LinkSt.init) ∧ linkState (testLink 3 LinkSt.init) 0 = 3 ∧
      minLanes (testLink 3 LinkSt.init) (linkFiber 0) ≤
        ((lockedSlots (testLink 3 LinkSt.init) 0).filter (ownSlots (testLink 3 LinkSt.init) 0).contains).length) ∧
    (∀ st ∈ [2, 5], Trains 0 (testLink st LinkSt.init) ∧ linkState (testLink st LinkSt.init) 0 = st) ∧
    (fiberEn (testFiber true 4) 0 = true ∧ isTerminated (testFiber true 4) 0 = true ∧ quadShut (testFiber true 4) (fiberQuad 0) = false) ∧
    (slotNamed (testBlk 0) 1 = false ∧ ∀ c < 9, slotNamed (testBlk c) c = true ∧ dropLocked (testFiber true 4) 0 c = true) ∧
    (linkState (testLink 4 LinkSt.init) (blockLink (testLink 4 LinkSt.init) 0 8) = 4 ∧
      (link (testLink 4 { LinkSt.init with trained := 0x100 }) (blockLink (testLink 4 { LinkSt.init with trained := 0x100 }) 0 8)).trained.getLsbD 8 = true) ∧
    (linkState (testLink 5 LinkSt.init) (blockLink (testLink 5 LinkSt.init) 0 0) = 5 ∧
      partnerOk (testLink 5 LinkSt.init) (blockLink (testLink 5 LinkSt.init) 0 0) (blockPartner (testBlk 0)) = true ∧
      partnerOk (testLink 5 LinkSt.init) (blockLink (testLink 5 LinkSt.init) 0 0) (blockPartner { testBlk 0 with version := 2 }) = false) ∧
    (let s := testLink 5 { LinkSt.init with aligned := 0xFF }
    linkState s (blockLink s 0 0) = 5 ∧ partnerOk s (blockLink s 0 0) (blockPartner (testBlk 0)) = true ∧
      (commitLink (blockLink s 0 0) s).1 = true ∧ minLanes s 0 ≤ slotCount (link s (blockLink s 0 0)).aligned ∧
      minLanes s 0 ≤ ((ownSlots s (blockLink s 0 0)).filter (fun x => (link s (blockLink s 0 0)).aligned.getLsbD x &&
        ringLocked s (fiberRing 0 x false))).length) ∧
    ((∀ b ∈ [none, some 0, some 7], (fiber (setFiber 0 { FiberSt.init with boundary := b } (testFiber true 6)) 0).boundary = b) ∧
      (0 : Nat) % 20800 = 0 ∧ (7 : Nat) % 20800 ≠ 0) :=
  .intro (by unfold Trains; decide +kernel) <| .intro (by unfold Trains; decide +kernel) <|
    .intro (by unfold Trains; decide +kernel) <| .intro (by decide +kernel) <| .intro (by decide +kernel) <|
    .intro (by decide +kernel) <| .intro (by decide +kernel) <| .intro (by decide +kernel) <| by decide +kernel

/-- Link 0 UP on slots 0 to 7 in both directions. -/
def testUp : State := testLink 6 { LinkSt.init with rxMap := 0x76543210 }
/-- Fiber 0 of that state with other hidden state, and other registers in front. -/
def testCare (h : FiberSt) (rs : List (Nat × Word) := []) : State := testRegs rs (setFiber 0 h testUp)
/-- A swap of slot 0's lane to slot 8 at step n. -/
def testSwap (n : Nat) : Swap := ⟨0, 0, 0, 8, n, false, false⟩

/-- That swap with the directions that are ready. -/
def testReady (a b : Bool) : Swap := { testSwap 2 with txReady := a, rxReady := b }

/-- That state as a booting device whose link follows. -/
def testFollow : State := { testUp with boot := { testUp.boot with fetch := some ⟨none, 0, [], []⟩ } }

theorem witness_LaneControl :
    (quadShut testUp (fiberQuad 0) = false ∧
      (fiberLinks testUp 0).find? (fun k => linkUp testUp k && (mapPos (link testUp k).rxMap 7).isSome) = some 0 ∧
      (∀ e ∈ (fiber testUp 0).lost, e.1 ≠ 7) ∧ (link testUp 0).gap = none ∧ mapPos (txMap testUp 0) 7 = some 7 ∧
        spareSlot testUp 0 ≠ some 7) ∧
    (∀ a ∈ [false, true], ∀ b ∈ [false, true],
      (fiber (testCare { FiberSt.init with swap := some (testReady a b) }) 0).swap = some (testReady a b) ∧
        (fiber testUp 0).swap = none) ∧
    (fiberEn testUp 0 = true ∧ isTerminated testUp 0 = true ∧ darkSlot testUp 0 ≠ 15 ∧ calReady testUp 0 = false) ∧
    (let s := testCare FiberSt.init [(Reg.ftCfg 0 0, 0x84000002), (aStatus 0, 0x88000000)]
    swapReady s 0 = true ∧ rotSync s 0 = false ∧ swapPlan s 0 = some (0, 0, 8)) ∧
    (∀ n ∈ [0, 1, 2], let s := testCare { FiberSt.init with calSlot := some 8, fails := [0, 0, 0, 0, 0, 0, 0, 0, n] }
      (fiber s 0).calSlot = some 8 ∧ fiberEn s 0 = true ∧ quadShut s (fiberQuad 0) = false ∧ (fiber s 0).fails.getD 8 0 = n ∧
        dropLocked s 0 8 = true ∧ ringLocked s (fiberRing 0 8 false) = true) ∧
    (dropLocked testCluster 0 8 = false ∧ ringLocked testCluster (fiberRing 0 8 false) = false) ∧
    (let s := setLink 0 { link testUp 0 with peerMask := 0x80 } (testCare FiberSt.init [(aMap 0, 0xF6543210)])
    linkUp s 0 = true ∧ mapPos (txMap s 0) 7 = none ∧ dropLocked s 0 7 = true ∧ slotFailed s 0 7 = false ∧ 7 ≠ darkSlot s 0 ∧
      7 ∈ linkSlots s 0 ∧ returnPos s 0 7 (txMap s 0) = some 7 ∧
      slotLink s 0 7 = 0 ∧ calPending s 0 7 = false ∧ leads s 0 = true ∧ (link s 0).peerMask.getLsbD 7 = true ∧
      ringLocked s (fiberRing (linkFiber 0) 7 false) = true ∧ leads testFollow 0 = false) ∧
    (linkUp testUp 0 = true ∧ (∀ c ∈ mapSlots (txMap testUp 0), (0xFF : BitVec 9).getLsbD c = true) ∧
      leads testFollow 0 = false ∧ linkUp testFollow 0 = true) ∧
    (∀ c, c < 9 → (0x80 : BitVec 9).getLsbD c = true →
      (link (setLink 0 { link testUp 0 with peerMask := 0x80 } testUp) 0).peerMask.getLsbD c = true) ∧
    (minLanes testFollow (linkFiber 0) ≤ mapLanes 0x76543210 ∧ mapLanes 0xFFFFFFFF < minLanes testFollow (linkFiber 0)) ∧
    (∀ b ∈ [false, true], (fiber (testCare { FiberSt.init with swap := some (testReady false b) }) (linkFiber 0)).swap = some (testReady false b)) ∧
    (fiberWidth testFollow (linkFiber 0) = 8 ∧ mapPos (txMap testFollow 0) 8 = none) ∧
    (switchFlit ((List.replicate 12 (leBytes 4 0xE1F0C35A)).flatten ++ [3, 0xFC, 0, 0] ++ leBytes 4 0x76543210 ++ leBytes 4 0x89ABCDEF) =
        some (3, 0x76543210) ∧ linkUp testUp 0 = true ∧ 3 ≠ (link testUp 0).switchRx) ∧
    (switchFlit [] = none ∧ linkUp testCluster 0 = false) :=
  .intro (by decide +kernel) <| .intro (by decide +kernel) <| .intro (by decide +kernel) <| .intro (by decide +kernel) <|
    .intro (by decide +kernel) <| .intro (by decide +kernel) <| .intro (by decide +kernel) <| .intro (by decide +kernel) <|
    .intro (by decide +kernel) <| .intro (by decide +kernel) <| .intro (by decide +kernel) <| .intro (by decide +kernel) <|
    .intro (by decide +kernel) <| by decide +kernel

/-- Ring r of an engine in the PE_RING state st, its engine in service and mated. -/
def testRing (r : RingRef) (st : Nat) (h : RingSt := RingSt.init) (s : State := testCluster) : State :=
  testRegs [(aRing (ringNum r), BitVec.ofNat 32 (st * 2 ^ 28)), (Reg.peMate 0 0, 1)] (setRing (ringNum r) h s)

/-- The drop ring of slot 8 of fiber 0, the modulator ring of its slot 0, and a matrix ring. -/
def testDrop : RingRef := .pe 0 0 8 true
def testMod : RingRef := .pe 0 0 0 false
def testMx : RingRef := .matrix 3 0 7
/-- A matrix ring of the shadow set. -/
def testShadow : RingRef := .matrix 3 512 7

theorem witness_RingAcquisition :
    (∀ r ∈ [testDrop, testMod], ringState (testRing r 1) (ringNum r) = .prebias ∧ ringState (testRing r 2) (ringNum r) = .search ∧
      ringState (testRing r 3) (ringNum r) = .track ∧ ringState (testRing r 5) (ringNum r) = .aliasTrim ∧
      (ring (testRing r 5 { RingSt.init with sweeping := true }) (ringNum r)).sweeping = true ∧
        preBiased (testRing r 1) (ringNum r) = false) ∧
    (preBiased testCluster (ringNum testShadow) = true ∧ preBiased testCluster (ringNum testMx) = false) ∧
    (ringState testCluster (ringNum testDrop) ≠ .prebias ∧ ringState testCluster (ringNum testDrop) ≠ .search ∧
      ringState testCluster (ringNum testMod) ≠ .track ∧ ringState testCluster (ringNum testMx) ≠ .aliasTrim) ∧
    (∀ n ∈ [0, 1], (ring (testRing testDrop 2 { RingSt.init with fails := n }) (ringNum testDrop)).fails = n ∧
      ringDown (testRing testDrop 2 { RingSt.init with fails := n }) (ringNum testDrop) = false ∧
      ringUnlit (testRing testDrop 2 { RingSt.init with fails := n }) (ringNum testDrop) = false) ∧
    (ringState (testRing testMx 0 { RingSt.init with state := .search, fails := 2 }) (ringNum testMx) = .search ∧
      (ring (testRing testMx 0 { RingSt.init with state := .search, fails := 2 }) (ringNum testMx)).fails = 2) ∧
    (∃ a, ringState (testRing testMod 4) (ringNum testMod) = .verify ∧
      pilotSlot (calThresh (testRing testMod 4) (ringNum testMod)) [a] = some (ringTarget (testRing testMod 4) (ringNum testMod)) ∧
        ringDrop (ringNum testMod) = false) ∧
    (∀ e ∈ [(161, false), (0, true), (160, false)], ringState (testRing testDrop 6) (ringNum testDrop) = .locked ∧
      ringDown (testRing testDrop 6) (ringNum testDrop) = false ∧ ringUnlit (testRing testDrop 6) (ringNum testDrop) = false ∧
        (e.2 = true ∨ 160 < (BitVec.ofNat 16 e.1).toInt.natAbs ∨ e.1 = 160)) ∧
    (ringSlewed (testRing testDrop 6 RingSt.init (testRegs [(Reg.peTherm 0 0, 0x80000000)] testCluster)) (ringNum testDrop) = true ∧
      80 < (81 : BitVec 16).toInt.natAbs) :=
  .intro (by decide +kernel) <| .intro (by decide +kernel) <| .intro (by decide +kernel) <| .intro (by decide +kernel) <|
    .intro (by decide +kernel) <|
    .intro (by exact ⟨calThresh (testRing testMod 4) (ringNum testMod) + 1, by decide +kernel, by simp [pilotSlot, largest, List.range, List.range.loop, show ringTarget (testRing testMod 4) (ringNum testMod) = 0 from by decide +kernel], by decide +kernel⟩) <|
    .intro (by decide +kernel) <| by decide +kernel

theorem witness_Temperature :
    (quadShut testCluster 0 = false) ∧
    (∀ n ∈ [49, 50], let s := testRegs [(Reg.peTherm 3 3, 0x80000000)] { testCluster with therm := [(3, ⟨[], [0, 0, 0, n]⟩)] }
      engineSlew s 15 = true ∧ (therm s (15 / 4)).quiet.getD (15 % 4) 0 = n) ∧
    (engineSlew testCluster 15 = false) :=
  .intro (by decide +kernel) <| .intro (by decide +kernel) <| by decide +kernel

theorem witness_LightpathCommits :
    (∀ w < 8, regGated testCluster (routeAddr 0 512 w) = false ∧ rb testCluster (Reg.lpStatus 0) 31 = false ∧
      (512 / 512 : Nat) ≠ activeSet testCluster 0) ∧
    (rb (testCommit 15200 none testCluster) (Reg.lpStatus 0) 31 = true ∧ (0 / 512 : Nat) = activeSet testCluster 0) ∧
    (regGated testCluster (Reg.lpCmd 0) = false ∧ validate testCluster 0 (1 - activeSet testCluster 0) = 0) ∧
    (let s := testRegs [(Reg.route0 0 512, 0xC0000000), (Reg.routeOut 0 512 0, 1), (Reg.peMate 0 0, 1)] testUp
    validate s 0 (1 - activeSet s 0) = 0 ∧ regGated s (Reg.lpCmd 0) = false ∧ (shadowRings s 0).length = 1 ∧
      (shadowRings s 0).all (fun j => (ringState s j != .failed) && !ringDown s j && !ringUnlit s j) = true ∧ 0 ∈ gapFibers s 0 ∧
      0 ∈ fiberLinks s 0 ∧ linkUp s 0 = true) ∧
    (validate (testRegs [(Reg.route0 0 512, 0x80000000)] testCluster) 0 1 ≠ 0) ∧
    (∀ n ∈ [800, 15200], (lp (testCommit n none testCluster) 0).pending = some ⟨n, 0, false, false, none⟩ ∧
      (lp (testCommit n none testCluster) 0).result = none ∧ (testCommit n none testCluster).time.l + 800 ≤ n) ∧
    ((799 : Nat) < (testCommit 799 none testCluster).time.l + 800) ∧
    (let s := setLp 0 { lp testCluster 0 with pending := some ⟨15200, 0, true, true, none⟩ } testCluster
    (lp s 0).pending = some ⟨15200, 0, true, true, none⟩ ∧ (lp s 0).moving = false) ∧
    (let s := setLp 0 { lp testCluster 0 with moving := true } testCluster
    (lp s 0).moving = true ∧ (lp s 0).movingOwner = none) ∧
    (linkUp testUp 0 = true) :=
  .intro (by decide +kernel) <| .intro (by decide +kernel) <| .intro (by decide +kernel) <| .intro (by decide +kernel) <|
    .intro (by decide +kernel) <| .intro (by decide +kernel) <| .intro (by decide +kernel) <| .intro (by decide +kernel) <|
    .intro (by decide +kernel) <| by decide +kernel

/-- The calibration block's states. -/
def testCal (e p : Bool) (u v : Option Nat) : State :=
  testRegs [(Reg.calStatus, 0x10000000)]
    { testCluster with cal := { testCluster.cal with exporting := e, programming := p, unlockFirst := u, unlockedAt := v } }

theorem witness_Calibration :
    ((testCal false false none none).cal.exporting = false ∧ (testCal false false none none).cal.programming = false ∧
      (testCal false false none none).cal.unlockedAt = none ∧ (testCal false false none (some 0)).cal.unlockedAt ≠ none) ∧
    ((testCal true false none none).cal.exporting = true ∧ (testCal false true none none).cal.programming = true) ∧
    (∀ l ∈ [0, 800000], let s := { testCal false false (some 0) none with time := { testCluster.time with l := l } }
      s.cal.unlockFirst = some 0 ∧ s.time.l ≤ 0 + 800000 ∧ rb s Reg.calStatus 28 = true) ∧
    (let s := { testCal false false (some 0) none with time := { testCluster.time with l := 800001 } }
    (∀ l ∈ s.cal.unlockFirst, l + 800000 < s.time.l) ∧ rb testCluster Reg.calStatus 28 = false) :=
  .intro (by decide +kernel) <| .intro (by decide +kernel) <| .intro (by decide +kernel) <| by decide +kernel

/-- The first 60 bytes of a trailer: its GSEQ and its second half word. -/
def testTrailer60 (g a : Nat) : List Byte := leBytes 2 g ++ leBytes 2 a ++ zeroBytes 56
/-- A trailer of an all-zero group, its LCRC wrong by e. -/
def testTrailer (g a : Nat) (e : Nat := 0) : List Byte :=
  testTrailer60 g a ++ leBytes 4 (crc32c (zeroBytes 1984 ++ testTrailer60 g a) + e)

theorem test_trailer (g a e : Nat) : lcrcGood [] (testTrailer g a e) ↔ e % 2 ^ 32 = 0 := by
  have h60 : (testTrailer60 g a).length = 60 := by simp [testTrailer60, zeroBytes]
  have h64 : (testTrailer g a e).length = 64 := by simp [testTrailer, h60]
  have hp : padTo 64 (testTrailer g a e) = testTrailer g a e := by simp [padTo, h64, zeroBytes, List.take_of_length_le]
  have hz : padTo 1984 ([] : List Byte) = zeroBytes 1984 := by simp [padTo]
  unfold lcrcGood tLcrc leAt
  rw [hp, hz]
  have ht : (testTrailer g a e).take 60 = testTrailer60 g a := by simp [testTrailer, ← h60]
  have hd : ((testTrailer g a e).drop 60).take 4 = leBytes 4 (crc32c (zeroBytes 1984 ++ testTrailer60 g a) + e) := by
    simp [testTrailer, ← h60, List.take_of_length_le]
  rw [ht, hd, leNat_leBytes]
  have := crc32c_lt (zeroBytes 1984 ++ testTrailer60 g a)
  constructor <;> intro h <;> omega

/-- Two groups in replay. -/
def testReplay (n : Nat) : State := testLink 6 { LinkSt.init with replay := [⟨4095, []⟩, ⟨0, []⟩], replayCount := n }

theorem witness_GroupsAndReplay :
    (lcrcGood [] (testTrailer 0 0) ∧ lcrcGood [] (testTrailer 1 0) ∧ lcrcGood [] (testTrailer 0 0x1FFF) ∧
      lcrcGood [] (testTrailer 0 0x2000) ∧ ¬ lcrcGood [] (testTrailer 0 0 1)) ∧
    (linkUp testUp 0 = true ∧ tGseq (padTo 64 (testTrailer 0 0)) = rxGseq testUp 0 ∧ tAckValid (padTo 64 (testTrailer 0 0)) = false ∧
      tNak (padTo 64 (testTrailer 0 0)) = false ∧ (link testUp 0).nakDue = false ∧ (link testUp 0).rxAwait = false ∧
        NothingWaits 0 testUp) ∧
    (tGseq (padTo 64 (testTrailer 1 0)) ≠ rxGseq testUp 0 ∧ (link (testLink 6 { LinkSt.init with rxAwait := true }) 0).rxAwait = true ∧
      NothingWaits 0 (testLink 6 { LinkSt.init with rxAwait := true })) ∧
    ((link testUp 0).replay.length < replayShare testUp 0 ∧ (link testUp 0).txWait = [] ∧ txHolds testUp 0 = false) ∧
    (tAckValid (padTo 64 (testTrailer 0 0x1FFF)) = true ∧ tNak (padTo 64 (testTrailer 0 0x1FFF)) = false ∧
      tAck (padTo 64 (testTrailer 0 0x1FFF)) = 4095 ∧ (link (testReplay 0) 0).replay = [] ++ ⟨4095, []⟩ :: [⟨0, []⟩]) ∧
    (tAckValid (padTo 64 (testTrailer 0 0x2000)) = false ∧ tNak (padTo 64 (testTrailer 0 0x2000)) = true ∧
      ∀ n ∈ [0, 1], (link (testReplay n) 0).replayCount = n ∧ (link (testReplay n) 0).lastReplay = none ∧
        txHolds (testReplay n) 0 = false ∧ (link (testReplay n) 0).txWait = []) ∧
    (max 1 (rf (testReplay 0) (Reg.llCfg (linkQuad 0) (linkTile 0)) 3 0) ≤ (link (testReplay 15) 0).replayCount ∧
      (link (testReplay 0) 0).replayCount < max 1 (rf (testReplay 0) (Reg.llCfg (linkQuad 0) (linkTile 0)) 3 0)) :=
  .intro (by simp [test_trailer]) <| .intro (by unfold NothingWaits; decide +kernel) <|
    .intro (by unfold NothingWaits; decide +kernel) <| .intro (by decide +kernel) <| .intro (by decide +kernel) <|
    .intro (by decide +kernel) <| by decide +kernel

theorem witness_CreditRecords :
    (linkUp testUp 0 = true ∧ (link testUp 0).credInit = false) ∧
    (let s := testLink 6 { LinkSt.init with credInit := true, peerAdv := [0, 65535] }
    linkUp s 0 = true ∧ (link s 0).credInit = true ∧ ∀ i < 7, (link s 0).peerAdv.getD i 0 < 65536) ∧
    (ctrlKnown 3 = false ∧ ctrlKnown 0x2F = false ∧ ctrlKnown 0x40 = false) :=
  .intro (by decide +kernel) <| .intro (by decide +kernel) <| by decide +kernel

/-- A header of kind and class, to this endpoint, with a memory address. -/
def testHead (vc kind plen flags : Nat) (addr : Nat := 0) : List Byte :=
  putBytes (padTo 64 (commonHead testUp.fuses.epid.toNat 1 vc 0 kind 0 0 0 plen flags)) 24 (leBytes 8 addr)
/-- Link 0 UP with a packet open. -/
def testOpen (h : List Byte) : State := testLink 6 { LinkSt.init with rxOpen := some ⟨some 3, h, none⟩ }
/-- Fiber 0 as a PEER fiber, UP. -/
def testPeerUp : State := testRegs [(Reg.ftCfg 0 0, 0x8C000000)] testUp

theorem witness_PacketReceipt :
    (headReady 0 testUp ∧ headReady 0 testPeerUp ∧ isPeer testUp (linkFiber 0) = false ∧ isPeer testPeerUp (linkFiber 0) = true) ∧
    (kindVcOk false (hKind (testHead 2 1 0 0)) (hVc (testHead 2 1 0 0)) = false ∧
      kindVcOk true (hKind (testHead 1 1 0 0)) (hVc (testHead 1 1 0 0)) = false ∧ padTo 64 (testHead 2 1 0 0) = testHead 2 1 0 0) ∧
    (kindVcOk false (hKind (testHead 1 1 4097 0)) (hVc (testHead 1 1 4097 0)) = true ∧ 4096 < hPlen (testHead 1 1 4097 0)) ∧
    (kindVcOk false (hKind (testHead 1 1 4096 2)) (hVc (testHead 1 1 4096 2)) = true ∧ hPlen (testHead 1 1 4096 2) ≤ 4096 ∧
      hStomp (testHead 1 1 4096 2) = true) ∧
    (bootOnly testPeerUp 0 = false ∧ hKind (testHead 1 5 4096 0) = 5 ∧ hVc (testHead 1 5 4096 0) = 1 ∧
      hStomp (testHead 1 5 4096 0) = false ∧
      rxRoom testPeerUp 0 1 (hFlits (testHead 1 5 4096 0)) = true) ∧
    (bootOnly testUp 0 = false ∧ hKind (testHead 1 1 0 0 (2 ^ 39)) = 1 ∧ hDst (testHead 1 1 0 0) = testUp.fuses.epid.toNat ∧
      quadShut testUp (bitsOf (mAddr (testHead 1 1 0 0)) 40 39) = false ∧ bitsOf (mAddr (testHead 1 1 0 0 (2 ^ 39))) 40 39 = 1 ∧
      rxRoom testUp 0 1 (hFlits (testHead 1 1 0 0)) = true) ∧
    ((link testUp 0).rxOpen = none ∧ (link (testOpen []) 0).rxOpen = some ⟨some 3, [], none⟩) ∧
    (crcGood (sealHead (testHead 1 1 2 0) [5, 6]) [5, 6] = true ∧ crcGood (sealHead (testHead 1 1 2 0) [5, 6]) [5, 7] = false ∧
      crcGood (sealHead (testHead 1 1 2 0) [5, 6]) [5] = false ∧
      hStomp (sealHead (testHead 1 1 2 0) [5, 6]) = false) :=
  .intro (by unfold headReady; decide +kernel) <| .intro (by decide +kernel) <| .intro (by decide +kernel) <|
    .intro (by decide +kernel) <| .intro (by decide +kernel) <| .intro (by decide +kernel) <| .intro (by decide +kernel) <|
    by decide +kernel

/-- A packet of the switch. -/
def testPkt (d : Dest) (tail : TailState) (crossing : Option Nat) : QPkt :=
  ⟨3, 3, 0, d, none, 1, testHead 1 1 0 0, [], 1, tail, .rx 0 1, 0, none, [], 0, 0, false, crossing, none⟩
/-- Quadrant 0's switch with the given packets. -/
def testSw (ps : List QPkt) (s : State := testUp) : State := setSw 0 { sw s 0 with pkts := ps } s

theorem witness_SwitchTransfers :
    (∀ u ∈ [UnitDest.ce, UnitDest.ms, UnitDest.sv, UnitDest.peerWr], let p := testPkt (.unit 0 u) .waiting none
      quadShut (testSw [p]) 0 = false ∧ (sw (testSw [p]) 0).pkts = [p] ∧ p.inp < 80 ∧ p.vc < 8 ∧ eligible (testSw [p]) 0 p = true) ∧
    (∀ t ∈ [TailState.waiting, .good, .bad], let p := testPkt (.unit 0 .ms) t (some 36)
      (sw (testSw [p]) 0).pkts = p :: [] ∧ p.crossing.isSome = true ∧ p.tail = t ∧ p.wick = none ∧
        ∀ x ∈ (sw (testSw [p]) 0).pkts, x.dest.quad? = 0) ∧
    ((unitQueue (sw (testSw []) 0) .ms).length < unitDepth) ∧
    (linkQuad 0 = 0 ∧ linkUp testUp 0 = true ∧ (link testUp 0).replay.length < replayShare testUp 0 ∧
      (packetFlits (testHead 1 1 0 0) [] false).length ≤ 31 ∧
      txHolds testUp 0 = false ∧ (link testUp 0).nakDue = false ∧ (link testUp 0).txWait = []) ∧
    (let s := setBridge 0 1 { bridge testUp 0 1 with wire := [testPkt (.unit 1 .ms) .good none, testPkt (.unit 2 .ms) .good none] } testUp
    (bridge s 0 1).wire = testPkt (.unit 1 .ms) .good none :: [testPkt (.unit 2 .ms) .good none] ∧ quadShut s 1 = false ∧
      (Dest.unit 1 .ms).quad? = 1 ∧ (Dest.unit 2 .ms).quad? ≠ 1) ∧
    (∀ k ∈ [0, 1], linkUp testUp k = decide (k = 0) ∧ noWait testUp 1 = false ∧ (Dest.link k).quad? = 0) ∧
    ((bridge testUp 0 1).wire = []) :=
  .intro (by decide +kernel) <| .intro (by decide +kernel) <| .intro (by decide +kernel) <| .intro (by decide +kernel) <|
    .intro (by decide +kernel) <| .intro (by decide +kernel) <| by decide +kernel

/-- A copy job of two links, and of one. -/
def testJob (first : Bool) (ks : List Nat) : CopyJob := ⟨testPkt (.link 0) .good none, ks, [], 0, true, first⟩
/-- Quadrant 0 with that job at the head of its queue, and cells of MC_POOL in use. -/
def testCopy (first : Bool) (ks : List Nat) (used pool : Nat) : State :=
  setSw 0 { sw testUp 0 with copyQ := [testJob first ks], mcUsed := used, mcPool := pool } testUp
/-- Quadrant 0 with one request of a unit for cells. -/
def testOrigin (pool : Nat) (s : State) : State :=
  setSw 0 { sw s 0 with originQ := [⟨.ms, 36, .link 0, testHead 2 3 0 0, [], 0, none, false⟩], originUsed := 0, originPool := pool } s

theorem witness_CellsAndCopies :
    (∀ ks ∈ [[5], [5, 6]], (sw (testCopy true ks 9 10) 0).copyQ = testJob true ks :: [] ∧
      (sw (testCopy true ks 9 10) 0).mcUsed + (testJob true ks).pkt.flits ≤ (sw (testCopy true ks 9 10) 0).mcPool) ∧
    ((sw (testCopy false [5] 10 10) 0).copyQ = testJob false [5] :: [] ∧ quadShut (testCopy false [5] 10 10) 0 = false) ∧
    ((sw (testCopy true [5] 10 10) 0).mcPool < (sw (testCopy true [5] 10 10) 0).mcUsed + (testJob true [5]).pkt.flits) ∧
    ((sw (testOrigin 1 testUp) 0).originUsed + hFlits (testHead 2 3 0 0) ≤ (sw (testOrigin 1 testUp) 0).originPool ∧
      ∀ r ∈ (sw (testOrigin 1 testUp) 0).originQ, r.bad = false ∧ r.dest = .link 0) ∧
    ((sw (testOrigin 0 testCluster) 0).originPool < (sw (testOrigin 0 testCluster) 0).originUsed + hFlits (testHead 2 3 0 0) ∧
      linkQuad 0 = 0 ∧ linkUp (testOrigin 0 testCluster) 0 = false) ∧
    ((sw (testSw [testPkt (.link 0) .good none] testCluster) 0).pkts = [testPkt (.link 0) .good none] ∧ linkUp testCluster 0 = false) :=
  .intro (by decide +kernel) <| .intro (by decide +kernel) <| .intro (by decide +kernel) <| .intro (by decide +kernel) <|
    .intro (by decide +kernel) <| by decide +kernel

/-- Forwarding tables: the given entries, and FWD_KEY. -/
def testFwd (es : List (Nat × Option FwdEntry)) (key : Nat) (rs : List (Nat × Word) := []) : State :=
  testRegs ((Reg.fwdKey 0, BitVec.ofNat 32 key) :: rs) (setFwd 0 { fwd testCluster 0 with table := es } testCluster)
/-- An entry for a destination. -/
def testEntry (d : Nat) (pin aged : Bool) : FwdEntry := ⟨d, pin, false, aged, 5, 0⟩

theorem witness_ForwardingTable :
    (FwdReady 0 (testFwd [] 7) ∧ fwdFind (testFwd [] 7) 0 (fwdKey (testFwd [] 7) 0) = none ∧
      (fwdPlace (testFwd [] 7) 0 (fwdKey (testFwd [] 7) 0)).isSome = true) ∧
    (fwdFind (testFwd [(0x80000, some (testEntry 7 false false))] 7) 0 (fwdKey (testFwd [(0x80000, some (testEntry 7 false false))] 7) 0) =
      some 0x80000) ∧
    (∀ n ∈ [0x81FFF, 0x82000], rf (testFwd [] 7 [(Reg.fwdLoc 0, BitVec.ofNat 32 n)]) (Reg.fwdLoc 0) 19 0 = n) ∧
    (5 < (6 : BitVec 4).toNat ∧ 5 < (15 : BitVec 4).toNat) ∧
    (regGated (testFwd [] 7 [(Reg.fwdCmdStatus 0, 0x80000000)]) (Reg.fwdCmd 0) = false ∧
      rb (testFwd [] 7 [(Reg.fwdCmdStatus 0, 0x80000000)]) (Reg.fwdCmdStatus 0) 31 = true) ∧
    (∀ l ∈ [0, 2 ^ 20], let s := { testFwd [(3, some (testEntry 7 false false)), (4, some (testEntry 8 true false)), (5, some (testEntry 9 false true))] 7
        [(Reg.fwdCfg 0, 0x40000001)] with time := { testCluster.time with l := l } }
      rb s (Reg.fwdCfg 0) 30 = true ∧ fwdAt s 0 3 = some (testEntry 7 false false) ∧ fwdAt s 0 4 = some (testEntry 8 true false) ∧
        fwdAt s 0 5 = some (testEntry 9 false true) ∧ touchedNow s 0 3 = none ∧ max 1 (rf s (Reg.fwdCfg 0) 14 0) = 1 ∧
          (now16 s + 65536 - 0) % 65536 = l / 2 ^ 20) ∧
    (let s := testFwd [(3, some (testEntry 7 false false))] 7 [(Reg.fwdCfg 0, 0x60000001)]
    let t := setFwd 0 { fwd s 0 with touched := some ⟨3, 0, none⟩ } s
    rb t (Reg.fwdCfg 0) 30 = true ∧ fwdAt t 0 3 = some (testEntry 7 false false) ∧ (touchedNow t 0 3).isSome = true) ∧
    (∀ n ∈ [0, 4096], nrFill (testFwd [] 7 [(Reg.fwdNrPi 0, BitVec.ofNat 32 n)]) 0 = n) ∧
    (regGated testCluster (Reg.fwdNrCi 0) = false ∧
      (rf testCluster (Reg.fwdNrPi 0) 12 0 + 8192 - ((4096 : Word).toNat % 8192)) % 8192 ≤ 4096 ∧
      4096 < (rf testCluster (Reg.fwdNrPi 0) 12 0 + 8192 - ((4095 : Word).toNat % 8192)) % 8192) :=
  .intro (by unfold FwdReady; decide +kernel) <| .intro (by decide +kernel) <| .intro (by decide +kernel) <|
    .intro (by decide +kernel) <| .intro (by decide +kernel) <| .intro (by decide +kernel) <| .intro (by decide +kernel) <|
    .intro (by decide +kernel) <| by decide +kernel

/-- The DMA arbiter with its slot 1 owned by requester n, and tickets for requester 5. -/
def testArb (n : Nat) : State :=
  testRegs [(Reg.dmaArbCfg + 0x100, BitVec.ofNat 32 (n * 256)), (Reg.dmaArbCfg + 0x24, 0x100), (Reg.dmaArbCfg + 8, 1),
    (Reg.dmaArbCfg, 0), (Reg.dmaArbCfg + 0xC, 0)] testCluster

theorem witness_TrafficControl :
    (∀ k ∈ [0, 255], ∀ c ∈ [0, 7], regGated testCluster (shaperAddr 0 k c 0) = false ∧
      regGated testCluster (shaperAddr 0 k c 2) = false) ∧
    (∀ m ∈ [0, 1023], regGated testCluster (meterAddr 0 m 0) = false ∧ regGated testCluster (meterAddr 0 m 4) = false) ∧
    (arbFrozen (testRegs [(Reg.dmaArbCfg, 0x80000000)] testCluster) .dma = true ∧ arbDown testCluster .dma = false ∧
      arbFrozen (testArb 31) .dma = false ∧ arbOwner (testArb 31) .dma ((rf (testArb 31) (Reg.dmaArbCfg + 0xC) 7 0 + 1) % 256) = 31 ∧
      (0x80000000 : BitVec 32).getLsbD 31 = true ∧ arbDown (testArb 31) .dma = false) ∧
    (arbOwner (testArb 32) .dma 1 = 32 ∧ lotteryWinner (arbTickets (testArb 32) .dma) 1
      ((List.range 32).filter (fun i => (0x20 : BitVec 32).getLsbD i && decide (0 < arbTickets (testArb 32) .dma i))) = some 5) ∧
    (let s := testRegs [(Reg.dmaCtl 0 5, 0x80000004), (Reg.dmaTail 0 5, 1), (Reg.dmaStatus 0 5, 0)] (testArb 5)
    arbOwner s .dma 1 = 5 ∧ arbOwner s .dma 1 ∈ arbRequests s .dma ∧ arbOwner (testArb 31) .dma 1 ∉ arbRequests (testArb 31) .dma) ∧
    (let s := testRegs [(Reg.cmapCfg 0, 1)] { testCluster with time := { testCluster.time with l := 800 } }
    quadShut s 0 = false ∧ 800 * cmapInterval s 0 ≠ 0 ∧ (sw s 0).cmap.last = none ∧
      ∀ w ∈ [none, some 0], ({ s with time := { s.time with was := w } } : State).time.was = w ∧ 0 < devTicks s / 800 * 800) ∧
    (({ testCluster with time := { testCluster.time with was := some 0 } } : State).time.was = some 0 ∧
      devTicks testCluster / 800 * 800 ≤ 0) ∧
    (let s := setSw 0 { sw testCluster 0 with cmap := { (sw testCluster 0).cmap with last := some 0 } } (testRegs [(Reg.cmapCfg 0, 1)] testCluster)
    (sw s 0).cmap.last = some 0 ∧ devTicks s / (800 * cmapInterval s 0) * (800 * cmapInterval s 0) ≤ 0 ∧
      cmapInterval (testRegs [(Reg.cmapCfg 0, 0)] testCluster) 0 = 0) :=
  .intro (by decide +kernel) <| .intro (by decide +kernel) <| .intro (by decide +kernel) <| .intro (by decide +kernel) <|
    .intro (by decide +kernel) <| .intro (by decide +kernel) <| .intro (by decide +kernel) <| by decide +kernel

/-- A chunk of the given state, first two descriptor words and EXPECT: job 1, communicator 5, SEQ 9, CHUNK 0, epoch 0, group 4. -/
def testSlot (st : Nat) (d1 d2 : Word) (expect : Nat) : SlotSt where
  state := st
  job := 1
  comm := 5
  seq := 9
  chunk := 0
  epoch := 0
  expect := expect
  downGrp := 4
  downDst := 0
  home := 0
  salt := 0
  slotMin := 1
  slotMax := 1
  d1 := d1
  d2 := d2
  posted := false
  sigs := [(7, [])]
  blocks := [⟨0, false, none, false, 0⟩]
  count := 0
  expCount := 0
  acc := []
  spec := []
  maxVc := 0
  ovfDrop := 0
  pass2 := false
  tFirst := some 0
  tLast := none
  lastLink := 0
  lastMember := 0
  lateLogged := false
  cause := 0
  post := none
  acked := []
  wasHeld := false
  told := false
  nmLogged := false
  gather := []
  data := []
  stage := 0
  aerr := 0
  detail := 0
  gatherLogged := false
  stopped := false
  fenced := false
  result := []
  tasks := []
  din := []
  dw := []
/-- A CUP packet of that chunk from link 2: SCOUT_EXP or not, NCONTRIB, PLEN, epoch. -/
def testCup (b43 ncontrib plen ep : Nat) : UPkt :=
  ⟨2, commonHead 0 1 3 0 3 1 ep 0 plen 0 ++ collClass 5 9 0 ncontrib 0 1 0 0 b43 0 0 7 0, zeroBytes plen, 0, none, none⟩
/-- That packet at the engine's queue, COMM entry 5 valid for job 1 with group 4 = [2], and the given chunks and registers. -/
def testCe (p : UPkt) (slots : List (Nat × Option SlotSt)) (rs : List (Nat × Word) := []) (descs : Nat := 0) : State :=
  testRegs (rs ++ [(Reg.comm0 5, 0x80010004), (Reg.comm3 5, 0x00001000), (Reg.mcgLinks 0 4 0, 4), (Reg.jobEpoch 1, 0)])
    (setCe 0 { ce testUp 0 with slots := slots }
      (setSw 0 { sw testUp 0 with ceIn := [p] } { testUp with descs := [(5, descs)] }))

theorem witness_PacketsTurnedAway :
    (∀ n ∈ [0, 1], CeTakes 0 n (testCup (8 * n) 1 0 0) (testCe (testCup (8 * n) 1 0 0) [] [(Reg.comm0 5, 0)]) ∧
      commServes (testCe (testCup (8 * n) 1 0 0) [] [(Reg.comm0 5, 0)]) (testCup (8 * n) 1 0 0).head = false) ∧
    (commServes (testCe (testCup 0 1 0 0) []) (testCup 0 1 0 0).head = true ∧
      findSlot (testCe (testCup 0 1 0 0) []) 0 (hJob (testCup 0 1 0 0).head) (cComm (testCup 0 1 0 0).head) (cSeq (testCup 0 1 0 0).head)
        (cChunk (testCup 0 1 0 0).head) = none ∧
      (groupLinks (testCe (testCup 0 1 0 0) [] [(Reg.mcgLinks 0 4 0, 8)]) 0 4).contains 2 = false ∧
      (groupLinks (testCe (testCup 0 1 0 0) []) 0 4).contains 2 = true) ∧
    (∀ e ∈ [1, 32767], epochCmp (testCe (testCup 0 1 0 e) []) (hJob (testCup 0 1 0 e).head) (hEpoch (testCup 0 1 0 e).head) = 1) ∧
    (∀ e ∈ [32768, 65535], epochCmp (testCe (testCup 0 1 0 e) []) (hJob (testCup 0 1 0 e).head) (hEpoch (testCup 0 1 0 e).head) = 2) ∧
    (∀ n ∈ [0, 1], CeTakes 0 n (testCup (8 * n) 1 0 0) (testCe (testCup (8 * n) 1 0 0) []) ∧
      Admitted 0 (testCup (8 * n) 1 0 0) none (testCe (testCup (8 * n) 1 0 0) [])) ∧
    (selectDesc (testCe (testCup 0 1 0 0) []) 5 9 = none ∧ selectDesc (testCe (testCup 0 1 0 0) [] [] 1) 5 9 = some false ∧
      birthSlot (testCe (testCup 0 1 0 0) [] [(Reg.comm3 5, 0)] 1) 0 5 = none) ∧
    (CeTakes 0 2 (testCup 0 1 0 0) (testCe (testCup 0 1 0 0) [] [(Reg.comm7 5, 0x30000000), (Reg.comm0 5, 0)] 1)) :=
  .intro (by unfold CeTakes; decide +kernel) <| .intro (by decide +kernel) <| .intro (by decide +kernel) <|
    .intro (by decide +kernel) <| .intro (by unfold CeTakes Admitted; decide +kernel) <| .intro (by decide +kernel) <|
    by unfold CeTakes; decide +kernel

/-- A broadcast chunk that delivers. -/
def testBcs (st : Nat) : SlotSt := testSlot st 0x30000000 0 2

theorem witness_PacketsTaken :
    (∀ e ∈ [0, 1, 2], let x := testSlot 2 0 0 e
      CeTakes 0 0 (testCup 0 1 0 0) (testCe (testCup 0 1 0 0) [(8, some x)]) ∧
        Admitted 0 (testCup 0 1 0 0) (some (8, x)) (testCe (testCup 0 1 0 0) [(8, some x)]) ∧ x.state = 2 ∧ x.cap = 0) ∧
    (sigPlace (testSlot 2 0 0 2) (cSig (testCup 0 1 0 0).head) = some 0 ∧ fieldsBad (testSlot 2 0 0 2) (testCup 0 1 0 0).head = false ∧
      cScoutExp (testCup 0 1 0 0).head = false ∧ (testCup 0 1 0 0).payload.take (hPlen (testCup 0 1 0 0).head) = [] ∧
      cPktIdx (testCup 0 1 0 0).head = 0 ∧ cNcontrib (testCup 0 1 0 0).head = 1) ∧
    (let x := testSlot 2 0x10000000 0x100 2
    let p := testCup 0 1 4 0
    CeTakes 0 0 p (testCe p [(1023, some x)]) ∧ Admitted 0 p (some (1023, x)) (testCe p [(1023, some x)]) ∧ x.cap ≠ 0 ∧
      x.scout = false ∧ x.action ≠ actCgat ∧ sigPlace x (cSig p.head) = some 0 ∧ fieldsBad x p.head = false ∧
      cFmt p.head ≠ 10 ∧ cFmt p.head ≠ 11 ∧ (noted 0 x p (testCe p [(1023, some x)])).covers (cFmt p.head) (cPktIdx p.head) = [0] ∧
      (noted 0 x p (testCe p [(1023, some x)])).block 0 = ⟨0, false, none, false, 0⟩) ∧
    (let x := testSlot 2 0x10000000 0x100 2
    let p := testCup 0 1 4 0
    let x' := noted 0 x p (testCe p [(1023, some x)])
    let a := x'.addNative (cPktIdx p.head) (cVcount p.head) (p.payload.take (hPlen p.head))
    (({ a.slot with maxVc := max x.maxVc (cVcount p.head), ovfDrop := x.ovfDrop + a.dropped } : SlotSt).addCounts [0] 1).complete = false) ∧
    (let x := testSlot 1 0 0 2
    let p := testCup 8 1 0 0
    CeTakes 0 1 p (testCe p [(8, some x)]) ∧ Admitted 0 p (some (8, x)) (testCe p [(8, some x)]) ∧ fieldsBad x p.head = false ∧
      cScoutExp p.head = true ∧ x.expCount + cNcontrib p.head < x.expect) ∧
    (∀ st ∈ [5, 6, 7], ∀ n ∈ [1, 2], let p := testCup 0 n 0 0
      CeTakes 0 2 p (testCe p [(8, some (testBcs st))]) ∧ Admitted 0 p (some (8, testBcs st)) (testCe p [(8, some (testBcs st))]) ∧
        (testBcs st).state ≠ 9 ∧ (testBcs st).tFirst.isSome = true ∧ (testBcs st).count + cNcontrib p.head = n) ∧
    (let s := testCe (testCup 0 1 0 0) [] [(Reg.comm7 5, 0x30000000)] 1
    CeTakes 0 2 (testCup 0 1 0 0) s ∧ Admitted 0 (testCup 0 1 0 0) none s) :=
  .intro (by unfold CeTakes Admitted; decide +kernel) <| .intro (by decide +kernel) <|
    .intro (by unfold CeTakes Admitted; decide +kernel) <| .intro (by decide +kernel) <|
    .intro (by unfold CeTakes Admitted; decide +kernel) <| .intro (by unfold CeTakes Admitted; decide +kernel) <|
    by unfold CeTakes Admitted; decide +kernel

theorem witness_ChunkEnds :
    (∀ x ∈ [testSlot 5 0 0 2, testBcs 5], let s := testCe (testCup 0 1 0 0) [(3071, some x)]
      slotAt s 0 3071 = some x ∧ x.stage = 0 ∧ slotAccs s 0 3071 = [] ∧ slotAcks s 0 3071 = 0 ∧ slotSending s 0 x = false) ∧
    (let s := testCe (testCup 0 1 0 0) [(3, some (testBcs 6))]
    slotAt s 0 3 = some (testBcs 6) ∧ (testBcs 6).state = 6 ∧ (testBcs 6).job < 4096) ∧
    (jobHold testCluster 4095 = false ∧ jobHold (testRegs [(Reg.jobEpoch 1, 0x80000000)] testCluster) 1 = true) ∧
    ((ce (testCe (testCup 0 1 0 0) [(3, some (testSlot 8 0 0 2))]) 0).slots = [(3, some (testSlot 8 0 0 2))] ∧
      (testSlot 8 0 0 2).job = (1 : JobIx).val ∧ (testSlot 8 0 0 2).epoch ≠ 65535 % 65536) ∧
    (let x := { testSlot 5 0 0 2 with fenced := true }
    let s := testCe (testCup 0 1 0 0) [(3, some x)]
    slotAt s 0 3 = some x ∧ x.fenced = true ∧ slotAccs s 0 3 = []) ∧
    (quadShut (testOpen []) 0 = false ∧ linkQuad 0 = 0 ∧ (link (testOpen []) 0).rxOpen.isSome = true) ∧
    (∀ st ∈ [1, 4], slotAt (testCe (testCup 0 1 0 0) [(3, some (testSlot st 0 0 2))]) 0 3 = some (testSlot st 0 0 2) ∧
      poisonable (testSlot st 0 0 2).state = true) :=
  .intro (by decide +kernel) <| .intro (by decide +kernel) <| .intro (by decide +kernel) <| .intro (by decide +kernel) <|
    .intro (by decide +kernel) <| .intro (by decide +kernel) <| by decide +kernel

/-- Spill slots of quadrant 0 in use, and a reservation that needs them. -/
def testSpill (m : Word) : State :=
  testRegs [(Reg.comm0 5, 0x80010004), (Reg.comm3 5, m), (Reg.ceSpillBaseLo 0, 0), (Reg.ceSpillBaseHi 0, 0)]
    (setCe 0 { ce testCluster 0 with spill := 10 } testCluster)

theorem witness_CollectiveTables :
    (∀ m ∈ [1024, 1025], let s := testRegs [(Reg.comm3 4095, BitVec.ofNat 32 m)] testCluster
      resvBreaks s 4095 (commNew s 4095 0x80010004) (reg s (Reg.comm3 4095)) = (if m = 1024 then [] else [0])) ∧
    (regGated (testSpill 1024) (Reg.ceCfg 0) = false ∧ spillBreaks (testSpill 1024) 0 0 0 = false ∧
      spillBreaks (testSpill 1025) 0 0 0 = true) ∧
    (((usedSlots (testSpill 0) 0).any (fun e => 1024 ≤ e.1)) = false ∧
      ((usedSlots (testCe (testCup 0 1 0 0) [(1024, some (testBcs 5))]) 0).any (fun e => 1024 ≤ e.1)) = true) ∧
    (regGated testCluster (Reg.ceCrCi 0) = false ∧
      (rf testCluster (Reg.ceCrPi 0) 12 0 + 8192 - (4096 : Word).toNat % 8192) % 8192 ≤ 4096 ∧
      4096 < (rf testCluster (Reg.ceCrPi 0) 12 0 + 8192 - (4095 : Word).toNat % 8192) % 8192) :=
  .intro (by decide +kernel) <| .intro (by decide +kernel) <| .intro (by decide +kernel) <| by decide +kernel

/-- A post for the chunk of the tests, of epoch e. -/
def testPost (e : Nat) : Post :=
  ⟨0, 0, 6, 1, 5, 9, 0, e, 0, 0, 8, false, false, 0, 0, 0, 0, 0, 0, 1, 0, 0, false, 0, 0, 0, 16, [], zeroBytes 32⟩
/-- Quadrant 0 with posts on the ring and in the queue. -/
def testPosts (ring queue : List Post) (slots : List (Nat × Option SlotSt)) : State :=
  let s := testCe (testCup 0 1 0 0) slots
  setFi 0 { fi s 0 with ring := ring, queue := queue } s
/-- A fused instruction's record: its chunks ended, and its release time. -/
def testRec (ends : List ChunkEnd) (T : Nat) : FiRec :=
  ⟨0, 0, 0, 1, 5, 9, 0, 1, 0, 0, false, 0, 0, 1, ends, none, none, some T, []⟩
/-- A chunk whose first task is in phase n, given to wick 31 of engine 0. -/
def testTask (n : Nat) : SlotSt :=
  { testSlot 5 0x20000000 8 1 with stage := 3, post := some (testPost 0), tasks := [⟨n, 0, 31, [], [], [], []⟩] }
/-- Engine 0 runs for job 1 with wick 31 a task wick. -/
def testTasks (n : Nat) (mask : Word) : State :=
  testRegs [(Reg.leCtrl 0 0, 1), (Reg.leTask 0 0, mask), (Reg.leCfg 0 0, 0x80000001)] (testPosts [] [] [(8, some (testTask n))])

theorem witness_PostsAndTasks :
    ((fi (testPosts [testPost 0] [] [(8, some (testSlot 2 0 0 1))]) 0).ring = testPost 0 :: [] ∧
      (fi (testPosts [testPost 0] [] [(8, some (testSlot 2 0 0 1))]) 0).queue.length < 1024) ∧
    (∀ x ∈ [testSlot 2 0 0 1, { testSlot 2 0 0 1 with post := some (testPost 0) }],
      let s := testPosts [testPost 0] [] [(8, some x)]
      quadShut s 0 = false ∧ epochCmp s 1 0 = 0 ∧ findSlot s 0 1 5 9 0 = some (8, x) ∧ x.gather = [] ∧ x.state ≠ 4 ∧ x.state ≠ 9 ∧
        (testPost 0).repair = false) ∧
    (∀ e ∈ [1, 65535], epochCmp (testPosts [testPost e] [] []) (testPost e).job (testPost e).epoch ≠ 0) ∧
    (findSlot (testPosts [testPost 0] [] []) 0 1 5 9 0 = none ∧ selectDesc (testPosts [testPost 0] [] []) 5 9 = none) ∧
    (1024 ≤ (List.replicate 1024 (testPost 0)).length ∧ (fi (testPosts [] [testPost 0] []) 0).queue = [testPost 0]) ∧
    (∀ ends ∈ [[], [⟨0, 0, 0, 0, [], []⟩]], fiRec? (setFi 0 { fi testCluster 0 with recs := [(255, some (testRec ends 0))] } testCluster) 0 255 =
      some (testRec ends 0) ∧ 0 ≤ devTicks testCluster) ∧
    (fiRec? (setFi 0 { fi testCluster 0 with recs := [(255, some (testRec [] (2 ^ 70)))] } testCluster) 0 255 = some (testRec [] (2 ^ 70)) ∧
      devTicks testCluster < 2 ^ 70) ∧
    (clusterDown (testTasks 0 0x80000000) 0 = false ∧
      waitingTask (testTasks 0 0x80000000) 0 = some (8, 0, testTask 0, testPost 0) ∧
      nextTaskWick (testTasks 0 0x80000000) 0 1 (testPost 0).digest = some (0, 31) ∧
      nextTaskWick (testTasks 0 0) 0 1 (testPost 0).digest = none) ∧
    (let s := setLx 0 { lx (testTasks 1 0x80000000) 0 with wicks := [(31, { WickSt.init with task := some (8, 0) })] } (testTasks 1 0x80000000)
    (wkGet ⟨0, 0, 31⟩ s).task = some (8, 0) ∧ slotAt s 0 8 = some (testTask 1) ∧
      (testTask 1).tasks[0]? = some ⟨1, 0, 31, [], [], [], []⟩ ∧
      clusterDown s 0 = false ∧ quadAccs s 0 = []) :=
  .intro (by decide +kernel) <| .intro (by decide +kernel) <| .intro (by decide +kernel) <| .intro (by decide +kernel) <|
    .intro (by decide +kernel) <| .intro (by decide +kernel) <| .intro (by decide +kernel) <| .intro (by decide +kernel) <|
    by decide +kernel

/-- Wick 0 with the given state and pending counter 0. -/
def testWk (st c : Nat) : State := testPut { WickSt.init with state := st, oc := [c, 0, 0, 0] } testCluster
/-- That part with code range 0's words. -/
def testRange (w0 w1 w2 : Word) : State := testRegs [(Reg.csRange0 0 0, w0), (Reg.csRange1 0 0, w1), (Reg.csRange2 0 0, w2)] testCluster

theorem witness_EngineControl :
    (∀ st ∈ [0, 6], clusterDown (testWk st 0) testId.q = false ∧ (wkGet testId (testWk st 0)).state = st ∧
      rb (testWk st 0) (Reg.leTask testId.q testId.e) testId.w = false) ∧
    ((wkGet testId (testWk 1 0)).state ≠ 0 ∧ (wkGet testId (testWk 1 0)).state ≠ 6 ∧ (wkGet testId (testWk 7 1)).state ≠ 0) ∧
    ((wkGet testId (testWk 1 0)).oc.all (· == 0) = true ∧ (wkGet testId (testWk 1 1)).oc.all (· == 0) = false) ∧
    (leRange testCluster 0 0 = 0 ∧ rb testCluster (Reg.csRange0 0 0) 31 = true ∧ rb testCluster (Reg.csRange0 0 0) 30 = false ∧
      rb (testRange 0xC0000000 0 16) (Reg.csRange0 0 0) 30 = true) ∧
    (codeDown (testRange 0 0x3FFFF 1) 0 = false ∧ rb (testRange 0 0x3FFFF 1) (Reg.csRange0 0 0) 31 = false ∧
      rf (testRange 0 0x3FFFF 1) (Reg.csRange2 0 0) 18 0 ≠ 0 ∧
      rf (testRange 0 0x3FFFF 1) (Reg.csRange1 0 0) 17 0 + rf (testRange 0 0x3FFFF 1) (Reg.csRange2 0 0) 18 0 ≤ 262144) ∧
    (262144 < rf (testRange 0 0x3FFFF 2) (Reg.csRange1 0 0) 17 0 + rf (testRange 0 0x3FFFF 2) (Reg.csRange2 0 0) 18 0 ∧
      rf (testRange 0 0 0) (Reg.csRange2 0 0) 18 0 = 0) ∧
    (rb (testRange 0x80000000 0 16) (Reg.csRange0 0 0) 31 = true ∧ leRange (testRange 0x80000000 0 16) 0 63 = (0 : Fin 16).val ∧
      rb (testRegs [(Reg.csRange0 0 15, 0x80000000)] testCluster) (Reg.csRange0 0 15) 31 = true) :=
  .intro (by decide +kernel) <| .intro (by decide +kernel) <| .intro (by decide +kernel) <| .intro (by decide +kernel) <|
    .intro (by decide +kernel) <| .intro (by decide +kernel) <| by decide +kernel

/-- Wick 0 runs beside a long operation of its. -/
def testOp (o : LongOp) (st : Nat := 1) : State :=
  setLx 0 { lx (testWk st 1) 0 with ops := [o] } (testWk st 1)
/-- A finished load into s31, and one that has failed. -/
def testLoad (f : Nat) : LongOp := ⟨5, 0, 0, 3, .load 31 3 false, 4, true, some ⟨f, 0, leBytes 8 7⟩, []⟩
/-- Quadrant 0 with a message for engine 0, and n messages of that engine queued. -/
def testMsgs (p : UPkt) (n : Nat) : State :=
  setSw 0 { sw testCluster 0 with lxIn := [p] }
    (setLx 0 { lx testCluster 0 with msgs := List.replicate n (0, 0, ⟨0, [], [], 0, none, none⟩) } testCluster)

/-- A wick that waits for a far time. -/
def testWaitT : State := testPut { WickSt.init with state := 4, wait := .time (2 ^ 70) } testCluster

theorem witness_EngineEvents :
    ((lx (testOp (testLoad 0)) 0).ops.find? (fun x => x.id == (testLoad 0).id) = some (testLoad 0) ∧ (testLoad 0).ctr < 4 ∧
      (testLoad 0).fin = some ⟨0, 0, leBytes 8 7⟩) ∧
    ((lx (testOp (testLoad 15)) testId.q).ops.find? (fun x => x.id == (testLoad 15).id) = some (testLoad 15) ∧
      (testLoad 15).ready = true ∧ (∀ l n h, (testLoad 15).kind ≠ .send l n h) ∧
      (∀ l n p b c d, (testLoad 15).kind ≠ .hash l n p b c d) ∧ (wkGet testId (testOp (testLoad 15))).state = 1) ∧
    (let s := testRegs [(Reg.leCfg 0 0, 0x80200000)] (testPut { WickSt.init with state := 1, quantum := 2 } testCluster)
    canIssue s testId.q testId.e testId.w = true ∧ quantumSpent s testId.q testId.e testId.w = true) ∧
    (quantumSpent testWick testId.q testId.e testId.w = false ∧ canIssue (testWk 0 0) testId.q testId.e testId.w = false) ∧
    (let s := testPut { WickSt.init with state := 4, wait := .time 0 } testCluster
    clusterDown s testId.q = false ∧ (wkGet testId s).state = 4 ∧ (wkGet testId s).wait = .time 0 ∧ 0 ≤ devTicks s) ∧
    ((wkGet testId testWaitT).state = 4 ∧ ∀ T, (wkGet testId testWaitT).wait = .time T → devTicks testWaitT < T) ∧
    (let p : UPkt := ⟨0, zeroBytes 64, [], 0, none, none⟩
    (sw (testMsgs p 31) 0).lxIn = p :: [] ∧ leRun (testMsgs p 31) 0 0 = true ∧ hJob p.head = leJob (testMsgs p 31) 0 0 ∧
      engineMsgs (testMsgs p 31) 0 0 < 32 ∧ msgFull (testMsgs p 31) 0 = false ∧ waitingRecv (testMsgs p 31) 0 0 0 = none ∧
      32 ≤ engineMsgs (testMsgs p 32) 0 0) ∧
    (AtIssue testId testWick ∧ legal 15 0 (fieldsOf 0) = false) ∧
    (let s := testPut { WickSt.init with state := 1, pc := 16 } testCluster
    canIssue s testId.q testId.e testId.w = true ∧ pcInRange s testId.q testId.e testId.w = false) ∧
    (fused testCluster = true ∧ lxTagsUsed testCluster 0 = 0 ∧ msTagsUsed testCluster 0 = 0) :=
  .intro (by decide +kernel) <|
    .intro (by exact ⟨by decide +kernel, by decide, fun _ _ _ => by simp [testLoad], fun _ _ _ _ _ _ => by simp [testLoad], by decide +kernel⟩) <|
    .intro (by decide +kernel) <| .intro (by decide +kernel) <| .intro (by decide +kernel) <|
    .intro (by exact ⟨by decide +kernel, fun T h => by rw [show (wkGet testId testWaitT).wait = .time (2 ^ 70) from by decide +kernel] at h; cases h; decide +kernel⟩) <|
    .intro (by decide +kernel) <| .intro (by unfold AtIssue; decide +kernel) <| .intro (by decide +kernel) <|
    by decide +kernel

/-- A memory request of opcode o at address a: READ of 8 bytes, or FADD of a 64-bit word, combining or not. -/
def testReq (o a : Nat) (comb : Nat := 0) : UPkt :=
  ⟨2, commonHead testUp.fuses.epid.toNat 1 1 0 1 0 0 0 0 (16 * comb) ++ memClass a o (if o = 1 then 0 else 3) (if o = 1 then 8 else 0) 3 0 7 0 0,
    [], 0, none, none⟩
/-- Quadrant 0 with that request waiting, combining on, and an open entry. -/
def testMs (p : UPkt) (combs : List Comb) (tags : Nat) : State :=
  testRegs [(Reg.msCfg 0, 0x80000010)]
    (setSw 0 { sw testMem 0 with msIn := [p] } (setMs 0 { ms testMem 0 with combs := combs, msPool := tags } testMem))
/-- A state whose quadrant 0 has no origin space left, also for link 2. -/
def testFull (s : State) : State := setSw 0 { sw s 0 with originUsed := (sw s 0).originPool, linkUsed := [(2, 65), (0, 65)] } s
/-- An entry of the given kind at 0x40. -/
def testComb (kind : Nat) (members : List (UPkt × Nat)) : Comb := ⟨9, kind, 0x40, if kind = 0 then 8 else 3, false, 0, 0, members, false⟩
/-- A PEER_WR of 4 bytes at address a. -/
def testPw (a : Nat) : UPkt := ⟨0, commonHead 0 1 1 0 5 0 0 0 4 0 ++ memClass a 2 0 0 3 0 0 0 0, [1, 2, 3, 4], 0, none, none⟩
/-- Quadrant 0 with a PEER_WR and a PEER_ACK at its queues, region 0 a MIRROR. -/
def testPeerIn (p : UPkt) : State :=
  testRegs [(Reg.rgnMem 0, 0x80000000), (Reg.rgn5 0, 0)]
    (setSw 0 { sw testMem 0 with peerIn := [p], ackIn := [p] } (setPeers 0 ⟨4, [(3, 0, .op 5)]⟩ testMem))

theorem witness_MemoryService :
    (∀ a ∈ [0x10000, 0x40], (sw (testMs (testReq 1 a) [] 8) 0).msIn = testReq 1 a :: [] ∧
      needsRepair (testMs (testReq 1 a) [] 8) 0 (testReq 1 a).head (reqLen (testReq 1 a).head) = false ∧
      reqCheck (testMs (testReq 1 a) [] 8) (testReq 1 a) = (if a = 0x40 then 0 else 2) ∧ (testReq 1 a).resv = none) ∧
    (let s := testMs (testReq 1 0x40) [] 8
    (reserveAnswer 0 (answerFlits (testReq 1 0x40).head) (testReq 1 0x40) s).isSome = true ∧
      (reserveAnswer 0 (answerFlits (testReq 1 0x40).head) (testReq 1 0x40) (testFull s)).isNone = true ∧
      (sw (testFull s) 0).msIn = [testReq 1 0x40] ∧ reqCheck (testFull s) (testReq 1 0x40) = 0) ∧
    (combKind (testMs (testReq 1 0x40) [] 8) 0 (testReq 1 0x40).head = none ∧ openCombs (testMs (testReq 1 0x40) [] 8) 0 = [] ∧
      msTagsUsed (testMs (testReq 1 0x40) [] 1) 0 < msPoolSize (testMs (testReq 1 0x40) [] 1) 0 ∧
      msPoolSize (testMs (testReq 1 0x40) [] 0) 0 ≤ msTagsUsed (testMs (testReq 1 0x40) [] 0) 0) ∧
    (∀ o ∈ [1, 0x10], let k := if o = 1 then 0 else 1
      let s := testMs (testReq o 0x40 1) [testComb k []] 8
      reqCheck s (testReq o 0x40 1) = 0 ∧ combKind s 0 (testReq o 0x40 1).head = some k ∧
        (ms s 0).combs.find? (combMatches s.time.l (combineWindow s 0) k (testReq o 0x40 1).head) = some (testComb k []) ∧
        (reserveAnswer 0 (answerFlits (testReq o 0x40 1).head) (testReq o 0x40 1) s).isSome = true) ∧
    ((ms (testMs (testReq 1 0) [testComb 1 []] 8) 0).combs = [testComb 1 []] ∧ (testComb 1 []).closed = false ∧
      (testComb 1 []).kind ≠ 0) ∧
    (∀ a ∈ [0xFFFC, 0x10000], (sw (testPeerIn (testPw a)) 0).peerIn = testPw a :: [] ∧
      needsRepair (testPeerIn (testPw a)) 0 (testPw a).head (hPlen (testPw a).head) = false ∧
      peerCheck (testPeerIn (testPw a)) 0 (testPw a) = (if a = 0xFFFC then 0 else 2) ∧ (testPw a).resv = none) ∧
    (let s := testPeerIn (testPw 0xFFFC)
    (reserveAnswer 0 1 (testPw 0xFFFC) s).isSome = true ∧ (reserveAnswer 0 1 (testPw 0xFFFC) (testFull s)).isNone = true ∧
      (sw (testFull s) 0).peerIn = [testPw 0xFFFC] ∧ peerCheck (testFull s) 0 (testPw 0xFFFC) = 0) ∧
    ((sw (testPeerIn (testPw 0)) 0).ackIn = testPw 0 :: [] ∧
      (peers (testPeerIn (testPw 0)) 0).out.find? (fun o => o.1 == mRtag (testPw 0).head % 16384) = some (3, 0, .op 5)) :=
  .intro (by decide +kernel) <| .intro (by decide +kernel) <| .intro (by decide +kernel) <| .intro (by decide +kernel) <|
    .intro (by decide +kernel) <| .intro (by decide +kernel) <| .intro (by decide +kernel) <| by decide +kernel

/-- Stack 0 with one granted access. -/
def testAcc (o : AccOwner) (op : MemOp) (granted : Bool := true) (s : State := testMem) : State :=
  setStack 0 { stack s 0 with accs := [⟨5, 0, 0, true, granted, 0, 0x40, op, o⟩] } s

theorem witness_StackAccesses :
    ((stack (testAcc (.op 0 1) (.read 8) false) 0).accs.find? (fun x => x.id == 5) =
      some ⟨5, 0, 0, true, false, 0, 0x40, .read 8, .op 0 1⟩) ∧
    (∀ op ∈ [MemOp.read 8, .write [1, 2], .atomic 0x10 true 1 0 false, .atomic 0x15 false 1 0 true],
      AccDue 0 ⟨5, 0, 0, true, true, 0, 0x40, op, .op 0 1⟩ (testAcc (.op 0 1) op)) ∧
    (stackOnline (testAcc (.op 0 1) (.read 8)) 0 = true ∧ (stack (testAcc (.op 0 1) (.read 8)) 0).bad = [] ∧
      AccDue 0 ⟨5, 0, 0, true, true, 0, 0x40, .write [1], .window 1 0⟩ (testAcc (.window 1 0) (.write [1]))) ∧
    (let s := testAcc (.op 0 1) (.read 8) true (testRegs [(Reg.igStatus 0 0, 0x50000000)] testMem)
    AccDue 0 ⟨5, 0, 0, true, true, 0, 0x40, .read 8, .op 0 1⟩ s ∧ stackOnline s 0 = false) ∧
    (accLines 0x40 (.read 8) = [1] ∧ markedDie (testAcc (.op 0 1) (.read 8)) 0 = none ∧
      8 < ((([0, 1, 2, 3, 4, 5, 6, 7, 8] : List (Fin 16)).map (fun d => (⟨1, d, 0⟩ : SymErr))).eraseDups.filter (fun e => e.line.val == 1)).length) ∧
    ((stack (setStack 0 { stack testMem 0 with copying := [7] } testMem) 0).copying.contains (7 : BitVec 25).toNat = true ∧
      (stack testMem 0).copying.contains (7 : BitVec 25).toNat = false) ∧
    (regGated testMem (Reg.igRetire 0 0) = false ∧ regGated testMem (Reg.igCtrl 0 0) = false ∧ spares testMem 0 = 0 ∧
      spares (testRegs [(Reg.igStatus 0 0, 0x30000FFF)] testMem) 0 = 4095) :=
  .intro (by decide +kernel) <| .intro (by unfold AccDue; decide +kernel) <| .intro (by unfold AccDue; decide +kernel) <|
    .intro (by unfold AccDue; decide +kernel) <| .intro (by decide +kernel) <| .intro (by decide +kernel) <| by decide +kernel

/-- Stack 0 in the given state, its IG_CTRL and its UNIT_STATE. -/
def testStack (st ctrl unit : Word) : State :=
  testRegs [(Reg.igStatus 0 0, st <<< 28), (Reg.igCtrl 0 0, ctrl), (Reg.unitState 20, unit <<< 28)] testCluster

theorem witness_StacksAndRegions :
    (∀ st ∈ [3, 5], regGated (testStack (BitVec.ofNat 32 st) 0 4) (Reg.igCtrl 0 0) = false ∧
      rb (testStack (BitVec.ofNat 32 st) 0 4) (Reg.igCtrl 0 0) 31 = false ∧ stackState (testStack (BitVec.ofNat 32 st) 0 4) 0 = st) ∧
    ((stack (testStack 3 0 4) 0).accs = [] ∧ openCombs (testStack 3 0 4) 0 = [] ∧ usedSlots (testStack 3 0 4) 0 = []) ∧
    (∀ st ∈ [3, 5], rb (testStack (BitVec.ofNat 32 st) 0x80000000 4) (Reg.igCtrl 0 0) 31 = true ∧
      regGated (testStack (BitVec.ofNat 32 st) 0x80000000 4) (Reg.igCtrl 0 0) = false) ∧
    (stackGone (testStack 4 0 6) 0 = false ∧ stackState (testStack 4 0 6) 0 = 4 ∧ (stack (testStack 4 0 6) 0).accs = [] ∧
      stackState testMem 0 ≠ 4) ∧
    (∀ u ∈ [2, 3], stackGone (testStack 2 0 (BitVec.ofNat 32 u)) 0 = false ∧ stackState (testStack 2 0 (BitVec.ofNat 32 u)) 0 = 2 ∧
      unitState (testStack 2 0 (BitVec.ofNat 32 u)) 20 = u) ∧
    (flag (0x7FFFFFFF : Word) 31 = false ∧ rgnRejects testMem 255 0x10000 0 1 1 ≠ 1 ∧ rgnRejects testMem 255 0xF000 0 1 1 = 1 ∧
      rgnRejects testMem 255 0 0 0 0 ≠ 0) ∧
    (rgnRejects testMem 255 0x12000 0 1 1 = 0 ∧ rgnRejects testMem 0 0 0 1 1 = 0) :=
  .intro (by decide +kernel) <| .intro (by decide +kernel) <| .intro (by decide +kernel) <| .intro (by decide +kernel) <|
    .intro (by decide +kernel) <| .intro (by decide +kernel) <| by decide +kernel

/-- Changes of device time that wait. -/
def testApplies (c : TimeChange) : State := { testCluster with time := { testCluster.time with applies := [(5, c)] } }
/-- The servo in state n with its age beyond and within the limit. -/
def testServo (n : Nat) (age : BitVec 48) : State :=
  testRegs [(Reg.timeCfg, 0x40000000), (Reg.timeStatus, BitVec.ofNat 32 (n * 2 ^ 28)), (Reg.timeThresh, 0x01000000)]
    { testUp with time := { testUp.time with age := age } }

theorem witness_DeviceTime :
    (∀ c ∈ [TimeChange.rate 5, .step (-3), .set 9], (testApplies c).time.applies = (5, c) :: []) ∧
    (testCluster.time.applies = [] ∧ servoRuns (testServo 1 0) = true ∧ servoRuns (testRegs [(Reg.timeCfg, 0)] testCluster) = false) ∧
    ((testServo 2 (BitVec.ofNat 48 (holdTicks (testServo 2 0)))).time.age.toNat ≤ holdTicks (testServo 2 0)) ∧
    (holdTicks (testServo 2 0) < (testServo 2 (BitVec.ofNat 48 (holdTicks (testServo 2 0) + 1))).time.age.toNat ∧
      servoState (testServo 2 0) ≠ 3) :=
  .intro (by decide +kernel) <| .intro (by decide +kernel) <| .intro (by decide +kernel) <| by decide +kernel

/-- Link 0 UP with a time port role: 1 master, 2 slave, 4 software; its servo LOCKED. -/
def testTp (role : Nat) (l : LinkSt := { LinkSt.init with rxMap := 0x76543210 }) : State :=
  testRegs [(tpCfg 0, BitVec.ofNat 32 role)] (setLink 0 l (testServo 2 0))
/-- A stamp of period n. -/
def testStamp (n : Nat) : Stamp := ⟨BitVec.ofNat 32 n, BitVec.ofNat 80 (n * 65536), n, 0⟩
/-- A slave with an exchange open for SEQID 3. -/
def testExch (valid : Bool) (t1 : Option (BitVec 80)) : State :=
  testTp 2 { LinkSt.init with rxMap := 0x76543210, rxStamps := [testStamp 2], txStamps := [testStamp 4],
                              exch := some ⟨3, valid, 0, 2, some (testStamp 2), t1, 0, 4⟩ }
/-- A message of SEQID n for period 2. -/
def testTm (n : Nat) : TimeMsg := ⟨BitVec.ofNat 16 n, 2, 0x60000, 0, 1, 0, 0⟩

theorem witness_TimeExchanges :
    (tpSlave (testTp 2) 0 = true ∧ tpMaster (testTp 1) 0 = true ∧ (link (testTp 2) 0).exch = none) ∧
    ((link (testExch true none) 0).exch = some ⟨3, true, 0, 2, some (testStamp 2), none, 0, 4⟩ ∧ (3 : BitVec 16) = (testTm 3).seqid ∧
      (3 : BitVec 16) ≠ (testTm 4).seqid) ∧
    (findStamp (testTm 3).period (link (testTp 1) 0).rxStamps = none ∧
      findStamp (testTm 3).period (link (testTp 1 { LinkSt.init with rxStamps := [testStamp 2] }) 0).rxStamps = some (testStamp 2)) ∧
    (let s := testExch true (some 0x10000)
    let r := exchange 0x10000 (testStamp 2).time (testStamp 4).time (testTm 3).stamp 0 (testTm 3).corr.toInt (corrRx s 0) (corrTx s 0)
    tpSlave s 0 = true ∧ findStamp 4 (link s 0).txStamps = some (testStamp 4) ∧ (findStamp 2 (link s 0).rxStamps).isSome = true ∧
      lanesHeld s 0 (testStamp 2) (testStamp 4) = true ∧ 0 ≤ r.2 ∧ r.2 ≤ 2 ^ 36) ∧
    (let s := { testExch true (some 0x10000) with time := { testCluster.time with prevT2 := some 1 } }
    (0 : Nat) = servoSrc s ∧ servoRuns s = true ∧ hostDecided s = false ∧ servoState s = 2 ∧ s.time.prevT2 = some 1 ∧
      1 < (testStamp 2).l ∧ 2 - 1 ≤ 16 * syncTicks s) ∧
    ((0 : Nat) ≠ servoSrc (testRegs [(Reg.timeCfg, 0x40000001)] (testExch true (some 0x10000)))) ∧
    (hostDecided { testCluster with time := { testCluster.time with applies := [(64, .step 1)] } } = true) ∧
    (let s := testRegs [(Reg.timeCfg, 0x60000000), (Reg.timeStatus, 0x10000000), (Reg.stepThresh, 1)] (testExch true (some 0x30000))
    let r := exchange 0x30000 (testStamp 2).time (testStamp 4).time (testTm 3).stamp 0 (testTm 3).corr.toInt (corrRx s 0) (corrTx s 0)
    servoRuns s = true ∧ hostDecided s = false ∧ servoState s = 1 ∧ rb s Reg.timeCfg 29 = true ∧ reg s Reg.stepThresh ≠ 0 ∧
      (reg s Reg.stepThresh).toNat * 65536 < r.1.natAbs ∧ 0 ≤ r.2 ∧ r.2 ≤ 2 ^ 36 ∧ lanesHeld s 0 (testStamp 2) (testStamp 4) = true) ∧
    (∀ n ∈ [0, 64], let s := testRegs [(Reg.trxPi 0, BitVec.ofNat 32 n)] (testTp 4)
      linkUp s 0 = true ∧ tpSw s 0 = true ∧ tqFill s (Reg.trxPi (linkQuad 0)) (Reg.trxCi (linkQuad 0)) = n) ∧
    (regGated testCluster (Reg.tqTxCtl 0) = false ∧ (tq testCluster 0).tx = none ∧
      (tq (setTq 0 { tq testCluster 0 with tx := some (1, true, 1023, [0x30]) } testCluster) 0).tx = some (1, true, 1023, [0x30])) ∧
    (linkQuad 0 = 0 ∧ linkUp testUp 0 = true ∧
      (tq (setTq 0 { tq testUp 0 with tx := some (1, true, 0, [0x30]) } testUp) 0).tx = some (1, true, 0, [0x30])) ∧
    (linkQuad 1023 ≠ 0 ∧ linkUp testUp 1 = false ∧ tqFill testCluster (Reg.tsqPi 0) (Reg.tsqCi 0) ≠ 64) ∧
    (∀ v ∈ [64, 63], regGated testCluster (Reg.trxCi 0) = false ∧ regGated testCluster (Reg.tsqCi 0) = false ∧
      ((rf testCluster (Reg.trxPi 0) 6 0 + 128 - v % 128) % 128 ≤ 64) = (v = 64)) :=
  .intro (by decide +kernel) <| .intro (by decide +kernel) <| .intro (by decide +kernel) <| .intro (by decide +kernel) <|
    .intro (by decide +kernel) <| .intro (by decide +kernel) <| .intro (by decide +kernel) <| .intro (by decide +kernel) <|
    .intro (by decide +kernel) <| .intro (by decide +kernel) <| .intro (by decide +kernel) <| .intro (by decide +kernel) <|
    by decide +kernel

/-- The device with PERST_N high, DEV_READY and the verified lanes of S0 as given. -/
def testHost (ready : Bool) (lanes : Word := 0xFF) : State :=
  testRegs [(Reg.hifStatus, 0x20000000 + lanes)] { testCluster with host := { testCluster.host with devReady := ready } }
/-- The device in reset by PERST_N. -/
def testPerst : State := testRegs [(Reg.hifStatus, 0)] testCluster

theorem witness_HostLink :
    (∀ n ∈ [0x20, 0x30, 0x40], perstHigh (testStage (BitVec.ofNat 32 n)) = true ∧ bootStage (testStage (BitVec.ofNat 32 n)) = n) ∧
    (perstHigh testPerst = false ∧ perstHigh (testHost true) = true ∧ (testHost true).host.devReady = true ∧
      (testHost false).host.devReady = false ∧ (testHost true).power.waitLock = false ∧ rf (testHost true) Reg.hifStatus 7 0 = 0xFF ∧
      ({ testHost true with power := ⟨true, 0, true⟩ } : State).power.waitLock = true ∧
        rf (testHost true 0x7F) Reg.hifStatus 7 0 ≠ 0xFF) ∧
    (rb (testHost true) Reg.hifStatus 31 = false ∧ rb (testRegs [(Reg.hifStatus, 0xA00000FF)] (testHost true)) Reg.hifStatus 31 = true) :=
  .intro (by decide +kernel) <| .intro (by decide +kernel) <| by decide +kernel

/-- Flag i of the sideband with its last frame's value and the run of frames that show it. -/
def testSb (v : Bool) (n bad good : Nat) (lost : Bool) : State :=
  testRegs [(Reg.hifStatus, if lost then 0x60000000 else 0x20000000)]
    { testCluster with host := { testCluster.host with sbCand := [(v, n), (v, n), (v, n)], sbFlags := [true, false, false],
                                                       sbBad := bad, sbGood := good } }

theorem witness_Sideband :
    (([7, 0, 0, 0x16] : List Byte).length = 4 ∧ crc8 (([7, 0, 0, 0x16] : List Byte).take 3) = byteAt [7, 0, 0, 0x16] 3) ∧
    (crc8 (([7, 0, 0, 0x17] : List Byte).take 3) ≠ byteAt [7, 0, 0, 0x17] 3 ∧ ([7, 0, 0] : List Byte).length ≠ 4) ∧
    (∀ b ∈ [6, 7], (testSb false 7 b 0 false).host.sbBad = b ∧ perstHigh (testSb false 7 b 63 true) = true) :=
  .intro (by decide +kernel) <| .intro (by decide +kernel) <| by decide +kernel

/-- That state in D3hot. -/
def testD3 (s : State) : State := { s with host := { s.host with d3hot := true } }

/-- What PlainReg asks of the register at `a`. -/
def testPlain (a : Nat) (s : State) : Bool :=
  (regDef a).any (fun d => !isStaged d && !isSnap d && (sqBit d).isNone &&
    !(if d.quad then quadRules else deviceRules).contains d.off && writeReaches s d a && d.rw != 0)

theorem witness_RegisterAccesses :
    (Answered (BitVec.ofNat 26 Reg.logThresh) testCluster ∧ testPlain Reg.logThresh testCluster = true ∧
      testPlain (Reg.llCfg 3 31) testCluster = true) ∧
    (Answered 0x300 testCluster ∧ regDef 0x300 = none ∧
      ((regDef (Reg.llCfg 0 0)).any (fun d => !writeReaches (testRegs [(Reg.unitState 0, 0x20000000)] testCluster) d (Reg.llCfg 0 0))) = true) ∧
    (¬ isRouteSpare 0x300 ∧ ∀ e ∈ [0, 1023], let a := Reg.route0 0 e + 24
      regDef a = none ∧ isRouteSpare a ∧ Answered (BitVec.ofNat 26 a) testCluster ∧ quadOf a = 0 ∧
        (a % 0x800000 - 0x610000) / 32 = e ∧ regGated testCluster (Reg.route0 0 e) = false ∧
          routeAccepts testCluster 0 e = decide (512 ≤ e)) ∧
    (bar0On testCluster = true ∧ (0x100068 : BarAddr).toNat % 8 = 0 ∧ perstHigh testPerst = false ∧
      perstHigh (testD3 testCluster) = true ∧
      (testD3 testCluster).host.d3hot = true) ∧
    ((2 : Nat) ≠ 4 ∧ (2 : Nat) ≠ 8 ∧ (6 : BarAddr).toNat % 4 ≠ 0 ∧ bar0On testPerst = false) ∧
    (((regDef (Reg.win1 0)).any (fun d => isStaged d && writeReaches testCluster d (Reg.win1 0))) = true ∧
      Answered (BitVec.ofNat 26 (Reg.win1 0)) testCluster) ∧
    (((regDef (Reg.timeCfg)).any (fun d => d.rw != 0 && !isStaged d && !isSnap d && (sqBit d).isNone)) = true) ∧
    (((regDef Reg.hifStatus).any (fun d => d.rw == 0)) = true ∧ (0x10000 : BarAddr).toNat < 0x20000) :=
  .intro (by unfold Answered; decide +kernel) <| .intro (by unfold Answered; decide +kernel) <|
    .intro (by unfold Answered isRouteSpare; decide +kernel) <| .intro (by decide +kernel) <| .intro (by decide +kernel) <|
    .intro (by unfold Answered; decide +kernel) <| .intro (by decide +kernel) <| by decide +kernel

/-- A sequence-cleared flag with its sequence at 5. -/
def testSq : State := testRegs [(Reg.ceStatus 0, 0x80050000)] testCluster

theorem witness_FlagsSnapshotsAndStagedWords :
    (((regDef (Reg.ceStatus 0)).any (fun d => sqBit d == some 31 && writeReaches testSq d (Reg.ceStatus 0))) = true ∧
      Answered (BitVec.ofNat 26 (Reg.ceStatus 0)) testSq ∧ flag (0x80050000 : Word) 31 = true ∧
      fld (0x80050000 : Word) 23 16 = rf testSq (Reg.ceStatus 0) 23 16 ∧
        fld (0x80060000 : Word) 23 16 ≠ rf testSq (Reg.ceStatus 0) 23 16) ∧
    (((regDef 0x1007FC).any (fun d => isSnap d && writeReaches testCluster d 0x1007FC)) = true ∧ Answered 0x1007FC testCluster ∧
      (testCluster.ctr.map (·.1)).Nodup) ∧
    (((regDef (Reg.win1 15)).any (fun d => isStaged d && writeReaches testCluster d (Reg.win1 15))) = true ∧
      Answered (BitVec.ofNat 26 (Reg.win1 15)) testCluster) ∧
    (((regDef (Reg.win1 15)).any (fun d => isStaged d && !writeReaches testPerst d (Reg.win1 15))) = true) ∧
    (regGated testCluster (Reg.win0 15) = false ∧ bar0On testCluster = true) ∧
    (regGated testCluster (Reg.pmcCtl 3 47) = false ∧ regGated testCluster (Reg.monSnap 3 15) = false ∧
      ∀ r ∈ [MonReg.cfg, .base, .width], regGated testCluster (monRegAddr 3 15 r) = false) ∧
    (let s := testRegs [(Reg.monCfg 0 15, 0x80060000)] testCluster
    rb s (Reg.monCfg 0 15) 31 = true ∧ quadShut s 0 = false ∧
      monLevelOf s 0 (rf s (Reg.monCfg 0 15) 23 16) (rf s (Reg.monCfg 0 15) 15 0) = true) :=
  .intro (by unfold Answered; decide +kernel) <| .intro (by unfold Answered; decide +kernel) <|
    .intro (by unfold Answered; decide +kernel) <| .intro (by decide +kernel) <| .intro (by decide +kernel) <|
    .intro (by decide +kernel) <| by decide +kernel

/-- Aperture 15 opens on Ingot address 0. -/
def testWin : State := testRegs [(Reg.win0 15, 0x80000000), (Reg.win1 15, 0), (Reg.win2 15, 0)] testMem

theorem witness_WindowAccesses :
    (Bar2On testWin ∧ (∀ x ∈ [0xF00000000, 0xF00000FF8], x % 4096 + 8 ≤ 4096 ∧ x / 2 ^ 32 % 16 = 15) ∧
      regGated testWin (Reg.win0 15) = false ∧ rb testWin (Reg.win0 15) 31 = true) ∧
    (winShape 0xF00000000 4096 (.windowRead 0xF00000000 4096) 0 [(0, .read 4096)] ∧
      winShape 0xF00000FFD 3 (.windowWrite 0xF00000FFD [some 1, none, some 3]) 1 [(0, .write [1]), (2, .write [3])] ∧
      winShape 0xF00000FFF 1 (.windowWrite 0xF00000FFF [none]) 1 [] ∧
      winShape 0xF00000FF8 8 (.windowAtomic 0xF00000FF8 .cas 1 2 true) 2 [(0, .atomic 0x12 true 1 2 false)]) ∧
    (allPopulated testWin 0 4096 = true ∧ stackOnline testWin (stackOf testWin 0) = true ∧ allPopulated testWin 0x1000 1 = true) ∧
    ((pageCuts 0xF00000FFF 2).length = 2 ∧ (pageCuts 0xF00000FFF 2).all (fun c => (winAddr testWin c.1).any (fun a =>
      allPopulated testWin a c.2 && stackOnline testWin (stackOf testWin a))) = true) ∧
    ((0, 1) ∈ pageCuts 0 1 ∧ winAddr testWin 0 = none) ∧
    (perstHigh { testWin with host := { testWin.host with d3hot := true } } = true ∧
      ({ testWin with host := { testWin.host with d3hot := true } } : State).host.d3hot = true ∧ perstHigh testPerst = false ∧
      partCode { testWin with fuses := { testWin.fuses with cap := 0x30000141 } } = 3) ∧
    (4 % (if true then 8 else 4) ≠ 0 ∧ 2 % (if false then 8 else 4) ≠ 0) :=
  .intro (by unfold Bar2On; decide +kernel) <|
    .intro (by exact ⟨.inl ⟨rfl, rfl, rfl⟩, .inr (.inl ⟨_, rfl, rfl, rfl, by decide⟩), .inr (.inl ⟨_, rfl, rfl, rfl, by decide⟩), .inr (.inr ⟨.cas, 1, 2, true, rfl, rfl, by decide, rfl, by simp⟩)⟩) <|
    .intro (by decide +kernel) <| .intro (by decide +kernel) <| .intro (by decide +kernel) <| .intro (by decide +kernel) <|
    by decide +kernel

/-- A 32-byte descriptor: its first word, host and device addresses. -/
def testDesc (w host dev : Nat) : List Byte := leBytes 4 w ++ zeroBytes 4 ++ leBytes 8 host ++ leBytes 8 dev ++ zeroBytes 8
/-- Engine 7 of quadrant 0 enabled, with TAIL at 1 and the given job. -/
def testDma (job : Option DmaJob) : State :=
  let s := testRegs [(Reg.dmaCtl 0 7, 0x80000004), (Reg.dmaTail 0 7, 1), (Reg.dmaHead 0 7, 0), (Reg.dmaStatus 0 7, 0)] testMem
  { s with host := { s.host with dma := [(7, ⟨job, true⟩)] } }
/-- A job of direction d that has or has not moved its data. -/
def testJob7 (d st : Nat) (moved : Bool) : DmaJob := ⟨9, testDesc (d * 2 ^ 28 + 1) 64 64, st, moved, []⟩

theorem witness_DmaEngines :
    (DmaFetches 0 7 (testDma none) ∧ (testDesc 1 0 0).length = 32 ∧ DmaOpen 0 7 (testDma none) ∧ (testDma none).host.d3hot = false ∧
      testPerst.host.d3hot = false) ∧
    (∀ g ∈ [false, true], (dma (setDma 7 ⟨none, g⟩ (testDma none)) 7).granted = g ∧
      (dma (setDma 7 ⟨none, g⟩ (testDma none)) 7).job = none ∧
      DmaOpen 0 7 (setDma 7 ⟨none, g⟩ (testDma none))) ∧
    (¬ DescLegal (testDesc 0 0 0) ∧ ¬ DescLegal (testDesc 0x30000001 0 0) ∧ ¬ DescLegal (testDesc 1 32 0) ∧
      ¬ DescLegal (testDesc 1 0 (2 ^ 41))) ∧
    ((∀ d ∈ [0, 1, 2], DescLegal (testDesc (d * 2 ^ 28 + 1) 64 64) ∧ dDir (testDesc (d * 2 ^ 28 + 1) 64 64) = d) ∧
      DescLegal (testDesc 0x40000 0 0) ∧ dLen (testDesc 0x40000 0 0) = 2 ^ 24) ∧
    (fused (testRegs [(Reg.sdPersonality, 0x1)] (testDma none)) = false ∧ fused (testDma none) = true ∧ partCode (testDma none) ≠ 3) ∧
    (homeQuad 64 = 0 ∧ homeQuad (2 ^ 39) ≠ 0 ∧ allPopulated (testDma none) 64 64 = true ∧ stackOnline (testDma none) 0 = true ∧
      stacksOf (testDma none) 64 64 = [0]) ∧
    (stacksOf (testDma none) (2 ^ 41 - 64) 64 ≠ [] ∧ stackOnline (testDma none) 11 = false) ∧
    (∀ t ∈ [16, 17], ((t + 32 - rf (testDma none) (Reg.dmaHead 0 7) 16 0 % 32) % 32 ≤ ringSize 0 7 (testDma none)) = (t = 16)) ∧
    (¬ DmaOpen 0 7 testPerst ∧ rb testMem (Reg.dmaCtl 0 7) 31 = false) ∧
    (∀ j ∈ [testJob7 1 0 true, testJob7 0 7 false, testJob7 2 0 false, testJob7 0 0 false, testJob7 0 0 true],
      (dma (testDma (some j)) 7).job = some j ∧ DmaOpen 0 7 (testDma (some j)) ∧ quadAccs (testDma (some j)) 0 = []) ∧
    ((dma (testDma none) 7).job = none ∧ rb (testDma none) (Reg.csRange0 0 0) 31 = true ∧
      max 64 (16 * rf (testDma none) (Reg.csRange1 0 0) 17 0) < min (64 + 64)
        (16 * (rf (testDma none) (Reg.csRange1 0 0) 17 0 + rf (testDma none) (Reg.csRange2 0 0) 18 0))) ∧
    (∀ m < 16, let s := testRegs [(Reg.csRange0 0 0, 0)] (testDma none)
      rb s (Reg.csRange0 0 m) 31 = false) :=
  .intro (by unfold DmaFetches DmaOpen; decide +kernel) <| .intro (by unfold DmaOpen; decide +kernel) <|
    .intro (by unfold DescLegal; decide +kernel) <| .intro (by unfold DescLegal; decide +kernel) <|
    .intro (by decide +kernel) <| .intro (by decide +kernel) <| .intro (by decide +kernel) <| .intro (by decide +kernel) <|
    .intro (by unfold DmaOpen; decide +kernel) <| .intro (by unfold DmaOpen; decide +kernel) <| .intro (by decide +kernel) <|
    by decide +kernel

/-- Result slot 4095 in the given state. -/
def testRs (st : RsState) : State :=
  { testCluster with host := { testCluster.host with slots := [(4095, { RsSlot.init with state := st, gen := 0xFFFF })] } }

theorem witness_ResultSlots :
    (∀ st ∈ [RsState.empty, .pending, .ready, .error], SlotsOpen (testRs st) ∧ (rslot (testRs st) 4095).state = st) ∧
    (flag (0x8000FFFF : Word) 31 = true ∧ fld (0x8000FFFF : Word) 15 0 = (rslot (testRs .empty) 4095).gen.toNat) ∧
    (fld (0x80000000 : Word) 15 0 ≠ (rslot (testRs .empty) 4095).gen.toNat ∧ perstHigh testPerst = false ∧
      perstHigh (testD3 testCluster) = true ∧ (testD3 testCluster).host.d3hot = true) :=
  .intro (by unfold SlotsOpen; decide +kernel) <| .intro (by decide +kernel) <| by decide +kernel

/-- Monitor 15 of quadrant 0 enabled for KIND k. -/
def testMon (k : Nat) : State := testRegs [(Reg.monCfg 0 15, BitVec.ofNat 32 (2 ^ 31 + k * 2 ^ 16))] testCluster

theorem witness_Monitors :
    (regGated testCluster (Reg.monSnap 0 15) = false ∧
      ∀ a ∈ [Reg.monCfg 0 15, Reg.monBase 0 15, Reg.monWidth 0 15], regGated testCluster a = false) ∧
    (∀ k ∈ [2, 5, 6], rb (testMon k) (Reg.monCfg 0 15) 31 = true ∧ quadShut (testMon k) 0 = false ∧
      rf (testMon k) (Reg.monCfg 0 15) 23 16 = k ∧ monLevelOf (testMon k) 0 k (rf (testMon k) (Reg.monCfg 0 15) 15 0) = true) ∧
    (∀ k ∈ [0, 1, 3, 4, 7], rf (testMon k) (Reg.monCfg 0 15) 23 16 = k ∧
      monLevelOf (testMon k) 0 k (rf (testMon k) (Reg.monCfg 0 15) 15 0) = false) ∧
    (regGated testCluster (Reg.pmcCtl 0 47) = false ∧
      regGated (testRegs [(Reg.unitState 0, 0x20000000)] testCluster) (Reg.pmcCtl 0 47) = true) :=
  .intro (by decide +kernel) <| .intro (by decide +kernel) <| .intro (by decide +kernel) <| by decide +kernel

/-- An event of origin o, and the log with queues, its write index and STOP. -/
def testEv (o : Nat) : LogEv := ⟨0, 0x0101, o, 0, 1, 0, []⟩
def testLog (qs : List (List LogEv)) (wr : Nat) (stop : Bool) : State :=
  testRegs [(Reg.logWr, BitVec.ofNat 32 wr), (Reg.logPi, BitVec.ofNat 32 wr), (Reg.logCi, 0), (Reg.logCfg, if stop then 0x80000000 else 0)]
    { testCluster with log := { LogSt.init with queues := qs, next := 1 } }

theorem witness_EmberLog :
    (NextOrigin (testLog [[], [], [], [testEv 3], [testEv 4]] 0 false) 4) ∧
    (NextOrigin (testLog [[testEv 0], [], [], [testEv 3], []] 0 false) 3) ∧
    (logClaimed (testLog [] 16383 false) = 16383 ∧ logClaimed (testLog [] 16384 true) = 16384 ∧
      rb (testLog [] 0 true) Reg.logCfg 31 = true ∧ rb (testLog [] 0 false) Reg.logCfg 31 = false) ∧
    ((testLog [[testEv 0], [], [], [testEv 3], []] 0 false).log.queues.getD 3 [] = testEv 3 :: []) ∧
    (∀ o, o < 5 → (testLog [] 0 false).log.queues.getD o [] = []) ∧
    (({ testCluster with log := { LogSt.init with lost := [0, 0, 0, 1], stopLost := 3 } } : State).log.lost.getD 3 0 = 1 ∧
      (0 : Nat) < 3 ∧ logClaimed testCluster < 16384) ∧
    (∀ v ∈ [0, 65535], let s := testLog [] 16384 false
      ((rf s Reg.logPi 15 0 + 65536 - v) % 65536 ≤ 16384) = (v = 0)) :=
  .intro (by exact .inl (by decide +kernel)) <| .intro (by exact .inr ⟨by decide +kernel, 2, by decide +kernel⟩) <|
    .intro (by decide +kernel) <| .intro (by decide +kernel) <|
    .intro (by intro o ho; exact (by decide +kernel : ∀ o < 5, (testLog [] 0 false).log.queues.getD o [] = []) o ho) <|
    .intro (by decide +kernel) <| by decide +kernel

theorem witness_CommandsAnswer :
    ∃ t, exec .timeReadLatch testCluster = .next t := by exact ⟨_, rfl⟩

theorem witness_MemoryStaysCanonical :
    Memory.wf ({ testMem with mem := [(3, 1), (2 ^ 40, 255)], pending := [.timeReadLatch] } : State).mem = true ∧
  ∃ t, step { testMem with mem := [(3, 1), (2 ^ 40, 255)], pending := [.timeReadLatch] } = .next t := by exact ⟨by decide, _, rfl⟩

theorem witness_MemoryAndFuseWriters :
    (∃ t, exec (.memReqService 0) testCluster = .next t) ∧ ¬ RegisterWrite (.memReqService 0) ∧ ¬ StartsAgain (.memReqService 0) ∧
  ¬ TakesUnitsDown (.memReqService 0) ∧ (∀ n id errs, Instr.memReqService 0 ≠ .stackAccessDone n id errs) ∧
  (∀ n, Instr.memReqService 0 ≠ .stackOfflineSet n) := by exact ⟨⟨_, rfl⟩, by simp [RegisterWrite], by simp [StartsAgain], by simp [TakesUnitsDown], fun _ _ _ => by simp, fun _ => by simp⟩

theorem witness_ScehusRoundTrip :
    (scehusOf 1 4 testId ⟨false, 2, 3, 1, 2, 0, 0, 0, 0⟩ = some (.vfma testId ⟨false, 2, 3, 1, 2, 0, 0, 0, 0⟩) ∧
      legal 1 4 ⟨false, 2, 3, 1, 2, 0, 0, 0, 0⟩ = true) ∧
    (∀ b', scehusDecode testId 0x10421844000000000000000000000000 ≠ .reservedInstruction testId b') :=
  .intro (by decide +kernel) <|
    by intro b'; rw [show scehusDecode testId 0x10421844000000000000000000000000 = .vfma testId ⟨false, 2, 3, 1, 2, 0, 0, 0, 0⟩ from by decide +kernel]; simp


/-! ### Ill-formed commands, one for each check -/

theorem test_wf_refuses :
    Instr.wf (.stagingWrite 0 []) = false ∧ Instr.wf (.bootDataRx 0 0 0 []) = false ∧
    Instr.wf (.switchFlitRx 0 (zeroBytes 63)) = false ∧ Instr.wf (.pilotWindow (.pe 0 0 0 false) []) = false ∧
    Instr.wf (.thermalSample 0 []) = false ∧ Instr.wf (.groupRx 0 [] (zeroBytes 64)) = false ∧
    Instr.wf (.packetHeadRx 0 (zeroBytes 65)) = false ∧ Instr.wf (.packetTailRx 0 (zeroBytes 4097) false) = false ∧
    Instr.wf (.crdRx 0 [0, 0]) = false ∧ Instr.wf (.crdInitRx 0 []) = false ∧ Instr.wf (.bridgePacketRx 2 2) = false ∧
    Instr.wf (.fwdBadOp 0 5) = false ∧ Instr.wf (.scrubRead 0 (2 ^ 31) []) = false ∧
    Instr.wf (.scrubRead 0 1 [⟨2, 0, 0⟩]) = false ∧ Instr.wf (.regWrite 0 ⟨3, true, 0⟩) = false ∧
    Instr.wf (.windowRead 0 0) = false ∧ Instr.wf (.windowWrite 0 []) = false ∧
    Instr.wf (.windowAtomic 4 .swap 0 0 true) = false ∧ Instr.wf (.dmaDescFetch 0 0 []) = false ∧
    Instr.wf (.tableParityErr .region 256 .master) = false := by decide +kernel

theorem test_wf_admits :
    Instr.wf (.stagingWrite 0 [some 1]) = true ∧ Instr.wf (.bridgePacketRx 0 3) = true ∧ Instr.wf (.fwdBadOp 0 6) = true ∧
    Instr.wf (.scrubRead 0 65 [⟨1, 0, 0⟩]) = true ∧ Instr.wf (.windowAtomic 8 .swap 0 0 true) = true ∧
    Instr.wf (.tableParityErr .comm 4095 .master) = true := by decide +kernel

/-! ### The spec's worked examples -/

-- The example after R10: CAP_UNITS of the three parts at stepping A1: their part code, stack IG03, and the cluster of QD0.
theorem test_cap_units :
    (fld 0x1FFFF1C1 31 28 = 1 ∧ flag 0x1FFFF1C1 19 = true) ∧
    (partCode { State.reset with fuses := { State.reset.fuses with cap := 0x2249F1C1 } } = 2 ∧
      stackPresent { State.reset with fuses := { State.reset.fuses with cap := 0x2249F1C1 } } 3 = true ∧
      stackPresent { State.reset with fuses := { State.reset.fuses with cap := 0x2249F1C1 } } 4 = false) ∧
    clusterPresent { State.reset with fuses := { State.reset.fuses with cap := 0x30000141 } } 0 = false := by decide +kernel

-- The example after R64: the rotation of a ×8 fiber after training: the lane that moves next, after no, one, eight periods.
theorem test_rotation : nextSource 0x76543210 8 = some 0 ∧ nextSource 0x76543218 0 = some 1 ∧ nextSource 0x65432108 7 = some 8 := by
  decide +kernel

-- The example after R138: the HEAD flit of a contribution, but for its CRC.
theorem test_head :
    commonHead 0x100203 0x210A5C 3 0 3 0x2A7 0x0119 0x5C01 4096 0 ++
        collClass 0x42 0xC35 7 1 3 16 16384 0x10 0 0 5 0x9E371C4D 0 =
      [0x03, 0x02, 0x10, 0x5C, 0x0A, 0x21, 0x63, 0xA7, 0x02, 0x19, 0x01, 0x01, 0x5C, 0x00, 0x00, 0x00,
       0x10, 0x00, 0x00, 0x00, 0x00, 0x00, 0x00, 0x00, 0x42, 0x00, 0x35, 0x0C, 0x00, 0x00, 0x07, 0x00,
       0x00, 0x00, 0x01, 0x00, 0x00, 0x00, 0x03, 0x10, 0x00, 0x40, 0x10, 0x00, 0x00, 0x00, 0x05, 0x00,
       0x4D, 0x1C, 0x37, 0x9E, 0x00, 0x00, 0x00, 0x00, 0x00, 0x00, 0x00, 0x00] := by decide +kernel

-- The example after R182: the bucket of endpoint 0x21_0A5C, and the location an INSERT gives it in an empty table.
theorem test_bucket : fwdBucket 0x9E3779 0x210A5C = 0x13F52 ∧ fwdPlace testCluster 0 0x210A5C = some 0x4FD48 := by decide +kernel

-- The example after R201: the words of the shaper of class 6 on LK0616: its address, its rate, and a cycle that fills its burst.
theorem test_shaper : Reg.shaper0 2 104 6 = 0x02213460 ∧ fld 0x801F4000 23 0 = 2048000 ∧
    shaperCycle 0x218C 0x1F4000 true (8588 * 65536 - 1) = 8588 * 65536 := by decide +kernel

-- R210: the lottery of requesters 0, 1 and 3, and the LFSR's next value.
theorem test_lottery :
    lotteryWinner (fun r => [8, 4, 0, 20].getD r 0) 0x9E3779B9 [0, 1, 3] = some 3 ∧ lfsrStep 0x9E3779B9 = 0x3C6EF373 := by
  decide +kernel

-- The example after R226: four FP32 elements on anchor 3 with ACC = 32, and the element that does not fit, with its ceiling exponent.
theorem test_grid :
    fpDecode 1 0x3FD9999A 0 = .fin false 14260634 (-23) ∧ (gridRound 11 3 false 14260634 (-23)).1 = 435 ∧
    (gridRound 11 3 true 10905190 (-22)).1 = -666 ∧ (gridRound 11 3 false 8388608 (-32)).1 = 0 ∧
    (gridRound 11 3 false 12582912 (-31)).1 = 2 ∧ ceilExp 14260634 (-23) = 1 ∧ ceilExp 8388608 (-32) = -8 := by decide +kernel

-- The example after R230: the re-reduction of 9.5 and 1.7 on anchors 3 and 5.
theorem test_rereduction :
    (gridRound 11 3 false 9961472 (-20)).2 = false ∧ ceilExp 9961472 (-20) = 4 ∧
    (gridRound 11 5 false 9961472 (-20)).1 + (gridRound 11 5 false 14260634 (-23)).1 = 717 := by decide +kernel

-- The example after R243: the sum −229 converted to FP32, BF16, and FP8 E4M3 under RNE and under SR with two random words.
theorem test_conversion :
    (fpRound 1 0 0 false true 229 (-8)).bits = some 0xBF650000 ∧ (fpRound 2 0 0 false true 229 (-8)).bits = some 0xBF65 ∧
    (fpRound 4 0 0 false true 229 (-8)).bits = some 0xB6 ∧ (fpRound 4 2 0x3A000000 false true 229 (-8)).bits = some 0xB7 ∧
    (fpRound 4 2 0x9C000000 false true 229 (-8)).bits = some 0xB6 := by decide +kernel

-- The example after R365: the stack, the stack address and its page of 0x080_4000_4040 on an -F and on an -M part.
theorem test_interleave :
    homeQuad 0x8040004040 = 1 ∧ stackOf testMem 0x8040004040 = 5 ∧ stackAddr testMem 0x8040004040 = 0x15556040 ∧
    stackPage testMem 0x8040004040 = 0x15556 ∧
    stackOf { testMem with fuses := { testMem.fuses with cap := 0x2249F1C1 } } 0x8040004040 = 3 ∧
    stackAddr { testMem with fuses := { testMem.fuses with cap := 0x2249F1C1 } } 0x8040004040 = 0x40004040 := by decide +kernel

-- The example after R382: the FADD of the combined +13.
theorem test_fadd : atomicWord 0x10 64 100 13 0 false = 113 := by decide +kernel

-- R402: theta and mpd of the exchange, in 1/65,536 tick.
theorem test_exchange :
    exchange (BitVec.ofNat 80 (1000000 * 65536)) (BitVec.ofNat 80 (1000402 * 65536 + 32768)) (BitVec.ofNat 80 (1001000 * 65536))
      (BitVec.ofNat 80 (1001381 * 65536 + 32768)) 0 0 0 0 = (0x000A8000, 392 * 65536) := by decide +kernel

-- R404: the rate that the servo sets after it.
theorem test_servo : clampRate ((-69380241 * 65536 - 0x4000 * (688128 * 2 ^ 32 / 665600)) / 65536) = -1179464096 ∧
    (-(0x0400 * (688128 * 2 ^ 32 / 665600)) / 65536 : Int) = -69380241 := by decide +kernel

-- R413: the CRC-8 of a sideband frame.
theorem test_crc8 : crc8 [7, 0, 0] = 0x16 := by decide +kernel

-- R426: FWD_CMD_STATUS of QD1, and a clear with its sequence, which the next overrun makes stale.
theorem test_sq_clear : Reg.fwdCmdStatus 1 = 0x01900020 ∧ fld 0x40050000 23 16 = 5 ∧ fld 0x40060000 23 16 ≠ 5 := by decide +kernel

-- R431: the Ingot address of offset 0x3_0000_4040 through WIN{3}.
theorem test_window :
    winAddr (testRegs [(Reg.win0 3, 0x80000000), (Reg.win1 3, 0x40000000), (Reg.win2 3, 0x80)] testCluster) 0x300004040 =
      some 0x8040004040 := by decide +kernel

-- R441: the ARM of slot 165: its generation and its vector.
theorem test_arm : fld 0xC0120003 15 0 = 3 ∧ fld 0xC0120003 26 16 = 0x12 ∧ flag 0xC0120003 30 = true := by decide +kernel

-- The example after R468: the INDEX of a RESET of PE09, and of one of slot W3 of F077.
theorem test_unit_index : urNames 2 (fld 0x2400000D 15 0) = true ∧ fld 0x2400000D 15 0 = 13 ∧ fld 0x2400000D 31 28 = 2 ∧
    fld 0x040004D3 15 0 = 16 * 77 + 3 ∧ urNames 0 (16 * 77 + 3) = true := by decide +kernel

-- R478: the buckets of the latency monitor toward LK0616.
theorem test_buckets :
    [687, 688, 752, 816, 1168].map (monBucket 0x80010068 688 16) = [0, 1, 5, 9, 31] := by decide +kernel

-- R484: the entry of a lost lane: its data in layout L, whose ring index is that of the drop ring of W3 of F077.
theorem test_log_data :
    dataL 616 77 3 1 1 97 0 = [0x68, 0x02, 0x4D, 0x03, 0x01, 0x01, 0x61, 0x00, 0, 0, 0, 0, 0, 0, 0, 0] ∧
    ringIndex (fiberRing 77 3 true) = 97 := by decide +kernel

/-! ### Steps -/

theorem test_idle_tick : (match step testCluster with
    | .next t => t.time.l
    | _ => 0) = 1 := by decide +kernel

theorem test_front : (match step { testCluster with pending := [.arbSeedWrite .dma 0, .timeReadLatch] } with
    | .next t => (reg t (Reg.dmaArbCfg + 8), t.pending)
    | _ => (0, [])) = (1, [.timeReadLatch]) := by decide +kernel

-- R312: an ADD whose destination is its source wraps.
theorem test_add_wraps : (match exec (.add testId { d := 1, a := 1, b := 2 })
    (testPut { WickSt.init with state := wkRun, sregs := [0, 0xFFFFFFFFFFFFFFFF, 2] } testCluster) with
    | .next t => (sreg testId t 1, (wkGet testId t).pc)
    | _ => (0, 0)) = (1, 1) := by decide +kernel

-- R415: a PERST_N of 0 keeps the device from answering a window read.
theorem test_window_read_in_reset : (match exec (.windowRead 0 4) testPerst with
    | .next t => t.out
    | _ => []) = testPerst.out := by decide +kernel

end Sys2Proof.Machine
end

/-! ## The ALU instructions (R312) -/

section
/-!
SUPPORT. The number arithmetic of the ALU, read on 64-bit words: each operation of the model, cut to 64 bits, is the
bit-vector operation of the same name.
-/
namespace Sys2Proof

/-! ### Signed values -/

theorem toSigned_toNat {n : Nat} (a : BitVec n) : toSigned n a.toNat = a.toInt := by
  simp only [toSigned, BitVec.toInt_eq_toNat_cond, Nat.mod_eq_of_lt a.isLt, Nat.cast_pow, Nat.cast_ofNat]

theorem ofNat_ofSigned (n : Nat) (i : Int) : BitVec.ofNat n (ofSigned n i) = BitVec.ofInt n i := by
  apply BitVec.eq_of_toNat_eq
  have hlt : (i % 2 ^ n).toNat < 2 ^ n := by
    have hpos : (0 : Int) < 2 ^ n := by positivity
    have := Int.emod_lt_of_pos i hpos
    zify
    rwa [Int.toNat_of_nonneg (Int.emod_nonneg i hpos.ne')]
  simp [ofSigned, Nat.mod_eq_of_lt hlt]

/-! ### The length of a number in bits -/

theorem bitLength_le_iff {x n : Nat} : bitLength x ≤ n ↔ x < 2 ^ n := by
  unfold bitLength
  split
  · next h => simp [h]
  · next h => exact Nat.log2_lt h

/-- The bit below the length is set. -/
theorem testBit_bitLength_sub_one {x : Nat} (h : x ≠ 0) : x.testBit (bitLength x - 1) = true := by
  simpa [bitLength, h] using Nat.testBit_log2 h

/-- No bit from the length on is set. -/
theorem testBit_of_bitLength_le {x i : Nat} (h : bitLength x ≤ i) : x.testBit i = false :=
  Nat.testBit_lt_two_pow (bitLength_le_iff.mp h)

namespace Machine

/-! ### Products, shifts and order -/

theorem sx64_toNat (a : DWord) : sx64 a.toNat = a.toInt := toSigned_toNat a

theorem ofNat_sub_word (a b : DWord) : BitVec.ofNat 64 (a.toNat + 2 ^ 64 - b.toNat) = a - b := by
  have := b.isLt
  rw [BitVec.sub_def]
  congr 1
  omega

theorem ofNat_mulHigh (a b : DWord) :
    BitVec.ofNat 64 (a.toNat * b.toNat / 2 ^ 64) = ((a.setWidth 128 * b.setWidth 128) >>> 64).setWidth 64 := by
  apply BitVec.eq_of_toNat_eq
  have hlt : a.toNat * b.toNat < 2 ^ 128 := by
    calc a.toNat * b.toNat < 2 ^ 64 * 2 ^ 64 := Nat.mul_lt_mul'' a.isLt b.isLt
      _ = 2 ^ 128 := by norm_num
  have ha : a.toNat < 2 ^ 128 := a.isLt.trans (by norm_num)
  have hb : b.toNat < 2 ^ 128 := b.isLt.trans (by norm_num)
  rw [BitVec.toNat_ofNat, BitVec.toNat_setWidth, BitVec.toNat_ushiftRight, BitVec.toNat_mul, BitVec.toNat_setWidth,
    BitVec.toNat_setWidth, Nat.mod_eq_of_lt ha, Nat.mod_eq_of_lt hb, Nat.mod_eq_of_lt hlt, Nat.shiftRight_eq_div_pow]

/-- The upper 64 bits of an integer's low 128. -/
theorem ofInt_high (z : Int) : BitVec.ofInt 64 (z / 2 ^ 64) = (BitVec.ofInt 128 z >>> 64).setWidth 64 := by
  apply BitVec.eq_of_toNat_eq
  rw [BitVec.toNat_ofInt, BitVec.toNat_setWidth, BitVec.toNat_ushiftRight, BitVec.toNat_ofInt, Nat.shiftRight_eq_div_pow]
  omega

theorem ofNat_mulHighSigned (a b : DWord) :
    BitVec.ofNat 64 (ofSigned 64 (sx64 a.toNat * sx64 b.toNat / 2 ^ 64)) =
      ((a.signExtend 128 * b.signExtend 128) >>> 64).setWidth 64 := by
  rw [ofNat_ofSigned, ofInt_high, BitVec.ofInt_mul, sx64_toNat, sx64_toNat]
  rfl

theorem ofNat_shl (a b : DWord) : BitVec.ofNat 64 (a.toNat * 2 ^ (b.toNat % 64)) = a <<< (b.toNat % 64) := by
  apply BitVec.eq_of_toNat_eq
  rw [BitVec.toNat_ofNat, BitVec.toNat_shiftLeft, Nat.shiftLeft_eq]

theorem ofNat_shr (a b : DWord) : BitVec.ofNat 64 (a.toNat / 2 ^ (b.toNat % 64)) = a >>> (b.toNat % 64) := by
  rw [← Nat.shiftRight_eq_div_pow, ← BitVec.toNat_ushiftRight, BitVec.ofNat_toNat, BitVec.setWidth_eq]

theorem ofNat_sar (a b : DWord) :
    BitVec.ofNat 64 (ofSigned 64 (sx64 a.toNat / 2 ^ (b.toNat % 64))) = a.sshiftRight (b.toNat % 64) := by
  rw [ofNat_ofSigned, sx64_toNat, BitVec.sshiftRight, Int.shiftRight_eq_div_pow, Nat.cast_pow, Nat.cast_ofNat]

theorem slt_eq_sx64 (a b : DWord) : a.slt b = decide (sx64 a.toNat < sx64 b.toNat) := by
  rw [sx64_toNat, sx64_toNat, BitVec.slt_eq_decide]

theorem sle_eq_sx64 (a b : DWord) : a.sle b = decide (sx64 a.toNat ≤ sx64 b.toNat) := by
  rw [sx64_toNat, sx64_toNat, BitVec.sle_eq_decide]

/-- The word of a choice between two words' numbers. -/
theorem ofNat_ite_toNat (p : Prop) [Decidable p] (a b : DWord) :
    BitVec.ofNat 64 (if p then a.toNat else b.toNat) = if p then a else b := by
  split <;> simp

theorem ofNat_minu (a b : DWord) : BitVec.ofNat 64 (min a.toNat b.toNat) = if a.ult b then a else b := by
  simp only [BitVec.ult_eq_decide, decide_eq_true_eq]
  split
  · next h => rw [min_eq_left h.le]; simp
  · next h => rw [min_eq_right (not_lt.mp h)]; simp

theorem ofNat_maxu (a b : DWord) : BitVec.ofNat 64 (max a.toNat b.toNat) = if a.ult b then b else a := by
  simp only [BitVec.ult_eq_decide, decide_eq_true_eq]
  split
  · next h => rw [max_eq_right h.le]; simp
  · next h => rw [max_eq_left (not_lt.mp h)]; simp

/-- The conditions of CMP, read on words. -/
theorem cmpHolds_toNat (c : Nat) (a b : DWord) : cmpHolds c a.toNat b.toNat = compareHolds c a b := by
  have heq : (a.toNat == b.toNat) = (a == b) := by
    rw [Bool.eq_iff_iff, beq_iff_eq, beq_iff_eq, BitVec.toNat_inj]
  simp only [cmpHolds, compareHolds, bne, heq, slt_eq_sx64, sle_eq_sx64, BitVec.ult_eq_decide, BitVec.ule_eq_decide]

/-! ### Counting bits -/

/-- The bit that ends the leading zeros of a word other than 0 is the top bit of its length. -/
theorem leadingZeros_eq (a : DWord) : leadingZeros a = 64 - bitLength a.toNat := by
  have hle : bitLength a.toNat ≤ 64 := bitLength_le_iff.mpr a.isLt
  unfold leadingZeros
  rw [List.takeWhile_eq_take_findIdx_not, List.length_take, min_eq_left List.findIdx_le_length]
  by_cases h0 : a.toNat = 0
  · rw [List.findIdx_eq_length_of_false]
    · simp [h0, bitLength]
    · intro i _
      simp [BitVec.getLsbD, h0]
  · have hpos : 0 < bitLength a.toNat := by simp [bitLength, h0]
    rw [List.findIdx_eq (by simp; omega)]
    refine ⟨?_, fun j hj => ?_⟩
    · have htop : 63 - (64 - bitLength a.toNat) = bitLength a.toNat - 1 := by omega
      simpa [BitVec.getLsbD, htop] using testBit_bitLength_sub_one h0
    · simpa [BitVec.getLsbD] using testBit_of_bitLength_le (by omega)

theorem onesOf_eq (a : DWord) : onesOf a = popCount a.toNat := by
  unfold onesOf popCount
  congr 1
  refine List.filter_congr fun i _ => ?_
  rw [BitVec.getLsbD, Nat.testBit_eq_decide_div_mod_eq]
  rfl

end Machine
end Sys2Proof
end

section
/-!
SUPPORT. The operands of an ALU instruction, what each shape of ALU instruction does when it issues, and the fields of a legal
one.
-/
namespace Sys2Proof.Machine

/-! ### Operands -/

@[simp] theorem toNat_sreg (w : WickId) (s : State) (r : BitVec 5) : (sreg w s r).toNat = (wkGet w s).s r := rfl

@[simp] theorem toNat_operandB (w : WickId) (s : State) (f : Fields) : (operandB w s f).toNat = aluB (wkGet w s) f := by
  unfold operandB aluB
  split <;> rfl

theorem WickSt.p_lt (x : WickSt) (i : Nat) : x.p i < 2 ^ 16 := by
  unfold WickSt.p
  split
  · decide
  · exact BitVec.isLt _

@[simp] theorem toNat_preg (w : WickId) (s : State) (i : Nat) : (preg w s i).toNat = (wkGet w s).p i :=
  Nat.mod_eq_of_lt ((wkGet w s).p_lt i)

@[simp] theorem movedOn_s (x : WickSt) (r : BitVec 5) : (movedOn x).s r = x.s r := rfl
@[simp] theorem movedOn_p (x : WickSt) (i : Nat) : (movedOn x).p i = x.p i := rfl
@[simp] theorem movedOn_ea (x : WickSt) (f : Fields) : (movedOn x).ea f = x.ea f := rfl
@[simp] theorem aluB_movedOn (x : WickSt) (f : Fields) : aluB (movedOn x) f = aluB x f := rfl

/-- In the state that has moved on, the instruction's own index is one back. -/
@[simp] theorem movedOn_pc_sub_one (x : WickSt) : (movedOn x).pc - 1 = x.pc := BitVec.add_sub_cancel x.pc 1

@[simp] theorem branchTo_movedOn (x : WickSt) (f : Fields) : branchTo (movedOn x) f = x.pc + f.imm64.setWidth 18 := by
  rw [branchTo, movedOn_pc_sub_one, BitVec.ofNat_toNat]

/-! ### What an ALU instruction does when it issues -/

/-- An instruction whose effect is a write of its wick leaves that wick, in its frame. -/
theorem issue_put {w : WickId} {cls op : Nat} {f : Fields} {lanes : Bool} {s : State} (g : WickSt → WickSt)
    (h : Issues w cls op f lanes s) :
    issue w cls op f lanes (fun s => .done (wkPut w (g (wkGet w s)) s)) s =
      wkPut w (g (movedOn (wkGet w s))) (afterAdvance w cls s) := by
  rw [← wkGet_afterAdvance w cls s]
  exact issue_done h rfl

/-- A scalar result `v` of the wick. -/
theorem issue_scalarOut {w : WickId} {cls op : Nat} {f : Fields} {lanes : Bool} {s : State} (v : WickSt → Nat)
    (h : Issues w cls op f lanes s) :
    ScalarSet w f.d (BitVec.ofNat 64 (v (movedOn (wkGet w s)))) s
      (issue w cls op f lanes (fun s => scalarOut w f (v (wkGet w s)) s) s) :=
  scalarSet_of (issue_put (fun x => x.setS f.d.toNat (v x)) h)

/-- An operation on s[A] and b whose number `n a b`, cut to 64 bits, is the word `g a b`. -/
theorem aluDoes_of {mk : WickId → Fields → Instr} {op : Nat} {g : DWord → DWord → DWord} (n : Nat → Nat → Nat)
    (hexec : ∀ w f s, exec (mk w f) s = .next (aluOp w op f n s))
    (hword : ∀ a b : DWord, BitVec.ofNat 64 (n a.toNat b.toNat) = g a b) : AluDoes mk op g := by
  intro w f s h
  refine ⟨_, hexec w f s, ?_⟩
  rw [← hword, toNat_sreg, toNat_operandB]
  exact issue_scalarOut (fun x => n (x.s f.a) (aluB x f)) h

/-- An operation whose number `n` of the wick, cut to 16 bits, is the predicate `g`. -/
theorem predDoes_of {mk : WickId → Fields → Instr} {op : Nat} {g : WickId → State → Fields → BitVec 16}
    (n : Fields → WickSt → Nat) (hexec : ∀ w f s, exec (mk w f) s = .next (predOp w op f (n f) s))
    (hword : ∀ w s f, BitVec.ofNat 16 (n f (movedOn (wkGet w s))) = g w s f) : PredDoes mk op g := by
  intro w f s h
  refine ⟨_, hexec w f s, ?_⟩
  rw [← hword]
  exact predicateSet_of (issue_put (fun x => x.setP f.d.toNat (n f x)) h)

/-- A jump to `target` of the wick that has moved on. -/
theorem issue_jump {w : WickId} {op : Nat} {f : Fields} {s : State} (target : WickSt → BitVec 18)
    (h : Issues w 0 op f false s) :
    Jumped w (target (movedOn (wkGet w s))) s
      (issue w 0 op f false (fun s => .done (wkPut w { wkGet w s with pc := target (wkGet w s) } s)) s) := by
  rw [issue_put (fun x => { x with pc := target x }) h]
  exact ⟨wkGet_wkPut .., (afterAdvance_frame w 0 s).put _⟩

/-! ### Fields of a legal instruction -/

/-- What `legal` says of an ALU instruction: its operation has a shape, which D, A, B and MOD obey. -/
theorem shape_of_legal_alu {op : Nat} {f : Fields} (h : legal 0 op f = true) :
    ∃ immb sh, aluShape op immb = some sh ∧
      (let strict := decide (0x20 ≤ op) && decide (op ≤ 0x25)
       fieldOk sh.d strict f.d = true ∧ fieldOk sh.a strict f.a = true ∧ fieldOk sh.b strict f.b = true) ∧
      f.mod.toNat &&& (0xFFF - sh.mod) = 0 ∧ valuesOk 0 op f.mod.toNat f.imm16.toNat = true := by
  unfold legal at h
  split at h
  · cases h
  · next sh hs =>
    simp only [beq_self_eq_true, Bool.true_and, Bool.and_eq_true, beq_iff_eq] at h
    obtain ⟨⟨⟨⟨⟨⟨⟨hd, ha⟩, hb⟩, -⟩, hm⟩, -⟩, -⟩, hv⟩ := h
    exact ⟨_, sh, hs, ⟨hd, ha, hb⟩, hm, hv⟩

/-- What the shapes of ALU operations share: no field names a vector register, and MOD holds IMMB alone, for CMP also the
condition. -/
def AluFields (op : Nat) (sh : Shape) : Prop :=
  (sh.d ≠ .v ∧ sh.a ≠ .v ∧ sh.b ≠ .v) ∧ (sh.mod = 0 ∨ sh.mod = 0x800 ∨ op = 0x20 ∧ sh.mod = 0x807)

/-- A property of a table's entries, taken one line of the table at a time. -/
theorem forall_mem_ite_some {α : Type} {c : Prop} [Decidable c] {x : α} {o : Option α} {P : α → Prop} (ho : ∀ y ∈ o, P y)
    (hx : c → P x) : ∀ y ∈ (if c then some x else o), P y := by
  split
  · next h => simpa using hx h
  · exact ho

theorem aluFields_of_aluShape (op : Nat) (immb : Bool) : ∀ sh ∈ aluShape op immb, AluFields op sh := by
  have hb : (if immb = true then Use.none else Use.s) ≠ .v := by cases immb <;> decide
  unfold aluShape
  extract_lets two
  iterate 11 refine forall_mem_ite_some ?_ fun hop => ?_
  · simp
  all_goals simp [AluFields, *, two]
/-- A field of three bits. -/
theorem lt_eight_of_fieldOk {u : Use} {x : BitVec 5} (hu : u ≠ .v) (h : fieldOk u true x = true) : x.toNat < 8 := by
  cases u
  case none => rw [beq_iff_eq.mp h]; decide
  case s => simpa [fieldOk] using h
  case v => exact absurd rfl hu
  case p => simpa [fieldOk] using h

theorem registers_lt_eight_of_legal {op : Nat} {f : Fields} (hlo : 0x20 ≤ op) (hhi : op ≤ 0x25) (h : legal 0 op f = true) :
    f.d.toNat < 8 ∧ f.a.toNat < 8 ∧ f.b.toNat < 8 := by
  obtain ⟨immb, sh, hs, ⟨hd, ha, hb⟩, -, -⟩ := shape_of_legal_alu h
  obtain ⟨⟨hdv, hav, hbv⟩, -⟩ := aluFields_of_aluShape op immb sh hs
  simp only [hlo, hhi, decide_true, Bool.and_self] at hd ha hb
  exact ⟨lt_eight_of_fieldOk hdv hd, lt_eight_of_fieldOk hav ha, lt_eight_of_fieldOk hbv hb⟩

/-- Bits that a larger mask finds zero are zero. -/
theorem and_eq_zero_of_submask {x m k : Nat} (hk : m &&& k = k) (h : x &&& m = 0) : x &&& k = 0 := by
  rw [← hk, ← Nat.and_assoc, h, Nat.zero_and]

theorem mod_reserved_of_legal {op : Nat} {f : Fields} (h : legal 0 op f = true) :
    f.mod.toNat &&& (if op = 0x20 then 0x7F8 else 0x7FF) = 0 := by
  obtain ⟨immb, sh, hs, -, hm, -⟩ := shape_of_legal_alu h
  refine and_eq_zero_of_submask ?_ hm
  obtain ⟨-, h0 | h0 | ⟨hop, h0⟩⟩ := aluFields_of_aluShape op immb sh hs
  · rw [h0]; split <;> decide
  · rw [h0]; split <;> decide
  · rw [h0, if_pos hop]; decide

theorem condition_lt_of_legal_cmp {f : Fields} (h : legal 0 0x20 f = true) : f.mod.toNat % 8 < 6 := by
  obtain ⟨-, -, -, -, -, hv⟩ := shape_of_legal_alu h
  simpa [valuesOk, Nat.lt_succ_iff] using hv

/-! ### The instructions -/

theorem movi_sets {w : WickId} {f : Fields} {s : State} (h : Issues w 0 0x10 f false s) :
    ∃ t, exec (.movi w f) s = .next t ∧ ScalarSet w f.d f.imm64 s t := by
  refine ⟨_, rfl, ?_⟩
  simpa using issue_scalarOut (fun _ => f.imm64.toNat) h

theorem smovp_sets {w : WickId} {f : Fields} {s : State} (h : Issues w 0 0x25 f false s) :
    ∃ t, exec (.smovp w f) s = .next t ∧ ScalarSet w f.d ((preg w s f.a.toNat).setWidth 64) s t := by
  refine ⟨_, rfl, ?_⟩
  rw [← BitVec.ofNat_toNat, toNat_preg]
  exact issue_scalarOut (fun x => x.p f.a.toNat) h

theorem nop_moves_on {w : WickId} {f : Fields} {s : State} (h : Issues w 0 0x00 f false s) :
    ∃ t, exec (.nop w f) s = .next t ∧ wkGet w t = movedOn (wkGet w s) ∧ WickFrame w s t :=
  ⟨_, congrArg Host.Outcome.next (issue_done h rfl), wkGet_afterAdvance .., afterAdvance_frame w 0 s⟩

theorem cmp_sets : PredDoes .cmp 0x20 fun w s f =>
    if compareHolds (f.mod.toNat % 8) (sreg w s f.a) (operandB w s f) then 0xFFFF else 0 := by
  refine predDoes_of _ (fun _ _ _ => rfl) fun w s f => ?_
  rw [← cmpHolds_toNat, toNat_sreg, toNat_operandB, movedOn_s, aluB_movedOn]
  split <;> rfl

theorem pand_sets : PredDoes .pand 0x21 fun w s f => preg w s f.a.toNat &&& preg w s f.b.toNat :=
  predDoes_of _ (fun _ _ _ => rfl) fun _ _ _ => BitVec.ofNat_and

theorem por_sets : PredDoes .por 0x22 fun w s f => preg w s f.a.toNat ||| preg w s f.b.toNat :=
  predDoes_of _ (fun _ _ _ => rfl) fun _ _ _ => BitVec.ofNat_or

theorem pxor_sets : PredDoes .pxor 0x23 fun w s f => preg w s f.a.toNat ^^^ preg w s f.b.toNat :=
  predDoes_of _ (fun _ _ _ => rfl) fun _ _ _ => BitVec.ofNat_xor

theorem pmov_sets : PredDoes .pmov 0x24 fun w s f => (sreg w s f.a).setWidth 16 := by
  refine predDoes_of _ (fun _ _ _ => rfl) fun w s f => BitVec.eq_of_toNat_eq ?_
  simp

theorem br_jumps {w : WickId} {f : Fields} {s : State} (h : Issues w 0 0x30 f false s) :
    ∃ t, exec (.br w f) s = .next t ∧ Jumped w ((wkGet w s).pc + f.imm64.setWidth 18) s t := by
  refine ⟨_, rfl, ?_⟩
  simpa using issue_jump (fun x => branchTo x f) h

theorem jmp_jumps {w : WickId} {f : Fields} {s : State} (h : Issues w 0 0x31 f false s) :
    ∃ t, exec (.jmp w f) s = .next t ∧ Jumped w ((sreg w s f.a + f.imm64).setWidth 18) s t := by
  refine ⟨_, rfl, ?_⟩
  rw [← BitVec.ofNat_toNat, BitVec.toNat_add, toNat_sreg]
  exact issue_jump (fun x => BitVec.ofNat 18 (x.ea f)) h

/-- A wick that takes CALL: it goes to the target, and s[D] holds the index after the instruction. -/
def called (f : Fields) (x : WickSt) : WickSt := { x with pc := branchTo x f }.setS f.d.toNat ((x.pc - 1).toNat + 1)

theorem call_jumps {w : WickId} {f : Fields} {s : State} (h : Issues w 0 0x32 f false s) :
    ∃ t, exec (.call w f) s = .next t ∧
      sreg w t f.d = BitVec.ofNat 64 ((wkGet w s).pc.toNat + 1) ∧ (∀ r, r ≠ f.d → sreg w t r = sreg w s r) ∧
      wkGet w t = { wkGet w s with
        sregs := (wkGet w t).sregs, pc := (wkGet w s).pc + f.imm64.setWidth 18, quantum := (wkGet w s).quantum + 1 } ∧
      WickFrame w s t := by
  refine ⟨_, congrArg Host.Outcome.next (issue_put (called f) h), ?link, ?others, ?wick, (afterAdvance_frame w 0 s).put _⟩
  case link => rw [sreg, wkGet_wkPut, called, WickSt.s_setS, if_pos rfl, movedOn_pc_sub_one]
  case others =>
    intro r hr
    rw [sreg, wkGet_wkPut, called, WickSt.s_setS, if_neg fun e => hr (BitVec.eq_of_toNat_eq e)]
    rfl
  case wick =>
    rw [wkGet_wkPut, called, branchTo_movedOn]
    rfl

/-- Settles O2: each instruction writes its wick once, on the state in which that wick has moved on; what it writes is the
model's number cut to a word. -/
theorem aluOperations : Obligations.AluOperations := by
  unfold Obligations.AluOperations
  refine ⟨⟨?add, ?sub, ?mul, ?mulhu, ?mulhs, ?and, ?or, ?xor, ?shl, ?shr, ?sar, ?mins, ?maxs, ?minu, ?maxu, ?clz, ?popc⟩,
    ⟨fun _ _ _ => movi_sets, fun _ _ _ => smovp_sets, fun _ _ _ => nop_moves_on⟩,
    ⟨cmp_sets, pand_sets, por_sets, pxor_sets, pmov_sets, fun _ _ => registers_lt_eight_of_legal,
      fun _ _ => mod_reserved_of_legal, fun _ => condition_lt_of_legal_cmp⟩,
    ⟨fun _ _ _ => br_jumps, fun _ _ _ => jmp_jumps, fun _ _ _ => call_jumps⟩⟩
  case add => exact aluDoes_of _ (fun _ _ _ => rfl) fun a b => by simp [BitVec.ofNat_add]
  case sub => exact aluDoes_of _ (fun _ _ _ => rfl) ofNat_sub_word
  case mul => exact aluDoes_of _ (fun _ _ _ => rfl) fun a b => by simp [BitVec.ofNat_mul]
  case mulhu => exact aluDoes_of _ (fun _ _ _ => rfl) ofNat_mulHigh
  case mulhs => exact aluDoes_of _ (fun _ _ _ => rfl) ofNat_mulHighSigned
  case and => exact aluDoes_of _ (fun _ _ _ => rfl) fun a b => by simp [BitVec.ofNat_and]
  case or => exact aluDoes_of _ (fun _ _ _ => rfl) fun a b => by simp [BitVec.ofNat_or]
  case xor => exact aluDoes_of _ (fun _ _ _ => rfl) fun a b => by simp [BitVec.ofNat_xor]
  case shl => exact aluDoes_of _ (fun _ _ _ => rfl) ofNat_shl
  case shr => exact aluDoes_of _ (fun _ _ _ => rfl) ofNat_shr
  case sar => exact aluDoes_of _ (fun _ _ _ => rfl) ofNat_sar
  case mins => exact aluDoes_of _ (fun _ _ _ => rfl) fun a b => by rw [ofNat_ite_toNat]; simp [slt_eq_sx64]
  case maxs => exact aluDoes_of _ (fun _ _ _ => rfl) fun a b => by rw [ofNat_ite_toNat]; simp [slt_eq_sx64]
  case minu => exact aluDoes_of _ (fun _ _ _ => rfl) ofNat_minu
  case maxu => exact aluDoes_of _ (fun _ _ _ => rfl) ofNat_maxu
  case clz => exact aluDoes_of _ (fun _ _ _ => rfl) fun a _ => by rw [leadingZeros_eq]
  case popc => exact aluDoes_of _ (fun _ _ _ => rfl) fun a _ => by rw [onesOf_eq]

end Sys2Proof.Machine
end

/-! ## The Ember log (R479 to R485) -/

section
/-!
SUPPORT. Reads of register fields and counters after writes, and what raising an interrupt source does and leaves alone.
-/
namespace Sys2Proof

/-! ### Fields of a byte list -/

theorem leAt_leBytes_append (n x : Nat) (ys : List Byte) : leAt (leBytes n x ++ ys) 0 n = x % 256 ^ n := by
  rw [leAt, List.drop_zero, List.take_left' (leBytes_length n x), leNat_leBytes]

/-- A field beyond the first `i` bytes is a field of what follows them. -/
theorem leAt_append_right {xs : List Byte} {i : Nat} (n : Nat) (ys : List Byte) (h : xs.length ≤ i) :
    leAt (xs ++ ys) i n = leAt ys (i - xs.length) n := by
  rw [leAt, leAt, List.drop_append, List.drop_eq_nil_of_le h, List.nil_append]

@[simp] theorem padTo_length (n : Nat) (bs : List Byte) : (padTo n bs).length = n := by
  simp only [padTo, zeroBytes, List.length_append, List.length_take, List.length_replicate]
  omega

namespace Machine

variable {s : State}

/-! ### Fields of registers -/

theorem rf_setRf_same {a hi lo : Nat} (v : Nat) (hl : lo ≤ hi) (h : hi < 32) :
    rf (setRf a hi lo v s) a hi lo = v % 2 ^ (hi + 1 - lo) := by
  rw [rf, reg_setRf_same, fld_setFld_same _ _ hl h]

theorem rb_setRb_same {a b : Nat} (v : Bool) (h : b < 32) : rb (setRb a b v s) a b = v := by
  rw [rb, reg_setRb_same, flag_setFld_same _ _ h]

theorem rf_congr {t : State} {a : Nat} (hi lo : Nat) (h : reg t a = reg s a) : rf t a hi lo = rf s a hi lo := by
  rw [rf, h, rf]

/-! ### Counters -/

theorem counted_count1 (a : Nat) (s : State) : Counted a s (count1 a s) := by
  have hlt : min ((ctr s a).toNat + 1) (2 ^ 48 - 1) < 2 ^ 48 := by omega
  rw [Counted, count1, ctr_count_same, BitVec.toNat_ofNat, Nat.mod_eq_of_lt hlt]

/-- Counting an event is seen by every state whose counter reads the same. -/
theorem Counted.of_ctr_eq {a : Nat} {s' t t' : State} (h : Counted a s t) (hs : ctr s' a = ctr s a) (ht : ctr t' a = ctr t a) :
    Counted a s' t' := by
  rw [Counted, hs, ht]
  exact h

/-! ### Interrupt sources -/

theorem reg_sendMsix_ne {v a : Nat} (h : a ≠ Reg.msixPba (v / 32)) : reg (sendMsix v s) a = reg s a := by
  unfold sendMsix
  split
  · exact reg_setRb_ne s _ _ h
  · rfl

/-- A source's vector has eleven bits, so the PBA words it can set are the first 64. -/
theorem vector_div_lt (s : State) (n : Nat) : rf s (Reg.intMap n) 10 0 / 32 < 64 := by
  have : rf s (Reg.intMap n) 10 0 < 2 ^ 11 := fld_lt (reg s (Reg.intMap n)) 10 0
  omega

/-- The INT_MAP of source `n` and the PBA words: what raising the source may change. -/
def raiseTouches (n a : Nat) : Prop := a = Reg.intMap n ∨ ∃ j, j < 64 ∧ a = Reg.msixPba j

theorem IntReg.of_raiseTouches {n a : Nat} (h : raiseTouches n a) : IntReg n a :=
  h.imp_right fun ⟨j, _, e⟩ => ⟨j, e⟩

/-- The registers of the Ember log lie beyond the pages of the interrupts. -/
theorem not_raiseTouches_log {a : Nat} (h : Reg.logCfg ≤ a) : ¬ raiseTouches 257 a := by
  rintro (rfl | ⟨j, hj, rfl⟩)
  · exact absurd h (by decide)
  · simp only [Reg.logCfg, Reg.msixPba] at h
    omega

theorem reg_raise_ne {n a : Nat} (h : ¬ raiseTouches n a) : reg (raise n s) a = reg s a := by
  have hmap : a ≠ Reg.intMap n := fun e => h (.inl e)
  unfold raise
  split
  · rfl
  · dsimp only
    split
    · rw [reg_sendMsix_ne fun e => h (.inr ⟨_, vector_div_lt .., e⟩), reg_setRf_ne _ _ _ _ hmap]
    · exact reg_setRf_ne _ _ _ _ hmap

theorem ctr_raise (n a : Nat) (s : State) : ctr (raise n s) a = ctr s a := by
  rw [raise_frame n s]; rfl

@[simp] theorem raise_log (n : Nat) (s : State) : (raise n s).log = s.log := by
  rw [raise_frame n s]

theorem raised_raise (n : Nat) (s : State) : Raised n s (raise n s) := by
  have hpba : ∀ u : State, Reg.intMap n ≠ Reg.msixPba (rf u (Reg.intMap n) 10 0 / 32) := fun u => by
    have := vector_div_lt u n
    generalize rf u (Reg.intMap n) 10 0 / 32 = j at this ⊢
    simp only [Reg.intMap, Reg.msixPba]
    omega
  unfold Raised raise
  cases hp : perstHigh s
  · rfl
  · simp only [Bool.not_true, Bool.false_eq_true, if_false, if_true]
    split
    · rw [rf_congr 23 16 (reg_sendMsix_ne (hpba _))]
      exact rf_setRf_same _ (by decide) (by decide)
    · exact rf_setRf_same _ (by decide) (by decide)

/-- An event of a source is seen by every state in which its INT_MAP and PERST_N read the same. -/
theorem Raised.of_reg_eq {n : Nat} {s' t : State} (h : Raised n s t) (hm : reg s' (Reg.intMap n) = reg s (Reg.intMap n))
    (hp : reg s' Reg.hifStatus = reg s Reg.hifStatus) : Raised n s' t := by
  rw [Raised, perstHigh, rb, hp, rf_congr 23 16 hm]
  exact h

end Machine
end Sys2Proof
end

section
/-!
SUPPORT. The parts of writing an entry, in their order: room for it, its place in the ring, its copy for an MGT packet, and the
interrupt. Each part keeps `LogFrame`.
-/
namespace Sys2Proof.Machine

variable {s t u : State}

/-! ### A state with another log -/

/-- The state with the log `l`. -/
def withLog (l : LogSt) (s : State) : State := { s with log := l }

@[simp] theorem withLog_log (l : LogSt) (s : State) : (withLog l s).log = l := rfl
@[simp] theorem reg_withLog (l : LogSt) (s : State) (a : Nat) : reg (withLog l s) a = reg s a := rfl
@[simp] theorem withLog_out (l : LogSt) (s : State) : (withLog l s).out = s.out := rfl
@[simp] theorem ctr_withLog (l : LogSt) (s : State) (a : Nat) : ctr (withLog l s) a = ctr s a := rfl
@[simp] theorem rf_withLog (l : LogSt) (s : State) (a hi lo : Nat) : rf (withLog l s) a hi lo = rf s a hi lo := rfl
@[simp] theorem rb_withLog (l : LogSt) (s : State) (a b : Nat) : rb (withLog l s) a b = rb s a b := rfl
@[simp] theorem logClaimed_withLog (l : LogSt) (s : State) : logClaimed (withLog l s) = logClaimed s := rfl

/-! ### What writing an entry may change -/

theorem LogFrame.refl (s : State) : LogFrame s s := ⟨rfl, fun _ _ => rfl, fun _ _ => rfl⟩

theorem LogFrame.trans (h : LogFrame s t) (k : LogFrame t u) : LogFrame s u := by
  obtain ⟨hst, hregs, hctrs⟩ := h
  obtain ⟨htu, kregs, kctrs⟩ := k
  exact ⟨by rw [htu, hst], fun a ha => (kregs a ha).trans (hregs a ha), fun a ha => (kctrs a ha).trans (hctrs a ha)⟩

/-- The registers of the log that writing an entry changes, and those of its interrupt. -/
def logEntryReg (a : Nat) : Prop := a = Reg.logWr ∨ a = Reg.logPi ∨ a = Reg.logCi ∨ a = Reg.logStatus ∨ IntReg 257 a

/-- The counters that writing an entry changes. -/
def logEntryCtr (a : Nat) : Prop := a = Ctr.logEntries ∨ a = Ctr.logOverwritten ∨ a = Ctr.logLost ∨ a = Ctr.logMgtDrop

theorem LogFrame.withLog (l : LogSt) (h : LogFrame s t) : LogFrame s (withLog l t) :=
  h.trans ⟨rfl, fun _ _ => rfl, fun _ _ => rfl⟩

theorem LogFrame.setRf {a : Nat} (hi lo v : Nat) (ha : logEntryReg a) (h : LogFrame s t) : LogFrame s (setRf a hi lo v t) :=
  h.trans ⟨rfl, fun _ hb => reg_setRf_ne _ _ _ _ fun e => hb (e ▸ ha), fun _ _ => rfl⟩

theorem LogFrame.count1 {a : Nat} (ha : logEntryCtr a) (h : LogFrame s t) : LogFrame s (count1 a t) :=
  h.trans ⟨rfl, fun _ _ => rfl, fun _ hb => ctr_count1_ne _ fun e => hb (e ▸ ha)⟩

theorem LogFrame.logStatusUpdate (h : LogFrame s t) : LogFrame s (logStatusUpdate t) :=
  h.setRf _ _ _ (by simp [logEntryReg])

/-! ### Room -/

/-- Room for one more entry: where 16,384 are claimed, LOG_CI passes the oldest (R482). -/
def logRoom (s : State) : State :=
  if 16384 ≤ logClaimed s then count1 Ctr.logOverwritten (setRf Reg.logCi 15 0 (rf s Reg.logCi 15 0 + 1) s) else s

@[simp] theorem logRoom_log (s : State) : (logRoom s).log = s.log := by
  unfold logRoom
  split
  · rw [count1_log, setRf_log]
  · rfl

@[simp] theorem logRoom_out (s : State) : (logRoom s).out = s.out := by
  unfold logRoom
  split
  · rw [count1_out, setRf_out]
  · rfl

theorem reg_logRoom_ne {a : Nat} (h : a ≠ Reg.logCi) : reg (logRoom s) a = reg s a := by
  unfold logRoom
  split
  · rw [reg_count1, reg_setRf_ne _ _ _ _ h]
  · rfl

theorem ctr_logRoom_ne {a : Nat} (h : a ≠ Ctr.logOverwritten) : ctr (logRoom s) a = ctr s a := by
  unfold logRoom
  split
  · rw [ctr_count1_ne _ h, ctr_setRf]
  · rfl

theorem logCi_logRoom (s : State) : rf (logRoom s) Reg.logCi 15 0 =
    if 16384 ≤ logClaimed s then (rf s Reg.logCi 15 0 + 1) % 65536 else rf s Reg.logCi 15 0 := by
  unfold logRoom
  split
  · rw [rf, reg_count1]
    exact rf_setRf_same _ (by decide) (by decide)
  · rfl

theorem logWr_logRoom (s : State) : rf (logRoom s) Reg.logWr 15 0 = rf s Reg.logWr 15 0 :=
  rf_congr 15 0 (reg_logRoom_ne (by decide))

theorem counted_logRoom (h : 16384 ≤ logClaimed s) : Counted Ctr.logOverwritten s (logRoom s) := by
  rw [logRoom, if_pos h]
  exact (counted_count1 ..).of_ctr_eq (ctr_setRf ..).symm rfl

theorem logRoom_frame (s : State) : LogFrame s (logRoom s) := by
  unfold logRoom
  split
  · exact ((LogFrame.refl s).setRf _ _ _ (by simp [logEntryReg])).count1 (by simp [logEntryCtr])
  · exact LogFrame.refl s

/-! ### The entry in its slot -/

/-- The entry in the slot of the next index, which LOG_WR and LOG_PI then pass (R479). -/
def logPlace (e : LogEv) (s : State) : State :=
  let i := rf s Reg.logWr 15 0
  logStatusUpdate (count1 Ctr.logEntries (setRf Reg.logPi 15 0 (i + 1) (setRf Reg.logWr 15 0 (i + 1)
    (withLog { s.log with ring := Tbl.set (zeroBytes 32) s.log.ring (i % 16384) (e.bytes i) } s))))

@[simp] theorem logStatusUpdate_log (s : State) : (logStatusUpdate s).log = s.log := setRb_log ..
@[simp] theorem logStatusUpdate_out (s : State) : (logStatusUpdate s).out = s.out := setRb_out ..
@[simp] theorem ctr_logStatusUpdate (s : State) (a : Nat) : ctr (logStatusUpdate s) a = ctr s a := ctr_setRb ..

theorem logPlace_log (e : LogEv) (s : State) : (logPlace e s).log = { s.log with
    ring := Tbl.set (zeroBytes 32) s.log.ring (rf s Reg.logWr 15 0 % 16384) (e.bytes (rf s Reg.logWr 15 0)) } := by
  simp [logPlace]

@[simp] theorem logPlace_out (e : LogEv) (s : State) : (logPlace e s).out = s.out := by
  simp [logPlace]

theorem reg_logStatusUpdate_ne {a : Nat} (h : a ≠ Reg.logStatus) : reg (logStatusUpdate s) a = reg s a :=
  reg_setRb_ne _ _ _ h

theorem reg_logPlace_ne {e : LogEv} {a : Nat} (hw : a ≠ Reg.logWr) (hp : a ≠ Reg.logPi) (hs : a ≠ Reg.logStatus) :
    reg (logPlace e s) a = reg s a := by
  unfold logPlace
  rw [reg_logStatusUpdate_ne hs, reg_count1, reg_setRf_ne _ _ _ _ hp, reg_setRf_ne _ _ _ _ hw]
  rfl

theorem logPi_logPlace (e : LogEv) (s : State) : rf (logPlace e s) Reg.logPi 15 0 = (rf s Reg.logWr 15 0 + 1) % 65536 := by
  unfold logPlace
  rw [rf_congr 15 0 (reg_logStatusUpdate_ne (by decide)), rf, reg_count1]
  exact rf_setRf_same _ (by decide) (by decide)

theorem logWr_logPlace (e : LogEv) (s : State) : rf (logPlace e s) Reg.logWr 15 0 = (rf s Reg.logWr 15 0 + 1) % 65536 := by
  unfold logPlace
  rw [rf_congr 15 0 (reg_logStatusUpdate_ne (by decide)), rf, reg_count1, reg_setRf_ne _ _ _ _ (by decide)]
  exact rf_setRf_same _ (by decide) (by decide)

theorem ctr_logPlace_ne {e : LogEv} {a : Nat} (h : a ≠ Ctr.logEntries) : ctr (logPlace e s) a = ctr s a := by
  simp [logPlace, ctr_count1_ne _ h]

theorem counted_logPlace (e : LogEv) (s : State) : Counted Ctr.logEntries s (logPlace e s) := by
  unfold logPlace
  exact (counted_count1 ..).of_ctr_eq (by simp) (ctr_logStatusUpdate ..)

theorem logPlace_frame (e : LogEv) (s : State) : LogFrame s (logPlace e s) :=
  ((((LogFrame.refl s).withLog _).setRf _ _ _ (by simp [logEntryReg])).setRf _ _ _ (by simp [logEntryReg])).count1
    (by simp [logEntryCtr]) |>.logStatusUpdate

/-! ### The bytes of an entry (R480) -/

theorem logEv_bytes_length (e : LogEv) (seq : Nat) : (e.bytes seq).length = 32 := by
  simp [LogEv.bytes]

theorem entryOf_bytes (e : LogEv) (seq : Nat) : entryOf e seq (e.bytes seq) := by
  have htime : e.time.toNat % 256 ^ 8 = e.time.toNat := Nat.mod_eq_of_lt e.time.isLt
  refine ⟨logEv_bytes_length e seq, ?time, ?code, rfl, rfl, ?unit, ?seq, ?data⟩ <;> simp only [LogEv.bytes, List.append_assoc]
  case time => rw [leAt_leBytes_append, htime]
  case code | unit | seq => simp [leAt_append_right, leAt_leBytes_append]
  case data => simp [List.drop_append, List.drop_eq_nil_of_le]

/-! ### The copy for an MGT packet (R485) -/

theorem reg_logMgt (e : LogEv) (bs : List Byte) (s : State) (a : Nat) : reg (logMgt e bs s) a = reg s a := by
  unfold logMgt
  split
  · split <;> rfl
  · rfl

theorem ctr_logMgt_ne {e : LogEv} {bs : List Byte} {a : Nat} (h : a ≠ Ctr.logMgtDrop) : ctr (logMgt e bs s) a = ctr s a := by
  unfold logMgt
  split
  · split
    · rfl
    · exact ctr_count1_ne _ h
  · rfl

theorem logMgt_log (e : LogEv) (bs : List Byte) (s : State) :
    (logMgt e bs s).log = { s.log with mgt := (logMgt e bs s).log.mgt } := by
  unfold logMgt
  split
  · split <;> rfl
  · rfl

theorem logMgt_out (e : LogEv) (bs : List Byte) (s : State) : (logMgt e bs s).out = s.out := by
  unfold logMgt
  split
  · split <;> rfl
  · rfl

theorem logMgt_frame (e : LogEv) (bs : List Byte) (s : State) : LogFrame s (logMgt e bs s) := by
  unfold logMgt
  split
  · split
    · exact (LogFrame.refl s).withLog _
    · exact (LogFrame.refl s).count1 (by simp [logEntryCtr])
  · exact LogFrame.refl s

/-- MGT_EN is set and the entry's class is high enough to be sent. -/
def logSends (e : LogEv) (s : State) : Prop := rb s Reg.logCfg 30 = true ∧ rf s Reg.logCfg 29 27 ≤ e.cls

theorem logMgt_of_room {e : LogEv} {bs : List Byte} (h : logSends e s) (hroom : s.log.mgt.length < 256) :
    (logMgt e bs s).log.mgt = s.log.mgt ++ [bs] := by
  simp [logMgt, h.1, h.2, hroom]

theorem logMgt_of_full {e : LogEv} {bs : List Byte} (h : logSends e s) (hfull : 256 ≤ s.log.mgt.length) :
    logMgt e bs s = count1 Ctr.logMgtDrop s := by
  simp [logMgt, h.1, h.2, Nat.not_lt.mpr hfull]

theorem logMgt_of_not_sends {e : LogEv} {bs : List Byte} (h : ¬ logSends e s) : logMgt e bs s = s := by
  rw [logMgt, if_neg (by simpa [logSends] using h)]

/-! ### The interrupt (R483) -/

/-- The log has reached its threshold, and source 257 is ready to tell it. -/
def logDue (s : State) : Prop :=
  rf s Reg.logThresh 14 0 ≤ logFill s ∧ (s.log.fired = false ∨ rf s Reg.logThresh 14 0 = 0)

/-- What the log's interrupt can do: at the threshold, for an entry of class DEVICE, or nothing. -/
theorem logInterrupt_cases (cls : Nat) (s : State) :
    (logDue s ∧ logInterrupt cls s = raise 257 (withLog { s.log with fired := true } s)) ∨
    (¬ logDue s ∧ cls = clsDevice ∧ logInterrupt cls s = raise 257 s) ∨
    (¬ logDue s ∧ cls ≠ clsDevice ∧ logInterrupt cls s = s) := by
  have hdue : logDue s ↔ (decide (rf s Reg.logThresh 14 0 ≤ logFill s) &&
      (!s.log.fired || rf s Reg.logThresh 14 0 == 0)) = true := by simp [logDue]
  by_cases h : logDue s
  · exact .inl ⟨h, by simp [logInterrupt, hdue.mp h, withLog]⟩
  · have hoff := Bool.eq_false_iff.mpr (mt hdue.mpr h)
    by_cases hc : cls = clsDevice
    · exact .inr (.inl ⟨h, hc, by simp [logInterrupt, hoff, hc]⟩)
    · exact .inr (.inr ⟨h, hc, by simp [logInterrupt, hoff, hc]⟩)

theorem reg_logInterrupt_ne {cls a : Nat} (h : ¬ raiseTouches 257 a) : reg (logInterrupt cls s) a = reg s a := by
  obtain ⟨-, e⟩ | ⟨-, -, e⟩ | ⟨-, -, e⟩ := logInterrupt_cases cls s <;> rw [e]
  · exact reg_raise_ne h
  · exact reg_raise_ne h

theorem ctr_logInterrupt (cls a : Nat) (s : State) : ctr (logInterrupt cls s) a = ctr s a := by
  obtain ⟨-, e⟩ | ⟨-, -, e⟩ | ⟨-, -, e⟩ := logInterrupt_cases cls s <;> rw [e]
  · exact ctr_raise ..
  · exact ctr_raise ..

theorem logInterrupt_log (cls : Nat) (s : State) :
    (logInterrupt cls s).log = { s.log with fired := (logInterrupt cls s).log.fired } := by
  obtain ⟨-, e⟩ | ⟨-, -, e⟩ | ⟨-, -, e⟩ := logInterrupt_cases cls s <;> rw [e]
  · rw [raise_log]
    rfl
  · rw [raise_log]

theorem ring_logInterrupt (cls : Nat) (s : State) : (logInterrupt cls s).log.ring = s.log.ring := by
  rw [logInterrupt_log]

theorem mgt_logInterrupt (cls : Nat) (s : State) : (logInterrupt cls s).log.mgt = s.log.mgt := by
  rw [logInterrupt_log]

theorem logInterrupt_frame (cls : Nat) (s : State) : LogFrame s (logInterrupt cls s) := by
  refine ⟨?_, fun a ha => reg_logInterrupt_ne fun h => ha (by simp [IntReg.of_raiseTouches h]), fun a _ => ctr_logInterrupt ..⟩
  obtain ⟨-, e⟩ | ⟨-, -, e⟩ | ⟨-, -, e⟩ := logInterrupt_cases cls s <;> rw [e]
  · rw [raise_frame]
    rfl
  · rw [raise_frame]

theorem raised_logInterrupt {cls : Nat} (h : cls = clsDevice ∨ logDue s) : Raised 257 s (logInterrupt cls s) := by
  obtain ⟨-, e⟩ | ⟨-, -, e⟩ | ⟨hd, hc, -⟩ := logInterrupt_cases cls s
  · rw [e]
    exact (raised_raise ..).of_reg_eq rfl rfl
  · rw [e]
    exact raised_raise ..
  · exact absurd h (not_or.mpr ⟨hc, hd⟩)

theorem fired_logInterrupt {cls : Nat} (h : logDue s) : (logInterrupt cls s).log.fired = true := by
  obtain ⟨-, e⟩ | ⟨hd, -⟩ | ⟨hd, -⟩ := logInterrupt_cases cls s
  · rw [e, raise_log]
    rfl
  · exact absurd h hd
  · exact absurd h hd

theorem logInterrupt_quiet {cls : Nat} (hc : cls ≠ clsDevice) (hd : ¬ logDue s) : logInterrupt cls s = s := by
  obtain ⟨h, -⟩ | ⟨-, h, -⟩ | ⟨-, -, e⟩ := logInterrupt_cases cls s
  · exact absurd h hd
  · exact absurd h hc
  · exact e

end Sys2Proof.Machine
end

section
/-!
SUPPORT. What the commands of the Ember log do: which event is next, what an entry's writing gives, what a host write of LOG_CI
gives.
-/
namespace Sys2Proof.Machine

variable {s t : State}

/-! ### Writing an entry -/

/-- The state in which an entry stands in the ring and its copy is queued, before the interrupt. -/
def logPublish (e : LogEv) (s : State) : State :=
  logMgt e (e.bytes (rf s Reg.logWr 15 0)) (logPlace e (logRoom s))

/-- With STOP, an event that finds 16,384 entries claimed is lost and counted (R482). -/
theorem logWrite_stopped (e : LogEv) (hfull : 16384 ≤ logClaimed s) (hstop : rb s Reg.logCfg 31 = true) :
    logWrite e s = count1 Ctr.logLost (withLog { s.log with stopLost := s.log.stopLost + 1 } s) := by
  have hlost : (decide (16384 ≤ logClaimed s) && rb s Reg.logCfg 31) = true := by simp [hfull, hstop]
  unfold logWrite
  exact if_pos hlost

theorem logWrite_written (e : LogEv) {full : Bool} (hfull : full = decide (16384 ≤ logClaimed s))
    (h : full = false ∨ rb s Reg.logCfg 31 = false) :
    logWrite e s = logInterrupt e.cls (logPublish e s) := by
  have hkept : ¬ ((decide (16384 ≤ logClaimed s) && rb s Reg.logCfg 31) = true) := by
    rw [← hfull]
    rcases h with h | h <;> simp [h]
  rw [logPublish, ← logWr_logRoom]
  unfold logWrite
  exact if_neg hkept

theorem reg_logPublish (e : LogEv) (s : State) (a : Nat) :
    reg (logPublish e s) a = reg (logPlace e (logRoom s)) a := reg_logMgt ..

/-- The registers that a written entry leaves as they are. -/
theorem reg_logPublish_ne {e : LogEv} {a : Nat} (hw : a ≠ Reg.logWr) (hp : a ≠ Reg.logPi) (hc : a ≠ Reg.logCi)
    (hs : a ≠ Reg.logStatus) : reg (logPublish e s) a = reg s a := by
  rw [reg_logPublish, reg_logPlace_ne hw hp hs, reg_logRoom_ne hc]

theorem logPublish_log (e : LogEv) (s : State) : (logPublish e s).log =
    { (logPlace e (logRoom s)).log with mgt := (logPublish e s).log.mgt } := logMgt_log ..

theorem ring_logPublish (e : LogEv) (s : State) : (logPublish e s).log.ring =
    Tbl.set (zeroBytes 32) s.log.ring (rf s Reg.logWr 15 0 % 16384) (e.bytes (rf s Reg.logWr 15 0)) := by
  rw [logPublish_log, logPlace_log, logRoom_log, logWr_logRoom]

theorem fired_logPublish (e : LogEv) (s : State) : (logPublish e s).log.fired = s.log.fired := by
  rw [logPublish_log, logPlace_log, logRoom_log]

theorem logPublish_frame (e : LogEv) (s : State) : LogFrame s (logPublish e s) :=
  ((logRoom_frame s).trans (logPlace_frame e _)).trans (logMgt_frame e _ _)

theorem out_logPublish (e : LogEv) (s : State) : (logPublish e s).out = s.out := by
  rw [logPublish, logMgt_out, logPlace_out, logRoom_out]

/-- The log's registers read after an entry's interrupt as before it. -/
theorem reg_logInterrupt_of_log {cls a : Nat} (h : Reg.logCfg ≤ a) : reg (logInterrupt cls s) a = reg s a :=
  reg_logInterrupt_ne (not_raiseTouches_log h)

theorem logSends_place {e : LogEv} : logSends e (logPlace e (logRoom s)) ↔ logSends e s := by
  have hcfg : reg (logPlace e (logRoom s)) Reg.logCfg = reg s Reg.logCfg := by
    rw [reg_logPlace_ne (by decide) (by decide) (by decide), reg_logRoom_ne (by decide)]
  rw [logSends, logSends, rb, rf, hcfg]
  rfl

theorem mgt_place (e : LogEv) (s : State) : (logPlace e (logRoom s)).log.mgt = s.log.mgt := by
  rw [logPlace_log, logRoom_log]

theorem mgt_logPublish_of_room {e : LogEv} (h : logSends e s) (hroom : s.log.mgt.length < 256) :
    (logPublish e s).log.mgt = s.log.mgt ++ [e.bytes (rf s Reg.logWr 15 0)] := by
  rw [logPublish, logMgt_of_room (logSends_place.mpr h) (by rwa [mgt_place]), mgt_place]

theorem mgt_logPublish_of_full {e : LogEv} (h : logSends e s) (hfull : 256 ≤ s.log.mgt.length) :
    (logPublish e s).log.mgt = s.log.mgt ∧ Counted Ctr.logMgtDrop s (logPublish e s) := by
  rw [logPublish, logMgt_of_full (logSends_place.mpr h) (by rwa [mgt_place]), count1_log, mgt_place]
  refine ⟨rfl, (counted_count1 ..).of_ctr_eq ?_ rfl⟩
  rw [ctr_logPlace_ne (by decide), ctr_logRoom_ne (by decide)]

theorem mgt_logPublish_of_not_sends {e : LogEv} (h : ¬ logSends e s) : (logPublish e s).log.mgt = s.log.mgt := by
  rw [logPublish, logMgt_of_not_sends (mt logSends_place.mp h), mgt_place]

theorem logDue_logPublish (e : LogEv) (s : State) : logDue (logPublish e s) ↔
    rf s Reg.logThresh 14 0 ≤ logFill (logPublish e s) ∧ (s.log.fired = false ∨ rf s Reg.logThresh 14 0 = 0) := by
  have hthresh : rf (logPublish e s) Reg.logThresh 14 0 = rf s Reg.logThresh 14 0 :=
    rf_congr 14 0 (reg_logPublish_ne (by decide) (by decide) (by decide) (by decide))
  rw [logDue, hthresh, fired_logPublish]

theorem logFill_logInterrupt (cls : Nat) (s : State) : logFill (logInterrupt cls s) = logFill s := by
  rw [logFill, logFill, rf_congr 15 0 (reg_logInterrupt_of_log (by decide)), rf_congr 15 0 (reg_logInterrupt_of_log (by decide))]

/-- The indices read after an entry's interrupt as after it took its slot. -/
theorem rf_logWritten (e : LogEv) (s : State) {a : Nat} (ha : Reg.logCfg ≤ a) :
    rf (logInterrupt e.cls (logPublish e s)) a 15 0 = rf (logPlace e (logRoom s)) a 15 0 := by
  rw [rf_congr 15 0 (reg_logInterrupt_of_log ha), rf_congr 15 0 (reg_logPublish ..)]

theorem ring_logWritten (e : LogEv) (s : State) : (logInterrupt e.cls (logPublish e s)).log.ring =
    Tbl.set (zeroBytes 32) s.log.ring (rf s Reg.logWr 15 0 % 16384) (e.bytes (rf s Reg.logWr 15 0)) := by
  rw [ring_logInterrupt, ring_logPublish]

theorem counted_entry (e : LogEv) (s : State) : Counted Ctr.logEntries s (logInterrupt e.cls (logPublish e s)) := by
  refine (counted_logPlace e (logRoom s)).of_ctr_eq (ctr_logRoom_ne (by decide)).symm ?_
  rw [ctr_logInterrupt, logPublish, ctr_logMgt_ne (by decide)]

theorem counted_overwrite (e : LogEv) (h : 16384 ≤ logClaimed s) :
    Counted Ctr.logOverwritten s (logInterrupt e.cls (logPublish e s)) := by
  refine (counted_logRoom h).of_ctr_eq rfl ?_
  rw [ctr_logInterrupt, logPublish, ctr_logMgt_ne (by decide), ctr_logPlace_ne (by decide)]

theorem intMap_logPublish (e : LogEv) (s : State) : reg (logPublish e s) (Reg.intMap 257) = reg s (Reg.intMap 257) :=
  reg_logPublish_ne (by decide) (by decide) (by decide) (by decide)

theorem raised_logWritten {e : LogEv} (h : e.cls = clsDevice ∨ logDue (logPublish e s)) :
    Raised 257 s (logInterrupt e.cls (logPublish e s)) := by
  have hperst : reg (logPublish e s) Reg.hifStatus = reg s Reg.hifStatus :=
    reg_logPublish_ne (by decide) (by decide) (by decide) (by decide)
  exact (raised_logInterrupt h).of_reg_eq (intMap_logPublish e s).symm hperst.symm

theorem logWritten_quiet {e : LogEv} (hc : e.cls ≠ clsDevice) (hd : ¬ logDue (logPublish e s)) :
    reg (logInterrupt e.cls (logPublish e s)) (Reg.intMap 257) = reg s (Reg.intMap 257) ∧
      (logInterrupt e.cls (logPublish e s)).out = s.out := by
  rw [logInterrupt_quiet hc hd]
  exact ⟨intMap_logPublish e s, out_logPublish e s⟩

theorem logWrite_takes {e : LogEv} {full : Bool} (hfull : full = decide (16384 ≤ logClaimed s))
    (hkept : full = false ∨ rb s Reg.logCfg 31 = false) : LogTakes e full s (logWrite e s) := by
  rw [logWrite_written e hfull hkept]
  refine ⟨?wr, ?pi, ?ci, ?entry, ?others, counted_entry e s, ?overwritten, ?sent, ?dropped, ?kept, ?interrupt, ?frame⟩
  case wr => rw [rf_logWritten e s (by decide), logWr_logPlace, logWr_logRoom]
  case pi => rw [rf_logWritten e s (by decide), rf_logWritten e s (by decide), logPi_logPlace, logWr_logPlace]
  case ci =>
    rw [rf_logWritten e s (by decide), rf_congr 15 0 (reg_logPlace_ne (by decide) (by decide) (by decide)), logCi_logRoom,
      hfull]
    simp only [decide_eq_true_eq]
  case entry =>
    rw [ring_logWritten, Tbl.get_set_same]
    exact entryOf_bytes ..
  case others =>
    intro i hi
    rw [ring_logWritten, Tbl.get_set_ne _ _ _ _ hi]
  case overwritten => exact fun h => counted_overwrite e (of_decide_eq_true (hfull.symm.trans h))
  case sent =>
    intro hen hcls hroom
    rw [mgt_logInterrupt]
    exact ⟨_, mgt_logPublish_of_room ⟨hen, hcls⟩ hroom, entryOf_bytes ..⟩
  case dropped =>
    intro hen hcls hmgt
    obtain ⟨hsame, hdropped⟩ := mgt_logPublish_of_full ⟨hen, hcls⟩ hmgt
    rw [mgt_logInterrupt]
    exact ⟨hsame, hdropped.of_ctr_eq rfl (ctr_logInterrupt ..)⟩
  case kept =>
    intro h
    rw [mgt_logInterrupt]
    refine mgt_logPublish_of_not_sends fun ⟨hen, hcls⟩ => ?_
    rcases h with h | h
    · simp [h] at hen
    · omega
  case interrupt =>
    intro fill due
    have hfill : fill = logFill (logPublish e s) := logFill_logInterrupt e.cls _
    have hdue : due ↔ logDue (logPublish e s) := by rw [logDue_logPublish, ← hfill]
    exact ⟨fun h => raised_logWritten (h.imp_right hdue.mp), fun h => fired_logInterrupt (hdue.mp h),
      fun hc hd => logWritten_quiet hc (mt hdue.mpr hd)⟩
  case frame => exact (logPublish_frame e s).trans (logInterrupt_frame _ _)

/-- The events that wait, the losses not yet told and the rotation are as in `l`. -/
def SameWaiting (l m : LogSt) : Prop := m.queues = l.queues ∧ m.lost = l.lost ∧ m.stopLost = l.stopLost ∧ m.next = l.next

theorem logWrite_waiting {e : LogEv} {full : Bool} (hfull : full = decide (16384 ≤ logClaimed s))
    (hkept : full = false ∨ rb s Reg.logCfg 31 = false) : SameWaiting s.log (logWrite e s).log := by
  rw [logWrite_written e hfull hkept, logInterrupt_log, logPublish_log, logPlace_log, logRoom_log]
  exact ⟨rfl, rfl, rfl, rfl⟩

/-- Of the log's state before, taking an event sees the ring, the send queue and the mark of the threshold only. -/
theorem LogTakes.of_log {e : LogEv} {full : Bool} {l : LogSt} (hring : l.ring = s.log.ring) (hmgt : l.mgt = s.log.mgt)
    (hfired : l.fired = s.log.fired) (h : LogTakes e full (withLog l s) t) : LogTakes e full s t := by
  obtain ⟨ring, queues, lost, stopLost, next, mgt, fired⟩ := l
  subst hring hmgt hfired
  exact h

/-! ### The next event -/

theorem logNextOrigin_of_nextOrigin {o : Nat} (h : NextOrigin s o) : logNextOrigin s = some o := by
  obtain ⟨rfl, hne⟩ | ⟨hsd, i, hi, rfl, hne, hbefore⟩ := h
  · rw [logNextOrigin, if_pos hne]
  · rw [logNextOrigin, if_neg (not_not.mpr hsd), List.find?_map, Option.map_eq_some_iff]
    refine ⟨i, List.find?_range_eq_some.mpr ⟨?_, List.mem_range.mpr hi, fun j hj => ?_⟩, rfl⟩
    · simpa using hne
    · simpa using hbefore j hj

theorem logNextOrigin_none (h : ∀ o, o < 5 → s.log.queues.getD o [] = []) : logNextOrigin s = none := by
  rw [logNextOrigin, if_neg (not_not.mpr (h 4 (by decide))), List.find?_eq_none]
  intro o ho
  obtain ⟨i, -, rfl⟩ := List.mem_map.mp ho
  simpa using h _ (show (s.log.next + i) % 4 < 5 by omega)

theorem NextOrigin.lt {o : Nat} (h : NextOrigin s o) : o < 5 := by
  obtain ⟨rfl, -⟩ | ⟨-, i, -, rfl, -⟩ := h <;> omega

/-- The log once the first event of origin `o` has left its queue, whose other events are `rest`. -/
def dequeued (o : Nat) (rest : List LogEv) (l : LogSt) : LogSt :=
  { l with queues := listPut 5 [] l.queues o rest, next := if o < 4 then (o + 1) % 4 else l.next }

theorem queues_dequeued_same {o : Nat} (rest : List LogEv) (l : LogSt) (h : o < 5) :
    (dequeued o rest l).queues.getD o [] = rest := by
  rw [dequeued, getD_listPut _ _ _ _ _ _ h, if_pos rfl]

theorem queues_dequeued_ne {o p : Nat} (rest : List LogEv) (l : LogSt) (hp : p < 5) (hne : p ≠ o) :
    (dequeued o rest l).queues.getD p [] = l.queues.getD p [] := by
  rw [dequeued, getD_listPut _ _ _ _ _ _ hp, if_neg hne]

theorem exec_logEntryWrite {o : Nat} {e : LogEv} {rest : List LogEv} (ho : NextOrigin s o)
    (hq : s.log.queues.getD o [] = e :: rest) :
    exec .logEntryWrite s = .next (logWrite e (withLog (dequeued o rest s.log) s)) := by
  change execLogEntryWrite s = _
  simp only [execLogEntryWrite, logNextOrigin_of_nextOrigin ho, hq]
  rfl

theorem logEntryWrite_takes {o : Nat} {e : LogEv} {rest : List LogEv} {full : Bool} (ho : NextOrigin s o)
    (hq : s.log.queues.getD o [] = e :: rest) (hfull : full = decide (16384 ≤ logClaimed s))
    (hkept : full = false ∨ rb s Reg.logCfg 31 = false) :
    ∃ t, exec .logEntryWrite s = .next t ∧ LogTakes e full s t ∧ (o < 5 → t.log.queues.getD o [] = rest) ∧
      (∀ p, p < 5 → p ≠ o → t.log.queues.getD p [] = s.log.queues.getD p []) ∧
      (o < 4 → t.log.next = (o + 1) % 4) ∧ (o = 4 → t.log.next = s.log.next) := by
  have htakes : LogTakes e full (withLog (dequeued o rest s.log) s) (logWrite e (withLog (dequeued o rest s.log) s)) :=
    logWrite_takes (by rwa [logClaimed_withLog]) (by rwa [rb_withLog])
  obtain ⟨hqueues, -, -, hnext⟩ : SameWaiting (dequeued o rest s.log) (logWrite e (withLog (dequeued o rest s.log) s)).log :=
    logWrite_waiting (full := full) (by rwa [logClaimed_withLog]) (by rwa [rb_withLog])
  refine ⟨_, exec_logEntryWrite ho hq, htakes.of_log rfl rfl rfl, ?_⟩
  rw [hqueues, hnext]
  exact ⟨queues_dequeued_same rest s.log, fun p => queues_dequeued_ne rest s.log, fun h => if_pos h,
    fun h => if_neg (by omega)⟩

theorem logEntryWrite_lost {o : Nat} {e : LogEv} {rest : List LogEv} (ho : NextOrigin s o)
    (hq : s.log.queues.getD o [] = e :: rest) (hfull : 16384 ≤ logClaimed s) (hstop : rb s Reg.logCfg 31 = true) :
    ∃ t, exec .logEntryWrite s = .next t ∧ t.log.stopLost = s.log.stopLost + 1 ∧ t.log.ring = s.log.ring ∧
      t = { s with ctr := t.ctr, log := t.log } ∧ Counted Ctr.logLost s t ∧ SameCtrsBut (fun a => a = Ctr.logLost) s t ∧
      t.log.queues.getD o [] = rest := by
  refine ⟨_, exec_logEntryWrite ho hq, ?_⟩
  rw [logWrite_stopped e (by rwa [logClaimed_withLog]) (by rwa [rb_withLog])]
  exact ⟨rfl, rfl, rfl, (counted_count1 ..).of_ctr_eq rfl rfl, fun _ ha => ctr_count1_ne _ ha,
    queues_dequeued_same rest s.log ho.lt⟩

theorem logEntryWrite_idle (h : ∀ o, o < 5 → s.log.queues.getD o [] = []) : exec .logEntryWrite s = .next s := by
  change execLogEntryWrite s = _
  rw [execLogEntryWrite, logNextOrigin_none h]

/-! ### What was lost is told -/

/-- An event whose queue has room joins it, and nothing else changes. -/
theorem logEvent_of_room {origin code cls kind unit : Nat} {data : List Byte}
    (h : (s.log.queues.getD origin []).length < 64) :
    logEvent origin code cls kind unit data s = withLog { s.log with
      queues := listPut 5 [] s.log.queues origin
        (s.log.queues.getD origin [] ++ [⟨BitVec.ofNat 64 (devTicks s), code, origin, cls, kind, unit, data⟩]) } s := by
  have hfits : ¬ ((decide (origin < 4) && decide (64 ≤ (s.log.queues.getD origin []).length)) = true) := by
    rw [decide_eq_false (Nat.not_le.mpr h), Bool.and_false]
    exact Bool.false_ne_true
  exact if_neg hfits

theorem exec_logLostEntry_quadrant {o : Fin 5} (ho : o.val < 4) (hlost : 0 < s.log.lost.getD o 0)
    (hroom : (s.log.queues.getD o []).length < 64) :
    exec (.logLostEntry o) s = .next (logEvent o 0x0F01 clsInfo 0 o (dataG (s.log.lost.getD o 0) 0)
      (withLog { s.log with lost := listPut 5 0 s.log.lost o 0 } s)) := by
  have htold : (decide (0 < s.log.lost.getD o 0) && decide ((s.log.queues.getD o []).length < 64)) = true :=
    Bool.and_eq_true_iff.mpr ⟨decide_eq_true hlost, decide_eq_true hroom⟩
  exact congrArg Host.Outcome.next ((if_pos ho).trans (if_pos htold))

theorem logLostEntry_quadrant {o : Fin 5} (ho : o.val < 4) (hlost : 0 < s.log.lost.getD o 0)
    (hroom : (s.log.queues.getD o []).length < 64) :
    ∃ t, exec (.logLostEntry o) s = .next t ∧ Logged o 0x0F01 0 0 o (dataG (s.log.lost.getD o 0) 0) s t ∧
      t.log.lost.getD o 0 = 0 ∧ t = { s with log := t.log } ∧ t.log.ring = s.log.ring := by
  refine ⟨_, exec_logLostEntry_quadrant ho hlost hroom, ?_⟩
  rw [logEvent_of_room (by exact hroom)]
  refine ⟨?_, ?_, rfl, rfl⟩
  · rw [Logged, withLog_log, getD_listPut _ _ _ _ _ _ o.isLt, if_pos rfl]
    rfl
  · rw [withLog_log, withLog_log, getD_listPut _ _ _ _ _ _ o.isLt, if_pos rfl]

/-- The event that tells how many events STOP has lost. -/
def stopLostEvent (s : State) : LogEv := ⟨BitVec.ofNat 64 (devTicks s), 0x0F01, 4, clsInfo, 0, 0, dataG s.log.stopLost 0⟩

theorem exec_logLostEntry_service (hlost : 0 < s.log.stopLost) (hroom : logClaimed s < 16384) :
    exec (.logLostEntry 4) s = .next (logWrite (stopLostEvent s) (withLog { s.log with stopLost := 0 } s)) := by
  have htold : (decide (0 < s.log.stopLost) && !decide (16384 ≤ logClaimed s)) = true := by
    rw [decide_eq_true hlost, decide_eq_false (Nat.not_le.mpr hroom)]
    rfl
  exact congrArg Host.Outcome.next ((if_neg (by decide)).trans (if_pos htold))

theorem logLostEntry_service (hlost : 0 < s.log.stopLost) (hroom : logClaimed s < 16384) :
    ∃ t, exec (.logLostEntry 4) s = .next t ∧ LogTakes (stopLostEvent s) false s t ∧ t.log.stopLost = 0 := by
  have hfull : false = decide (16384 ≤ logClaimed (withLog { s.log with stopLost := 0 } s)) := by
    rw [logClaimed_withLog, decide_eq_false (Nat.not_le.mpr hroom)]
  have htakes := logWrite_takes (e := stopLostEvent s) hfull (.inl rfl)
  obtain ⟨-, -, hlost0, -⟩ := logWrite_waiting (e := stopLostEvent s) hfull (.inl rfl)
  exact ⟨_, exec_logLostEntry_service hlost hroom, htakes.of_log rfl rfl rfl, hlost0⟩

/-! ### A host write of LOG_CI -/

/-- LOG_CI set to the value written, and LOG_STATUS after it. -/
def logCiSet (v : Word) (s : State) : State := logStatusUpdate (setRf Reg.logCi 15 0 (fld v 15 0) s)

/-- The entries between the index written and LOG_PI. -/
def fillFrom (v : Word) (s : State) : Nat := (rf s Reg.logPi 15 0 + 65536 - fld v 15 0) % 65536

theorem reg_logCiSet_ne {v : Word} {a : Nat} (hc : a ≠ Reg.logCi) (hs : a ≠ Reg.logStatus) :
    reg (logCiSet v s) a = reg s a := by
  rw [logCiSet, reg_logStatusUpdate_ne hs, reg_setRf_ne _ _ _ _ hc]

/-- Only registers and the log change. -/
def OnlyRegsLog (s t : State) : Prop := t = { s with regs := t.regs, log := t.log }

theorem OnlyRegs.regsLog (h : OnlyRegs s t) : OnlyRegsLog s t := by
  unfold OnlyRegsLog
  rw [h]

theorem OnlyRegsLog.withLog (l : LogSt) (h : OnlyRegsLog s t) : OnlyRegsLog s (withLog l t) := by
  unfold OnlyRegsLog at *
  rw [h]
  rfl

theorem logCiSet_onlyRegs (v : Word) (s : State) : OnlyRegs s (logCiSet v s) := ((OnlyRegs.refl s).setRf ..).setRb ..

@[simp] theorem logCiSet_log (v : Word) (s : State) : (logCiSet v s).log = s.log := by
  rw [logCiSet, logStatusUpdate_log, setRf_log]

theorem logCi_setRf (v : Word) (s : State) : rf (setRf Reg.logCi 15 0 (fld v 15 0) s) Reg.logCi 15 0 = fld v 15 0 := by
  rw [rf_setRf_same _ (by decide) (by decide)]
  exact Nat.mod_eq_of_lt (fld_lt v 15 0)

theorem logCi_logCiSet (v : Word) (s : State) : rf (logCiSet v s) Reg.logCi 15 0 = fld v 15 0 := by
  rw [logCiSet, rf_congr 15 0 (reg_logStatusUpdate_ne (by decide)), logCi_setRf]

theorem logFill_logCiSet (v : Word) (s : State) : logFill (logCiSet v s) = fillFrom v s := by
  rw [logFill, logCi_logCiSet, rf_congr 15 0 (reg_logCiSet_ne (by decide) (by decide)), fillFrom]

theorem full_logCiSet (v : Word) (s : State) : rb (logCiSet v s) Reg.logStatus 0 = (fillFrom v s == 16384) := by
  rw [logCiSet, logStatusUpdate, rb_setRb_same _ (by decide), logFill, logCi_setRf,
    rf_congr 15 0 (reg_setRf_ne s _ _ _ (by decide)), fillFrom]

/-- What a write that is taken does: below the threshold, source 257 is ready again (R483). -/
theorem logCiWrite_taken {v : Word} (h : fillFrom v s ≤ 16384) : logCiWrite v s =
    if fillFrom v s < rf s Reg.logThresh 14 0 then withLog { (logCiSet v s).log with fired := false } (logCiSet v s)
    else logCiSet v s := by
  have hthresh : rf (logCiSet v s) Reg.logThresh 14 0 = rf s Reg.logThresh 14 0 :=
    rf_congr 14 0 (reg_logCiSet_ne (by decide) (by decide))
  rw [← hthresh, ← logFill_logCiSet]
  exact if_pos h

theorem logCiWrite_takes {v : Word} (h : fillFrom v s ≤ 16384) : ∃ t, exec (.logCiWrite v) s = .next t ∧
    rf t Reg.logCi 15 0 = fld v 15 0 ∧ rb t Reg.logStatus 0 = (fillFrom v s == 16384) ∧
    (fillFrom v s < rf s Reg.logThresh 14 0 → t.log = { s.log with fired := false }) ∧
    (rf s Reg.logThresh 14 0 ≤ fillFrom v s → t.log = s.log) ∧ t = { s with regs := t.regs, log := t.log } ∧
    SameRegsBut (fun a => a = Reg.logCi ∨ a = Reg.logStatus) s t := by
  have hregs : SameRegsBut (fun a => a = Reg.logCi ∨ a = Reg.logStatus) s (logCiSet v s) := fun a ha =>
    reg_logCiSet_ne (not_or.mp ha).1 (not_or.mp ha).2
  refine ⟨_, congrArg Host.Outcome.next (logCiWrite_taken h), ?_⟩
  split
  · next hbelow =>
    exact ⟨by rw [rf_withLog, logCi_logCiSet], by rw [rb_withLog, full_logCiSet], fun _ => by rw [withLog_log, logCiSet_log],
      fun hreached => absurd hbelow (Nat.not_lt.mpr hreached), (logCiSet_onlyRegs v s).regsLog.withLog _,
      fun a ha => by rw [reg_withLog, hregs a ha]⟩
  · next hreached =>
    exact ⟨logCi_logCiSet v s, full_logCiSet v s, fun hbelow => absurd hbelow hreached, fun _ => logCiSet_log v s,
      (logCiSet_onlyRegs v s).regsLog, hregs⟩

theorem logCiWrite_ignored {v : Word} (h : 16384 < fillFrom v s) : exec (.logCiWrite v) s = .next s :=
  congrArg Host.Outcome.next (if_neg (Nat.not_le.mpr h))

/-- Settles O54: the four parts of writing an entry change different registers and counters, so the entry's effect is read off
part by part. -/
theorem emberLog : Obligations.EmberLog := by
  unfold Obligations.EmberLog
  exact ⟨⟨fun _ _ _ _ _ => logEntryWrite_takes, fun _ _ _ _ => logEntryWrite_lost, fun _ => logEntryWrite_idle,
    fun _ _ => logLostEntry_quadrant, fun _ => logLostEntry_service⟩,
    fun _ _ => logCiWrite_takes, fun _ _ => logCiWrite_ignored⟩

end Sys2Proof.Machine
end
